-- ==== Sys2Proof/Word.lean ====
section
/-! DEFINITION. The words of the machine and the two size notions of the spec (operand width, and the
operand-size and address-size attributes of R8). Only types and their plainest arithmetic stand here. -/

namespace Sys2Proof

/-- One byte (R70: memory is byte-addressed). -/
abbrev Byte := BitVec 8

/-- A general register number, the 3-bit reg field (R20). -/
abbrev RegNum := BitVec 3

/-- Operand widths an instruction moves (R113, R150). -/
inductive Width where
  | w8 | w16 | w32
deriving DecidableEq, Repr, Inhabited

/-- The number of bits of an operand width (R8). -/
abbrev Width.bits : Width → Nat
  | .w8 => 8
  | .w16 => 16
  | .w32 => 32

/-- The number of bytes of an operand width (R113). -/
abbrev Width.bytes : Width → Nat
  | .w8 => 1
  | .w16 => 2
  | .w32 => 4

/-- The two values of the operand-size attribute OS and of the address-size attribute AS (R8). -/
inductive Size where
  | s16 | s32
deriving DecidableEq, Repr, Inhabited

/-- The width of a full-size operand under an attribute (R150). -/
abbrev Size.width : Size → Width
  | .s16 => .w16
  | .s32 => .w32

/-- The other size: what a size prefix toggles to (R136, R137). -/
def Size.toggle : Size → Size
  | .s16 => .s32
  | .s32 => .s16

/-- A value of an operand width. -/
abbrev Val (w : Width) := BitVec w.bits

end Sys2Proof
end

