-- ==== Sys2Proof/Config.lean ====
section
/-! DEFINITION. What an implementation fixes: the parameters of R4 and R5 (a record the state holds and no step
changes) and the free values of the spec, which are constants without a body. -/

namespace Sys2Proof

/-- The parameter CPU (R4, D3). -/
inductive Cpu where
  | p286 | p386 | p486
deriving DecidableEq, Repr, Inhabited

/-- The parameter NPX (R4, D3). -/
inductive Npx where
  | absent | n287 | n387 | integrated
deriving DecidableEq, Repr, Inhabited

/-- What answers at a range of physical addresses (D19). -/
inductive RegionKind where
  | ram | rom | device | nothing
deriving DecidableEq, Repr, Inhabited

/-- One entry of the parameter MEMMAP (D19): `size` bytes from `base`. -/
structure Region where
  base : Nat
  size : Nat
  kind : RegionKind
deriving DecidableEq, Repr, Inhabited

/-- The parameters of one machine (R4, R5). An address that no region holds answers as `nothing` (D19). -/
structure Config where
  cpu : Cpu
  npx : Npx
  /-- JCXZ_SELECT = operand (D7). -/
  jcxzByOperand : Bool
  /-- A20 = masked (D18). -/
  a20Masked : Bool
  /-- IRQ13_VECTOR (D10). -/
  irq13Vector : BitVec 8
  /-- MAX_INSN_LEN (D15). -/
  maxInsnLen : Nat
  /-- PWT_BIT and PCD_BIT (D17). -/
  pwtBit : Nat
  pcdBit : Nat
  memmap : List Region
deriving DecidableEq, Repr, Inhabited

namespace Config

/-- The pairs of processor and coprocessor the spec allows (D3). -/
def legalPair : Cpu → Npx → Bool
  | .p286, .absent => true
  | .p286, .n287 => true
  | .p386, .absent => true
  | .p386, .n387 => true
  | .p486, .integrated => true
  | _, _ => false

/-- PHYS_BITS (R4). -/
def physBits (c : Config) : Nat :=
  match c.cpu with
  | .p286 => 24
  | .p386 => 32
  | .p486 => 32

/-- The default MEMMAP: every address is RAM. DESIGN CHOICE (log entry 7). -/
def allRam : List Region := [⟨0, 4294967296, .ram⟩]

/-- The parameters with the defaults the spec gives (D7, D10, D15, D17, D18); MEMMAP: log entry 7. -/
def standard (cpu : Cpu) (npx : Npx) : Config where
  cpu := cpu
  npx := npx
  jcxzByOperand := false
  a20Masked := false
  irq13Vector := 0x75#8
  maxInsnLen := match cpu with
    | .p286 => 10
    | .p386 => 15
    | .p486 => 15
  pwtBit := 3
  pcdBit := 4
  memmap := allRam

/-- The machine of `State.reset`: an 80486 with its integrated unit. DESIGN CHOICE (log entry 1). -/
def default486 : Config := standard .p486 .integrated

/-! The free values (R11, D9): `undef_n` at the k-th draw of a run. They have no body, so nothing can be proved
of a value of them (log entry 8). -/

/-- `undef_1`. -/
opaque freeBit : Nat → Bool
/-- `undef_8`. -/
opaque freeByte : Nat → BitVec 8
/-- `undef_16`. -/
opaque freeWord : Nat → BitVec 16
/-- `undef_32`. -/
opaque freeDword : Nat → BitVec 32
/-- `undef_80`, a temporary real. -/
opaque freeTemp : Nat → BitVec 80
/-- IO_READ (D6): the byte the `k`-th read finds at a port. -/
opaque ioRead : (port : Nat) → (k : Nat) → BitVec 8
/-- What a device in the memory space answers to the `k`-th read (D19, D6). -/
opaque deviceByte : (addr : Nat) → (k : Nat) → BitVec 8

/-- The effective address with an s-i-b byte of index 100 and ss not 00, "undefined" (R144, U6): of ss, the base
register's value (0 where there is none) and the displacement (log entry 55). -/
opaque undefinedEa : (ss : BitVec 2) → (base disp : BitVec 32) → BitVec 32

/-- The functions the spec leaves to `NPX_FUN` (D14). -/
inductive NpxFun where
  | f2xm1 | yl2x | yl2xp1 | tan | atan2 | sin | cos
deriving DecidableEq, Repr, Inhabited

/-- What an `NPX_FUN` answers: a temporary real, and which of the overflow, underflow, precision and denormal
exceptions it reports, and whether it rounded up (R478, log entry 32). -/
structure NpxResult where
  value : BitVec 80
  oe : Bool
  ue : Bool
  pe : Bool
  up : Bool
deriving DecidableEq, Repr, Inhabited

/-- `NPX_FUN` (D14): a fixed function of the function's name, its operands and the control word. -/
opaque npxFun : NpxFun → (a b : BitVec 80) → (cw : BitVec 16) → NpxResult

/-- `NPX_FUN.prem_step` (D14, R524): the reduction of one incomplete FPREM step is `32 + this mod 32`. -/
opaque npxPremStep : (a b : BitVec 80) → Nat

/-- Which neighbour of a constant the 80287 loads (R506): whether it is the one farther from the exact value. -/
opaque npx287Other : Nat → Bool

/-- Rounding under the reserved precision control 01 (R475): of the exact value `m * 2^x`, or its negative when
`neg`, under a control word. The spec states no result (log entry 53). -/
opaque npxReservedRound : (neg : Bool) → (m : Nat) → (x : Int) → (cw : BitVec 16) → NpxResult

/-- FSCALE on the 80287 with a scale for which the spec states no result (R523, log entry 52). -/
opaque npx287Scale : (a scale : BitVec 80) → (cw : BitVec 16) → NpxResult

/-- FPTAN on the 80287 (R530): the two results Y and X of the ratio it leaves on the stack. -/
opaque npx287Tan : BitVec 80 → BitVec 16 → BitVec 80 × BitVec 80

end Config

end Sys2Proof
end

