-- ==== Sys2Proof/Syntax.lean ====
section
/-! DEFINITION. The instructions: one constructor for each row of spec/opcode_table.json. Rows of one mnemonic that
differ only in a field of the encoding or in which of two encodings carries the same operand share one constructor,
whose field says which row it is: the memory format MF of the coprocessor (R157: 32 or 64-bit real, 32 or 16-bit
integer), its d field (R481), the short and full displacement of a conditional jump (R386), the count of a shift by
1, by CL or by an immediate (R300). The fields of a constructor are the fields of the row's encoding (R138) and its
operand bytes (R158). -/

namespace Sys2Proof

/-- Segment registers (R26, R152). -/
inductive SReg where
  | es | cs | ss | ds | fs | gs
deriving DecidableEq, Repr, Inhabited

/-- Immediate data and relative displacements as an instruction carries them (R158). -/
inductive Imm where
  | i8 (v : BitVec 8)
  | i16 (v : BitVec 16)
  | i32 (v : BitVec 32)
deriving DecidableEq, Repr, Inhabited

/-- An offset an instruction carries: the direct address of MOV (AS bits) or the offset of a far pointer
(OS bits) (R158). -/
inductive Off where
  | o16 (v : BitVec 16)
  | o32 (v : BitVec 32)
deriving DecidableEq, Repr, Inhabited

/-- The address displacement that follows a mode specifier: none for mod = 00, 8 bits for mod = 01, full for
mod = 10 (R142, R143). -/
inductive Disp where
  | none
  | d8 (v : BitVec 8)
  | d16 (v : BitVec 16)
  | d32 (v : BitVec 32)
deriving DecidableEq, Repr, Inhabited

/-- A memory operand as the mode specifier names it (R142 to R145). -/
inductive MemOp where
  /-- 16-bit mode, a row of R142 with its displacement. -/
  | a16 (rm : BitVec 3) (disp : Disp)
  /-- 16-bit mode, mod = 00 and r/m = 110: a direct address. -/
  | direct16 (addr : BitVec 16)
  /-- 32-bit mode, no s-i-b byte (R143). -/
  | a32 (base : BitVec 3) (disp : Disp)
  /-- 32-bit mode, mod = 00 and r/m = 101: a direct address. -/
  | direct32 (addr : BitVec 32)
  /-- 32-bit mode with an s-i-b byte (R144). -/
  | sib (ss : BitVec 2) (index base : BitVec 3) (disp : Disp)
  /-- 32-bit mode with an s-i-b byte whose base is 101 under mod = 00: no base register (R144). -/
  | sibNoBase (ss : BitVec 2) (index : BitVec 3) (disp : BitVec 32)
deriving DecidableEq, Repr, Inhabited

/-- The operand a mod r/m byte names: a register (mod = 11, R141) or memory. -/
inductive RM where
  | reg (r : RegNum)
  | mem (m : MemOp)
deriving DecidableEq, Repr, Inhabited

/-- Control registers that exist (R35, R156). -/
inductive CrNum where
  | cr0 | cr2 | cr3
deriving DecidableEq, Repr, Inhabited

/-- Debug registers that exist (R36, R156, R430). -/
inductive DrNum where
  | dr0 | dr1 | dr2 | dr3 | dr6 | dr7
deriving DecidableEq, Repr, Inhabited

/-- Test registers that exist (R37, R156). -/
inductive TrNum where
  | tr6 | tr7
deriving DecidableEq, Repr, Inhabited

/-- The sixteen conditions of the field tttn (R155). -/
inductive Cond where
  | o | no | b | nb | e | ne | be | nbe | s | ns | p | np | l | nl | le | nle
deriving DecidableEq, Repr, Inhabited

/-- The count of a shift or rotate: the three encodings of each operation (R300): by 1, by CL, by an immediate. -/
inductive Count where
  | one
  | cl
  | imm (v : BitVec 8)
deriving DecidableEq, Repr, Inhabited

/-- The instructions. Constructors with operands stand first, the others after them, each in the table's order. -/
inductive Instr where
  /-- MOV, 1000100w mmrrrbbb (R200). -/
  | movRmReg (w : Bool) (reg : RegNum) (rm : RM)
  /-- MOV, 1000101w mmrrrbbb (R200). -/
  | movRegRm (w : Bool) (reg : RegNum) (rm : RM)
  /-- MOV, 1100011w mm000bbb; immediate: 1 byte if w=0 else OS/8 bytes (R201). -/
  | movRmImm (w : Bool) (rm : RM) (imm : Imm)
  /-- MOV, 1011wrrr; immediate: 1 byte if w=0 else OS/8 bytes (R202). -/
  | movRegImm (w : Bool) (reg : RegNum) (imm : Imm)
  /-- MOV, 1010000w; address: AS/8 bytes (R203). -/
  | movAccMem (w : Bool) (addr : Off)
  /-- MOV, 1010001w; address: AS/8 bytes (R203). -/
  | movMemAcc (w : Bool) (addr : Off)
  /-- MOV, 10001110 mmgggbbb (R204). -/
  | movSregRm (sreg : SReg) (rm : RM)
  /-- MOV, 10001100 mmgggbbb (R205). -/
  | movRmSreg (sreg : SReg) (rm : RM)
  /-- MOVSX, 00001111 1011111w mmrrrbbb (R206). -/
  | movsx (w : Bool) (reg : RegNum) (rm : RM)
  /-- MOVZX, 00001111 1011011w mmrrrbbb (R207). -/
  | movzx (w : Bool) (reg : RegNum) (rm : RM)
  /-- PUSH, 11111111 mm110bbb (R208). -/
  | pushRm (rm : RM)
  /-- PUSH, 01010rrr (R209). -/
  | pushReg (reg : RegNum)
  /-- PUSH, 000gg110 (R210). -/
  | pushSreg (sreg : SReg)
  /-- PUSH, 011010s0; immediate: 1 byte sign-extended if s=1 else OS/8 bytes (R211). -/
  | pushImm (s : Bool) (imm : Imm)
  /-- POP, 10001111 mm000bbb (R213). -/
  | popRm (rm : RM)
  /-- POP, 01011rrr (R214). -/
  | popReg (reg : RegNum)
  /-- XCHG, 1000011w mmrrrbbb (R217). -/
  | xchgRmReg (w : Bool) (reg : RegNum) (rm : RM)
  /-- XCHG, 10010rrr (R218). -/
  | xchgAcc (reg : RegNum)
  /-- IN, 1110010w; port: 1 byte (R219). -/
  | inPort (w : Bool) (port : BitVec 8)
  /-- IN, 1110110w (R220). -/
  | inDx (w : Bool)
  /-- OUT, 1110011w; port: 1 byte (R221). -/
  | outPort (w : Bool) (port : BitVec 8)
  /-- OUT, 1110111w (R222). -/
  | outDx (w : Bool)
  /-- LEA, 10001101 mmrrrbbb (R223). -/
  | lea (reg : RegNum) (mem : MemOp)
  /-- LDS, 11000101 mmrrrbbb (R230). -/
  | lds (reg : RegNum) (mem : MemOp)
  /-- LES, 11000100 mmrrrbbb (R231). -/
  | les (reg : RegNum) (mem : MemOp)
  /-- LFS, 00001111 10110100 mmrrrbbb (R232). -/
  | lfs (reg : RegNum) (mem : MemOp)
  /-- LGS, 00001111 10110101 mmrrrbbb (R233). -/
  | lgs (reg : RegNum) (mem : MemOp)
  /-- LSS, 00001111 10110010 mmrrrbbb (R234). -/
  | lss (reg : RegNum) (mem : MemOp)
  /-- ADD, 000000dw mmrrrbbb (R261). -/
  | addRmReg (d : Bool) (w : Bool) (reg : RegNum) (rm : RM)
  /-- ADD, 100000sw mm000bbb; immediate: 1 byte if w=0 or s=1 else OS/8 bytes (R261). -/
  | addRmImm (s : Bool) (w : Bool) (rm : RM) (imm : Imm)
  /-- ADD, 0000010w; immediate: 1 byte if w=0 else OS/8 bytes (R261). -/
  | addAccImm (w : Bool) (imm : Imm)
  /-- OR, 000010dw mmrrrbbb (R312). -/
  | orRmReg (d : Bool) (w : Bool) (reg : RegNum) (rm : RM)
  /-- OR, 100000sw mm001bbb; immediate: 1 byte if w=0 or s=1 else OS/8 bytes (R312). -/
  | orRmImm (s : Bool) (w : Bool) (rm : RM) (imm : Imm)
  /-- OR, 0000110w; immediate: 1 byte if w=0 else OS/8 bytes (R312). -/
  | orAccImm (w : Bool) (imm : Imm)
  /-- ADC, 000100dw mmrrrbbb (R262). -/
  | adcRmReg (d : Bool) (w : Bool) (reg : RegNum) (rm : RM)
  /-- ADC, 100000sw mm010bbb; immediate: 1 byte if w=0 or s=1 else OS/8 bytes (R262). -/
  | adcRmImm (s : Bool) (w : Bool) (rm : RM) (imm : Imm)
  /-- ADC, 0001010w; immediate: 1 byte if w=0 else OS/8 bytes (R262). -/
  | adcAccImm (w : Bool) (imm : Imm)
  /-- SBB, 000110dw mmrrrbbb (R265). -/
  | sbbRmReg (d : Bool) (w : Bool) (reg : RegNum) (rm : RM)
  /-- SBB, 100000sw mm011bbb; immediate: 1 byte if w=0 or s=1 else OS/8 bytes (R265). -/
  | sbbRmImm (s : Bool) (w : Bool) (rm : RM) (imm : Imm)
  /-- SBB, 0001110w; immediate: 1 byte if w=0 else OS/8 bytes (R265). -/
  | sbbAccImm (w : Bool) (imm : Imm)
  /-- AND, 001000dw mmrrrbbb (R310). -/
  | andRmReg (d : Bool) (w : Bool) (reg : RegNum) (rm : RM)
  /-- AND, 100000sw mm100bbb; immediate: 1 byte if w=0 or s=1 else OS/8 bytes (R310). -/
  | andRmImm (s : Bool) (w : Bool) (rm : RM) (imm : Imm)
  /-- AND, 0010010w; immediate: 1 byte if w=0 else OS/8 bytes (R310). -/
  | andAccImm (w : Bool) (imm : Imm)
  /-- SUB, 001010dw mmrrrbbb (R264). -/
  | subRmReg (d : Bool) (w : Bool) (reg : RegNum) (rm : RM)
  /-- SUB, 100000sw mm101bbb; immediate: 1 byte if w=0 or s=1 else OS/8 bytes (R264). -/
  | subRmImm (s : Bool) (w : Bool) (rm : RM) (imm : Imm)
  /-- SUB, 0010110w; immediate: 1 byte if w=0 else OS/8 bytes (R264). -/
  | subAccImm (w : Bool) (imm : Imm)
  /-- XOR, 001100dw mmrrrbbb (R313). -/
  | xorRmReg (d : Bool) (w : Bool) (reg : RegNum) (rm : RM)
  /-- XOR, 100000sw mm110bbb; immediate: 1 byte if w=0 or s=1 else OS/8 bytes (R313). -/
  | xorRmImm (s : Bool) (w : Bool) (rm : RM) (imm : Imm)
  /-- XOR, 0011010w; immediate: 1 byte if w=0 else OS/8 bytes (R313). -/
  | xorAccImm (w : Bool) (imm : Imm)
  /-- CMP, 001110dw mmrrrbbb (R267). -/
  | cmpRmReg (d : Bool) (w : Bool) (reg : RegNum) (rm : RM)
  /-- CMP, 100000sw mm111bbb; immediate: 1 byte if w=0 or s=1 else OS/8 bytes (R267). -/
  | cmpRmImm (s : Bool) (w : Bool) (rm : RM) (imm : Imm)
  /-- CMP, 0011110w; immediate: 1 byte if w=0 else OS/8 bytes (R267). -/
  | cmpAccImm (w : Bool) (imm : Imm)
  /-- INC, 1111111w mm000bbb (R263). -/
  | incRm (w : Bool) (rm : RM)
  /-- INC, 01000rrr (R263). -/
  | incReg (reg : RegNum)
  /-- DEC, 1111111w mm001bbb (R266). -/
  | decRm (w : Bool) (rm : RM)
  /-- DEC, 01001rrr (R266). -/
  | decReg (reg : RegNum)
  /-- NEG, 1111011w mm011bbb (R268). -/
  | neg (w : Bool) (rm : RM)
  /-- MUL, 1111011w mm100bbb (R273). -/
  | mul (w : Bool) (rm : RM)
  /-- IMUL, 1111011w mm101bbb (R274). -/
  | imulAcc (w : Bool) (rm : RM)
  /-- IMUL, 00001111 10101111 mmrrrbbb (R275). -/
  | imulRegRm (reg : RegNum) (rm : RM)
  /-- IMUL, 011010s1 mmrrrbbb; immediate: 1 byte sign-extended if s=1 else OS/8 bytes (R276). -/
  | imulRegRmImm (s : Bool) (reg : RegNum) (rm : RM) (imm : Imm)
  /-- DIV, 1111011w mm110bbb (R277). -/
  | div (w : Bool) (rm : RM)
  /-- IDIV, 1111011w mm111bbb (R278). -/
  | idiv (w : Bool) (rm : RM)
  /-- ROL, 1101000w mm000bbb or 1101001w mm000bbb or 1100000w mm000bbb (R301). -/
  | rol (w : Bool) (rm : RM) (count : Count)
  /-- ROR, 1101000w mm001bbb or 1101001w mm001bbb or 1100000w mm001bbb (R302). -/
  | ror (w : Bool) (rm : RM) (count : Count)
  /-- RCL, 1101000w mm010bbb or 1101001w mm010bbb or 1100000w mm010bbb (R303). -/
  | rcl (w : Bool) (rm : RM) (count : Count)
  /-- RCR, 1101000w mm011bbb or 1101001w mm011bbb or 1100000w mm011bbb (R304). -/
  | rcr (w : Bool) (rm : RM) (count : Count)
  /-- SHL_SAL, 1101000w mm100bbb or 1101001w mm100bbb or 1100000w mm100bbb (R305). -/
  | shl (w : Bool) (rm : RM) (count : Count)
  /-- SHR, 1101000w mm101bbb or 1101001w mm101bbb or 1100000w mm101bbb (R306). -/
  | shr (w : Bool) (rm : RM) (count : Count)
  /-- SAR, 1101000w mm111bbb or 1101001w mm111bbb or 1100000w mm111bbb (R307). -/
  | sar (w : Bool) (rm : RM) (count : Count)
  /-- SHLD, 00001111 10100100 mmrrrbbb; immediate: 1 byte (R308). -/
  | shldImm (reg : RegNum) (rm : RM) (count : BitVec 8)
  /-- SHLD, 00001111 10100101 mmrrrbbb (R308). -/
  | shldCl (reg : RegNum) (rm : RM)
  /-- SHRD, 00001111 10101100 mmrrrbbb; immediate: 1 byte (R309). -/
  | shrdImm (reg : RegNum) (rm : RM) (count : BitVec 8)
  /-- SHRD, 00001111 10101101 mmrrrbbb (R309). -/
  | shrdCl (reg : RegNum) (rm : RM)
  /-- TEST, 1000010w mmrrrbbb (R311). -/
  | testRmReg (w : Bool) (reg : RegNum) (rm : RM)
  /-- TEST, 1111011w mm000bbb; immediate: 1 byte if w=0 else OS/8 bytes (R311). -/
  | testRmImm (w : Bool) (rm : RM) (imm : Imm)
  /-- TEST, 1010100w; immediate: 1 byte if w=0 else OS/8 bytes (R311). -/
  | testAccImm (w : Bool) (imm : Imm)
  /-- NOT, 1111011w mm010bbb (R314). -/
  | notRm (w : Bool) (rm : RM)
  /-- CMPS, 1010011w (R331). -/
  | cmps (w : Bool)
  /-- INS, 0110110w (R332). -/
  | ins (w : Bool)
  /-- LODS, 1010110w (R333). -/
  | lods (w : Bool)
  /-- MOVS, 1010010w (R334). -/
  | movs (w : Bool)
  /-- OUTS, 0110111w (R335). -/
  | outs (w : Bool)
  /-- SCAS, 1010111w (R336). -/
  | scas (w : Bool)
  /-- STOS, 1010101w (R337). -/
  | stos (w : Bool)
  /-- REPE_CMPS, 11110011 1010011w (R341). -/
  | repeCmps (w : Bool)
  /-- REPNE_CMPS, 11110010 1010011w (R342). -/
  | repneCmps (w : Bool)
  /-- REP_INS, 11110011 0110110w (R343). -/
  | repIns (w : Bool)
  /-- REP_LODS, 11110011 1010110w (R344). -/
  | repLods (w : Bool)
  /-- REP_MOVS, 11110011 1010010w (R345). -/
  | repMovs (w : Bool)
  /-- REP_OUTS, 11110011 0110111w (R346). -/
  | repOuts (w : Bool)
  /-- REPE_SCAS, 11110011 1010111w (R347). -/
  | repeScas (w : Bool)
  /-- REPNE_SCAS, 11110010 1010111w (R348). -/
  | repneScas (w : Bool)
  /-- REP_STOS, 11110011 1010101w (R349). -/
  | repStos (w : Bool)
  /-- BSF, 00001111 10111100 mmrrrbbb (R361). -/
  | bsf (reg : RegNum) (rm : RM)
  /-- BSR, 00001111 10111101 mmrrrbbb (R362). -/
  | bsr (reg : RegNum) (rm : RM)
  /-- BT, 00001111 10111010 mm100bbb; immediate: 1 byte (R363). -/
  | btImm (rm : RM) (bit : BitVec 8)
  /-- BT, 00001111 10100011 mmrrrbbb (R363). -/
  | btReg (reg : RegNum) (rm : RM)
  /-- BTC, 00001111 10111010 mm111bbb; immediate: 1 byte (R364). -/
  | btcImm (rm : RM) (bit : BitVec 8)
  /-- BTC, 00001111 10111011 mmrrrbbb (R364). -/
  | btcReg (reg : RegNum) (rm : RM)
  /-- BTR, 00001111 10111010 mm110bbb; immediate: 1 byte (R365). -/
  | btrImm (rm : RM) (bit : BitVec 8)
  /-- BTR, 00001111 10110011 mmrrrbbb (R365). -/
  | btrReg (reg : RegNum) (rm : RM)
  /-- BTS, 00001111 10111010 mm101bbb; immediate: 1 byte (R366). -/
  | btsImm (rm : RM) (bit : BitVec 8)
  /-- BTS, 00001111 10101011 mmrrrbbb (R366). -/
  | btsReg (reg : RegNum) (rm : RM)
  /-- CALL, 11101000; displacement: OS/8 bytes (R371). -/
  | callNear (disp : Imm)
  /-- CALL, 11111111 mm010bbb (R372). -/
  | callRm (rm : RM)
  /-- CALL, 10011010; offset: OS/8 bytes, selector: 2 bytes (R373). -/
  | callFar (off : Off) (sel : BitVec 16)
  /-- CALL, 11111111 mm011bbb (R374). -/
  | callMemFar (mem : MemOp)
  /-- JMP, 11101011; 8-bit displacement, sign-extended (R375). -/
  | jmpShort (disp : BitVec 8)
  /-- JMP, 11101001; displacement: OS/8 bytes (R376). -/
  | jmpNear (disp : Imm)
  /-- JMP, 11111111 mm100bbb (R377). -/
  | jmpRm (rm : RM)
  /-- JMP, 11101010; offset: OS/8 bytes, selector: 2 bytes (R378). -/
  | jmpFar (off : Off) (sel : BitVec 16)
  /-- JMP, 11111111 mm101bbb (R379). -/
  | jmpMemFar (mem : MemOp)
  /-- RET, 11000010; immediate: 2 bytes (R382). -/
  | retNearImm (count : BitVec 16)
  /-- RET, 11001010; immediate: 2 bytes (R384). -/
  | retFarImm (count : BitVec 16)
  /-- JO, 01110000 or 00001111 10000000 (R387). -/
  | jO (disp : Imm)
  /-- JNO, 01110001 or 00001111 10000001 (R388). -/
  | jNo (disp : Imm)
  /-- JB_JNAE, 01110010 or 00001111 10000010 (R389). -/
  | jB (disp : Imm)
  /-- JNB_JAE, 01110011 or 00001111 10000011 (R390). -/
  | jNb (disp : Imm)
  /-- JE_JZ, 01110100 or 00001111 10000100 (R391). -/
  | jE (disp : Imm)
  /-- JNE_JNZ, 01110101 or 00001111 10000101 (R392). -/
  | jNe (disp : Imm)
  /-- JBE_JNA, 01110110 or 00001111 10000110 (R393). -/
  | jBe (disp : Imm)
  /-- JNBE_JA, 01110111 or 00001111 10000111 (R394). -/
  | jNbe (disp : Imm)
  /-- JS, 01111000 or 00001111 10001000 (R395). -/
  | jS (disp : Imm)
  /-- JNS, 01111001 or 00001111 10001001 (R396). -/
  | jNs (disp : Imm)
  /-- JP_JPE, 01111010 or 00001111 10001010 (R397). -/
  | jP (disp : Imm)
  /-- JNP_JPO, 01111011 or 00001111 10001011 (R398). -/
  | jNp (disp : Imm)
  /-- JL_JNGE, 01111100 or 00001111 10001100 (R399). -/
  | jL (disp : Imm)
  /-- JNL_JGE, 01111101 or 00001111 10001101 (R400). -/
  | jNl (disp : Imm)
  /-- JLE_JNG, 01111110 or 00001111 10001110 (R401). -/
  | jLe (disp : Imm)
  /-- JNLE_JG, 01111111 or 00001111 10001111 (R402). -/
  | jNle (disp : Imm)
  /-- JCXZ_JECXZ, 11100011; 8-bit displacement, sign-extended (R403). -/
  | jcxz (disp : BitVec 8)
  /-- LOOP, 11100010; 8-bit displacement, sign-extended (R404). -/
  | loop (disp : BitVec 8)
  /-- LOOPZ_LOOPE, 11100001; 8-bit displacement, sign-extended (R405). -/
  | loopz (disp : BitVec 8)
  /-- LOOPNZ_LOOPNE, 11100000; 8-bit displacement, sign-extended (R406). -/
  | loopnz (disp : BitVec 8)
  /-- SETO, 00001111 10010000 mmuuubbb (R701). -/
  | setO (mid : BitVec 3) (rm : RM)
  /-- SETNO, 00001111 10010001 mmuuubbb (R702). -/
  | setNo (mid : BitVec 3) (rm : RM)
  /-- SETB_SETNAE, 00001111 10010010 mmuuubbb (R703). -/
  | setB (mid : BitVec 3) (rm : RM)
  /-- SETNB_SETAE, 00001111 10010011 mmuuubbb (R704). -/
  | setNb (mid : BitVec 3) (rm : RM)
  /-- SETE_SETZ, 00001111 10010100 mmuuubbb (R705). -/
  | setE (mid : BitVec 3) (rm : RM)
  /-- SETNE_SETNZ, 00001111 10010101 mmuuubbb (R706). -/
  | setNe (mid : BitVec 3) (rm : RM)
  /-- SETBE_SETNA, 00001111 10010110 mmuuubbb (R707). -/
  | setBe (mid : BitVec 3) (rm : RM)
  /-- SETNBE_SETA, 00001111 10010111 mmuuubbb (R708). -/
  | setNbe (mid : BitVec 3) (rm : RM)
  /-- SETS, 00001111 10011000 mmuuubbb (R709). -/
  | setS (mid : BitVec 3) (rm : RM)
  /-- SETNS, 00001111 10011001 mmuuubbb (R710). -/
  | setNs (mid : BitVec 3) (rm : RM)
  /-- SETP_SETPE, 00001111 10011010 mmuuubbb (R711). -/
  | setP (mid : BitVec 3) (rm : RM)
  /-- SETNP_SETPO, 00001111 10011011 mmuuubbb (R712). -/
  | setNp (mid : BitVec 3) (rm : RM)
  /-- SETL_SETNGE, 00001111 10011100 mmuuubbb (R713). -/
  | setL (mid : BitVec 3) (rm : RM)
  /-- SETNL_SETGE, 00001111 10011101 mmuuubbb (R714). -/
  | setNl (mid : BitVec 3) (rm : RM)
  /-- SETLE_SETNG, 00001111 10011110 mmuuubbb (R715). -/
  | setLe (mid : BitVec 3) (rm : RM)
  /-- SETNLE_SETG, 00001111 10011111 mmuuubbb (R716). -/
  | setNle (mid : BitVec 3) (rm : RM)
  /-- ENTER, 11001000; frame size: 2 bytes, level: 1 byte (R407). -/
  | enter (frame : BitVec 16) (level : BitVec 8)
  /-- INT, 11001101; type: 1 byte (R409). -/
  | intN (typ : BitVec 8)
  /-- BOUND, 01100010 mmrrrbbb (R412). -/
  | bound (reg : RegNum) (mem : MemOp)
  /-- MOV, 00001111 00100010 11eeerrr (R428). -/
  | movToCr (cr : CrNum) (reg : RegNum)
  /-- MOV, 00001111 00100000 11eeerrr (R429). -/
  | movFromCr (cr : CrNum) (reg : RegNum)
  /-- MOV, 00001111 00100011 11eeerrr (R430). -/
  | movToDr (dr : DrNum) (reg : RegNum)
  /-- MOV, 00001111 00100001 11eeerrr (R431). -/
  | movFromDr (dr : DrNum) (reg : RegNum)
  /-- MOV, 00001111 00100110 11eeerrr (R432). -/
  | movToTr (tr : TrNum) (reg : RegNum)
  /-- MOV, 00001111 00100100 11eeerrr (R433). -/
  | movFromTr (tr : TrNum) (reg : RegNum)
  /-- ESC, 11011xxx mmyyybbb (R424). -/
  | esc (ttt : BitVec 3) (lll : BitVec 3) (rm : RM)
  /-- ARPL, 01100011 mmrrrbbb (R436). -/
  | arpl (reg : RegNum) (rm : RM)
  /-- LAR, 00001111 00000010 mmrrrbbb (R437). -/
  | lar (reg : RegNum) (rm : RM)
  /-- LGDT, 00001111 00000001 mm010bbb (R438). -/
  | lgdt (mem : MemOp)
  /-- LIDT, 00001111 00000001 mm011bbb (R439). -/
  | lidt (mem : MemOp)
  /-- LLDT, 00001111 00000000 mm010bbb (R440). -/
  | lldt (rm : RM)
  /-- LMSW, 00001111 00000001 mm110bbb (R441). -/
  | lmsw (rm : RM)
  /-- LSL, 00001111 00000011 mmrrrbbb (R442). -/
  | lsl (reg : RegNum) (rm : RM)
  /-- LTR, 00001111 00000000 mm011bbb (R443). -/
  | ltr (rm : RM)
  /-- SGDT, 00001111 00000001 mm000bbb (R444). -/
  | sgdt (mem : MemOp)
  /-- SIDT, 00001111 00000001 mm001bbb (R445). -/
  | sidt (mem : MemOp)
  /-- SLDT, 00001111 00000000 mm000bbb (R446). -/
  | sldt (rm : RM)
  /-- SMSW, 00001111 00000001 mm100bbb (R447). -/
  | smsw (rm : RM)
  /-- STR, 00001111 00000000 mm001bbb (R448). -/
  | str (rm : RM)
  /-- VERR, 00001111 00000000 mm100bbb (R449). -/
  | verr (rm : RM)
  /-- VERW, 00001111 00000000 mm101bbb (R450). -/
  | verw (rm : RM)
  /-- BSWAP, 00001111 11001rrr (R571). -/
  | bswap (reg : RegNum)
  /-- CMPXCHG, 00001111 1011000w mmrrrbbb (R572). -/
  | cmpxchg (w : Bool) (reg : RegNum) (rm : RM)
  /-- XADD, 00001111 1100000w mmrrrbbb (R573). -/
  | xadd (w : Bool) (reg : RegNum) (rm : RM)
  /-- INVLPG, 00001111 00000001 mm111bbb (R576). -/
  | invlpg (mem : MemOp)
  /-- FLD, 11011001 mm000bbb or 11011101 mm000bbb (R483). -/
  | fldMem (dbl : Bool) (mem : MemOp)
  /-- FILD, 11011011 mm000bbb or 11011111 mm000bbb (R483). -/
  | fild (word : Bool) (mem : MemOp)
  /-- FILD, 11011111 mm101bbb (R484). -/
  | fildM64 (mem : MemOp)
  /-- FLD, 11011011 mm101bbb (R485). -/
  | fldM80 (mem : MemOp)
  /-- FBLD, 11011111 mm100bbb (R486). -/
  | fbld (mem : MemOp)
  /-- FLD, 11011001 11000iii (R487). -/
  | fldSt (i : BitVec 3)
  /-- FST, 11011001 mm010bbb or 11011101 mm010bbb (R488). -/
  | fstMem (dbl : Bool) (mem : MemOp)
  /-- FIST, 11011011 mm010bbb or 11011111 mm010bbb (R488). -/
  | fist (word : Bool) (mem : MemOp)
  /-- FST, 11011101 11010iii (R489). -/
  | fstSt (i : BitVec 3)
  /-- FSTP, 11011001 mm011bbb or 11011101 mm011bbb (R490). -/
  | fstpMem (dbl : Bool) (mem : MemOp)
  /-- FISTP, 11011011 mm011bbb or 11011111 mm011bbb (R490). -/
  | fistp (word : Bool) (mem : MemOp)
  /-- FISTP, 11011111 mm111bbb (R491). -/
  | fistpM64 (mem : MemOp)
  /-- FSTP, 11011011 mm111bbb (R492). -/
  | fstpM80 (mem : MemOp)
  /-- FBSTP, 11011111 mm110bbb (R493). -/
  | fbstp (mem : MemOp)
  /-- FSTP, 11011101 11011iii (R494). -/
  | fstpSt (i : BitVec 3)
  /-- FXCH, 11011001 11001iii (R495). -/
  | fxch (i : BitVec 3)
  /-- FCOM, 11011000 mm010bbb or 11011100 mm010bbb (R496). -/
  | fcomMem (dbl : Bool) (mem : MemOp)
  /-- FICOM, 11011010 mm010bbb or 11011110 mm010bbb (R496). -/
  | ficom (word : Bool) (mem : MemOp)
  /-- FCOM, 11011000 11010iii (R497). -/
  | fcomSt (i : BitVec 3)
  /-- FCOMP, 11011000 mm011bbb or 11011100 mm011bbb (R498). -/
  | fcompMem (dbl : Bool) (mem : MemOp)
  /-- FICOMP, 11011010 mm011bbb or 11011110 mm011bbb (R498). -/
  | ficomp (word : Bool) (mem : MemOp)
  /-- FCOMP, 11011000 11011iii (R499). -/
  | fcompSt (i : BitVec 3)
  /-- FUCOM, 11011101 11100iii (R501). -/
  | fucom (i : BitVec 3)
  /-- FUCOMP, 11011101 11101iii (R502). -/
  | fucomp (i : BitVec 3)
  /-- FADD, 11011000 mm000bbb or 11011100 mm000bbb (R514). -/
  | faddMem (dbl : Bool) (mem : MemOp)
  /-- FIADD, 11011010 mm000bbb or 11011110 mm000bbb (R514). -/
  | fiadd (word : Bool) (mem : MemOp)
  /-- FADD, 11011000 11000iii or 11011100 11000iii (R515). -/
  | faddSt (d : Bool) (i : BitVec 3)
  /-- FADDP, 11011110 11000iii (R515). -/
  | faddp (i : BitVec 3)
  /-- FSUB, 11011000 mm100bbb or 11011100 mm100bbb (R516). -/
  | fsubMem (dbl : Bool) (mem : MemOp)
  /-- FSUBR, 11011000 mm101bbb or 11011100 mm101bbb (R516). -/
  | fsubrMem (dbl : Bool) (mem : MemOp)
  /-- FISUB, 11011010 mm100bbb or 11011110 mm100bbb (R516). -/
  | fisub (word : Bool) (mem : MemOp)
  /-- FISUBR, 11011010 mm101bbb or 11011110 mm101bbb (R516). -/
  | fisubr (word : Bool) (mem : MemOp)
  /-- FSUB, 11011000 11100iii or 11011100 11101iii (R517). -/
  | fsubSt (d : Bool) (i : BitVec 3)
  /-- FSUBR, 11011000 11101iii or 11011100 11100iii (R517). -/
  | fsubrSt (d : Bool) (i : BitVec 3)
  /-- FSUBRP, 11011110 11100iii (R517). -/
  | fsubrp (i : BitVec 3)
  /-- FSUBP, 11011110 11101iii (R517). -/
  | fsubp (i : BitVec 3)
  /-- FMUL, 11011000 mm001bbb or 11011100 mm001bbb (R518). -/
  | fmulMem (dbl : Bool) (mem : MemOp)
  /-- FIMUL, 11011010 mm001bbb or 11011110 mm001bbb (R518). -/
  | fimul (word : Bool) (mem : MemOp)
  /-- FMUL, 11011000 11001iii or 11011100 11001iii (R519). -/
  | fmulSt (d : Bool) (i : BitVec 3)
  /-- FMULP, 11011110 11001iii (R519). -/
  | fmulp (i : BitVec 3)
  /-- FDIV, 11011000 mm110bbb or 11011100 mm110bbb (R520). -/
  | fdivMem (dbl : Bool) (mem : MemOp)
  /-- FDIVR, 11011000 mm111bbb or 11011100 mm111bbb (R520). -/
  | fdivrMem (dbl : Bool) (mem : MemOp)
  /-- FIDIV, 11011010 mm110bbb or 11011110 mm110bbb (R520). -/
  | fidiv (word : Bool) (mem : MemOp)
  /-- FIDIVR, 11011010 mm111bbb or 11011110 mm111bbb (R520). -/
  | fidivr (word : Bool) (mem : MemOp)
  /-- FDIV, 11011000 11110iii or 11011100 11111iii (R521). -/
  | fdivSt (d : Bool) (i : BitVec 3)
  /-- FDIVR, 11011000 11111iii or 11011100 11110iii (R521). -/
  | fdivrSt (d : Bool) (i : BitVec 3)
  /-- FDIVRP, 11011110 11110iii (R521). -/
  | fdivrp (i : BitVec 3)
  /-- FDIVP, 11011110 11111iii (R521). -/
  | fdivp (i : BitVec 3)
  /-- FLDCW, 11011001 mm101bbb (R541). -/
  | fldcw (mem : MemOp)
  /-- FSTCW__FNSTCW, 11011001 mm111bbb (R542). -/
  | fstcw (mem : MemOp)
  /-- FSTSW__FNSTSW, 11011101 mm111bbb (R543). -/
  | fstsw (mem : MemOp)
  /-- FSTENV__FNSTENV, 11011001 mm110bbb (R545). -/
  | fstenv (mem : MemOp)
  /-- FLDENV, 11011001 mm100bbb (R546). -/
  | fldenv (mem : MemOp)
  /-- FSAVE__FNSAVE, 11011101 mm110bbb (R547). -/
  | fsave (mem : MemOp)
  /-- FRSTOR, 11011101 mm100bbb (R548). -/
  | frstor (mem : MemOp)
  /-- FFREE, 11011101 11000iii (R551). -/
  | ffree (i : BitVec 3)
  /-- LOCK, 11110000 (R427). -/
  | lockPrefix
  /-- REPNE_REPNZ, 11110010 (R340). -/
  | repnePrefix
  /-- REP_REPE_REPZ, 11110011 (R340). -/
  | repPrefix
  /-- ES:, 00100110 (R434). -/
  | esPrefix
  /-- CS:, 00101110 (R434). -/
  | csPrefix
  /-- SS:, 00110110 (R434). -/
  | ssPrefix
  /-- DS:, 00111110 (R434). -/
  | dsPrefix
  /-- FS:, 01100100 (R434). -/
  | fsPrefix
  /-- GS:, 01100101 (R434). -/
  | gsPrefix
  /-- operand_size, 01100110 (R426). -/
  | opSizePrefix
  /-- address_size, 01100111 (R425). -/
  | addrSizePrefix
  /-- PUSH, 00001111 10100000 (R210). -/
  | pushFs
  /-- PUSH, 00001111 10101000 (R210). -/
  | pushGs
  /-- PUSHA, 01100000 (R212). -/
  | pusha
  /-- POP, 00000111 (R215). -/
  | popEs
  /-- POP, 00010111 (R215). -/
  | popSs
  /-- POP, 00011111 (R215). -/
  | popDs
  /-- POP, 00001111 10100001 (R215). -/
  | popFs
  /-- POP, 00001111 10101001 (R215). -/
  | popGs
  /-- POPA, 01100001 (R216). -/
  | popa
  /-- CLC, 11111000 (R240). -/
  | clc
  /-- CLD, 11111100 (R241). -/
  | cld
  /-- CLI, 11111010 (R242). -/
  | cli
  /-- CLTS, 00001111 00000110 (R243). -/
  | clts
  /-- CMC, 11110101 (R244). -/
  | cmc
  /-- LAHF, 10011111 (R245). -/
  | lahf
  /-- POPF, 10011101 (R246). -/
  | popf
  /-- PUSHF, 10011100 (R247). -/
  | pushf
  /-- SAHF, 10011110 (R248). -/
  | sahf
  /-- STC, 11111001 (R249). -/
  | stc
  /-- STD, 11111101 (R250). -/
  | std
  /-- STI, 11111011 (R251). -/
  | sti
  /-- AAA, 00110111 (R269). -/
  | aaa
  /-- AAS, 00111111 (R270). -/
  | aas
  /-- DAA, 00100111 (R271). -/
  | daa
  /-- DAS, 00101111 (R272). -/
  | das
  /-- AAD, 11010101 00001010 (R279). -/
  | aad
  /-- AAM, 11010100 00001010 (R280). -/
  | aam
  /-- CBW, 10011000 (R281). -/
  | cbw
  /-- CWD, 10011001 (R282). -/
  | cwd
  /-- XLAT, 11010111 (R338). -/
  | xlat
  /-- RET, 11000011 (R381). -/
  | retNear
  /-- RET, 11001011 (R383). -/
  | retFar
  /-- LEAVE, 11001001 (R408). -/
  | leave
  /-- INT_3, 11001100 (R410). -/
  | int3
  /-- INTO, 11001110 (R411). -/
  | into
  /-- IRET, 11001111 (R413). -/
  | iret
  /-- HLT, 11110100 (R420). -/
  | hlt
  /-- NOP, 10010000 (R422). -/
  | nop
  /-- WAIT, 10011011 (R423). -/
  | wait
  /-- INVD, 00001111 00001000 (R574). -/
  | invd
  /-- WBINVD, 00001111 00001001 (R575). -/
  | wbinvd
  /-- FCOMPP, 11011110 11011001 (R500). -/
  | fcompp
  /-- FUCOMPP, 11011010 11101001 (R503). -/
  | fucompp
  /-- FTST, 11011001 11100100 (R504). -/
  | ftst
  /-- FXAM, 11011001 11100101 (R505). -/
  | fxam
  /-- FLDZ, 11011001 11101110 (R507). -/
  | fldz
  /-- FLD1, 11011001 11101000 (R508). -/
  | fld1
  /-- FLDPI, 11011001 11101011 (R509). -/
  | fldpi
  /-- FLDL2T, 11011001 11101001 (R510). -/
  | fldl2t
  /-- FLDL2E, 11011001 11101010 (R511). -/
  | fldl2e
  /-- FLDLG2, 11011001 11101100 (R512). -/
  | fldlg2
  /-- FLDLN2, 11011001 11101101 (R513). -/
  | fldln2
  /-- FSQRT, 11011001 11111010 (R522). -/
  | fsqrt
  /-- FSCALE, 11011001 11111101 (R523). -/
  | fscale
  /-- FPREM, 11011001 11111000 (R524). -/
  | fprem
  /-- FPREM1, 11011001 11110101 (R525). -/
  | fprem1
  /-- FRNDINT, 11011001 11111100 (R526). -/
  | frndint
  /-- FXTRACT, 11011001 11110100 (R527). -/
  | fxtract
  /-- FABS, 11011001 11100001 (R528). -/
  | fabs
  /-- FCHS, 11011001 11100000 (R529). -/
  | fchs
  /-- FPTAN, 11011001 11110010 (R530). -/
  | fptan
  /-- FPATAN, 11011001 11110011 (R531). -/
  | fpatan
  /-- FSIN, 11011001 11111110 (R532). -/
  | fsin
  /-- FCOS, 11011001 11111111 (R533). -/
  | fcos
  /-- FSINCOS, 11011001 11111011 (R534). -/
  | fsincos
  /-- F2XM1, 11011001 11110000 (R535). -/
  | f2xm1
  /-- FYL2X, 11011001 11110001 (R536). -/
  | fyl2x
  /-- FYL2XP1, 11011001 11111001 (R537). -/
  | fyl2xp1
  /-- FSETPM, 11011011 11100100 (R538). -/
  | fsetpm
  /-- FINIT__FNINIT, 11011011 11100011 (R539). -/
  | finit
  /-- FSTSW_AX__FNSTSW_AX, 11011111 11100000 (R540). -/
  | fstswAx
  /-- FCLEX__FNCLEX, 11011011 11100010 (R544). -/
  | fclex
  /-- FINCSTP, 11011001 11110111 (R549). -/
  | fincstp
  /-- FDECSTP, 11011001 11110110 (R550). -/
  | fdecstp
  /-- FNOP, 11011001 11010000 (R553). -/
  | fnop
deriving DecidableEq, Repr

end Sys2Proof
end

