-- ==== Sys2Proof/Machine/State.lean ====
section
/-! DEFINITION. The state of the machine: every piece of state 10_state.md names, the parameters of the run, the
platform's inputs and outputs, and the reasons a step stops. Plain data. -/

namespace Sys2Proof.Machine

/-- Eight like things numbered 0 to 7: the general registers, the coprocessor registers, their tags. -/
structure Oct (α : Type) where
  r0 : α
  r1 : α
  r2 : α
  r3 : α
  r4 : α
  r5 : α
  r6 : α
  r7 : α
deriving DecidableEq, Repr

/-- Element `i` of eight. -/
def Oct.get {α : Type} (o : Oct α) (i : BitVec 3) : α :=
  match i.toNat with
  | 0 => o.r0
  | 1 => o.r1
  | 2 => o.r2
  | 3 => o.r3
  | 4 => o.r4
  | 5 => o.r5
  | 6 => o.r6
  | _ => o.r7

/-- Replace element `i` of eight. -/
def Oct.set {α : Type} (o : Oct α) (i : BitVec 3) (v : α) : Oct α :=
  match i.toNat with
  | 0 => { o with r0 := v }
  | 1 => { o with r1 := v }
  | 2 => { o with r2 := v }
  | 3 => { o with r3 := v }
  | 4 => { o with r4 := v }
  | 5 => { o with r5 := v }
  | 6 => { o with r6 := v }
  | _ => { o with r7 := v }

/-- Eight times the same thing. -/
def Oct.all {α : Type} (v : α) : Oct α := ⟨v, v, v, v, v, v, v, v⟩

/-- A segment register with its hidden part (R26, R27): selector; base; limit after granularity scaling (R93); the
access-rights byte (R89); the D or B bit; the G bit; whether it is usable (R87). LDTR and TR have the same parts
(R38). -/
structure SegReg where
  sel : BitVec 16
  base : BitVec 32
  limit : BitVec 32
  access : BitVec 8
  db : Bool
  g : Bool
  usable : Bool
deriving DecidableEq, Repr

/-- The six segment registers (R26). -/
structure SegRegs where
  es : SegReg
  cs : SegReg
  ss : SegReg
  ds : SegReg
  fs : SegReg
  gs : SegReg
deriving DecidableEq, Repr

/-- The flag register (R28) without its fixed bits. -/
structure Flags where
  cf : Bool
  pf : Bool
  af : Bool
  zf : Bool
  sf : Bool
  tf : Bool
  /-- IF, interrupt enable. -/
  ie : Bool
  df : Bool
  /-- OF, overflow. -/
  ovf : Bool
  iopl : BitVec 2
  nt : Bool
  rf : Bool
  vm : Bool
  ac : Bool
deriving DecidableEq, Repr

/-- Control Register 0, whose low half is the machine status word (R31), without its reserved bits (U8). -/
structure Cr0 where
  pe : Bool
  mp : Bool
  em : Bool
  ts : Bool
  et : Bool
  ne : Bool
  wp : Bool
  am : Bool
  nw : Bool
  cd : Bool
  pg : Bool
deriving DecidableEq, Repr

/-- GDTR or IDTR (R38). -/
structure TableReg where
  base : BitVec 32
  limit : BitVec 16
deriving DecidableEq, Repr

/-- The control, debug, test and table registers (R31 to R38) and the current privilege level (R39: meaningful in
protected mode outside virtual-8086 mode; elsewhere the mode gives it, log entry 21). -/
structure Sys where
  cr0 : Cr0
  cr2 : BitVec 32
  cr3 : BitVec 32
  gdtr : TableReg
  idtr : TableReg
  ldtr : SegReg
  tr : SegReg
  dr0 : BitVec 32
  dr1 : BitVec 32
  dr2 : BitVec 32
  dr3 : BitVec 32
  dr6 : BitVec 32
  dr7 : BitVec 32
  tr6 : BitVec 32
  tr7 : BitVec 32
  cpl : BitVec 2
deriving DecidableEq, Repr

/-- The status word of the coprocessor (R41); bit 15 is a copy of ES or of the busy latch and no state. -/
structure FpuStatus where
  ie : Bool
  de : Bool
  ze : Bool
  oe : Bool
  ue : Bool
  pe : Bool
  sf : Bool
  es : Bool
  c0 : Bool
  c1 : Bool
  c2 : Bool
  c3 : Bool
  top : BitVec 3
deriving DecidableEq, Repr

/-- The tag of a coprocessor register (R43). -/
inductive Tag where
  | valid | zero | special | empty
deriving DecidableEq, Repr

/-- A coprocessor pointer (R44): selector and offset, or the 20-bit linear address in the offset when it was saved
in real-address or virtual-8086 mode (log entry 33). -/
structure FarPtr where
  sel : BitVec 16
  off : BitVec 32
deriving DecidableEq, Repr

/-- The coprocessor (R40 to R45). -/
structure Fpu where
  cw : BitVec 16
  status : FpuStatus
  regs : Oct (BitVec 80)
  tags : Oct Tag
  fip : FarPtr
  fdp : FarPtr
  fop : BitVec 11
  /-- NPX287.pm (R45). -/
  pm287 : Bool
deriving DecidableEq, Repr

/-- The signals between the processors (R46 (d), R641): the latch that holds 'busy', and the request on IRQ 13. -/
structure NpxLink where
  busyLatch : Bool
  irq13 : Bool
deriving DecidableEq, Repr

/-- A cached translation (R106): linear page, frame, the combined U/S and R/W, and the cached D. -/
structure TlbEntry where
  page : BitVec 20
  frame : BitVec 20
  user : Bool
  writable : Bool
  dirty : Bool
deriving DecidableEq, Repr

/-- The instruction in progress (R131, R132): how many of its bytes are fetched, and its prefixes; `rep` is the z
bit of the repeat prefix. The model's own form (log entry 10). -/
structure Cur where
  len : Nat
  lock : Bool
  rep : Option Bool
  seg : Option SReg
  opSize : Bool
  adSize : Bool
deriving DecidableEq, Repr

/-- No instruction is in progress. -/
def Cur.start : Cur := ⟨0, false, none, none, false, false⟩

/-- Running, halted (R420), or in shutdown (R604, R685). -/
inductive Activity where
  | running | halted | shutdown
deriving DecidableEq, Repr

/-- The interrupt-inhibit shadow (R46 (e), R620): after STI, or after a load of SS. -/
inductive Shadow where
  | none | sti | ss
deriving DecidableEq, Repr

/-- What the instruction boundary looks at (R46, R605, R618, R620, R635). `prevShadow` is the shadow in which the
instruction now executing started; `trapHeld` is a single-step trap whose delivery raised an exception and which recurs
when that one's handler returns (R604, log entry 80). -/
structure Ctl where
  activity : Activity
  shadow : Shadow
  prevShadow : Shadow
  nmiBlocked : Bool
  nmiPending : Bool
  dbPending : Bool
  trapHeld : Bool
deriving DecidableEq, Repr

/-- One output of a run (D6): a port write, or a write to a device in the memory space (D19). -/
inductive IoEvent where
  | port (port : BitVec 16) (w : Width) (v : BitVec 32)
  | device (addr : Nat) (v : BitVec 8)
deriving DecidableEq, Repr

/-- The platform (D6, D10): the streams still to be sampled, and what was written. An exhausted stream yields
nothing more (log entries 12, 14, 25). -/
structure Env where
  /-- NMI (D10), one value an instruction boundary. -/
  nmiIn : List Bool
  /-- IRQ (D10), one value a boundary at which maskable interrupts are recognised. -/
  irqIn : List (Option (BitVec 8))
  /-- What the next port reads find; after it the oracle `Config.ioRead` answers. -/
  ioIn : List (BitVec 32)
  /-- Whether the translation buffer drops the entry a translation would use (R106). -/
  tlbEvict : List Bool
  /-- How many device reads there were: the k of IO_READ. -/
  ioReads : Nat
  /-- The output trace, newest first. -/
  ioOut : List IoEvent
deriving DecidableEq, Repr

/-- The whole machine. `stored` lists the bytes stored since the last taken control transfer with the values they
had before (R117, D13). `draws` counts the undefined values drawn (D9): the model's own field (log entry 8). -/
structure State where
  cfg : Config
  gpr : Oct (BitVec 32)
  eip : BitVec 32
  segs : SegRegs
  flags : Flags
  sys : Sys
  fpu : Fpu
  link : NpxLink
  mem : List Host.Cell
  tlb : List TlbEntry
  stored : List Host.Cell
  cur : Cur
  ctl : Ctl
  env : Env
  draws : Nat
deriving DecidableEq, Repr

/-- Why the machine stops with a fault. -/
inductive Fault where
  /-- Raised by the step of a machine in shutdown (R604, R685: the model treats it as terminal). Safe: a real
  80386 or 80486 could be woken by NMI. -/
  | shutdown
  /-- Raised by the step of a halted machine that nothing can wake any more: the normal end of a run (D5, R686).
  Safe: the hardware would stay halted. -/
  | endOfRun
  /-- Raised where the processor waits for 'busy' (R423, R641) and no interrupt can come to clear it: it would wait
  for ever. Safe. -/
  | deadlock
  /-- Raised when a chain of exceptions during delivery does not settle within the model's bound (log entry 18).
  Safe: the hardware would go on. -/
  | deliveryLoop
deriving DecidableEq, Repr

/-- Why the model gives no meaning: the spec's `refuse` (R11), one name each. All are safe: nothing is claimed. -/
inductive Refusal where
  /-- Raised by an arm of `exec` whose instruction has no meaning yet. -/
  | notModelled (mnemonic : String)
  /-- An unlisted encoding that parts execute as something undocumented (R165, R168, R152, D21): raised by the
  fetch. -/
  | undocumentedEncoding
  /-- A coprocessor encoding in neither listing, on an external coprocessor (R552, D21): raised by ESC. -/
  | unassignedEscape
  /-- A far transfer through a call gate, a task gate or to a task state segment (R380, D12): raised by the far
  transfers. -/
  | callGateOrTask
  /-- An interrupt through a task gate (R612, D12): raised by delivery. -/
  | taskGate
  /-- An 80286 gate entered from virtual-8086 mode (R612, D12): raised by delivery. -/
  | gate16FromV86
  /-- IRET with NT = 1 (R413, D12): raised by IRET. -/
  | nestedTaskReturn
  /-- A write to DR7 that arms a breakpoint (R430, D16): raised by MOV to DR7. -/
  | armBreakpoint
  /-- A write to CR0 that sets CD = 1 and NW = 1 (R428, D20): raised by MOV to CR0. -/
  | cacheWriteThroughOff
  /-- An access to a coprocessor port that R643 refuses: raised by the I/O instructions. -/
  | coprocessorPort
deriving DecidableEq, Repr

/-- The segment register content R50 gives for data: selector 0, base 0, limit FFFF, present, writable. -/
def SegReg.resetData : SegReg := ⟨0#16, 0#32, 0xFFFF#32, 0x93#8, false, false, true⟩

/-- CS after reset (R50): selector F000, base at the top of the physical space minus 64KB. -/
def SegReg.resetCode (cpu : Cpu) : SegReg :=
  { sel := 0xF000#16
    base := if cpu = .p286 then 0x00FF0000#32 else 0xFFFF0000#32
    limit := 0xFFFF#32
    access := 0x9B#8
    db := false
    g := false
    usable := true }

/-- LDTR and TR after reset: the spec gives no value. DESIGN CHOICE (log entry 4). -/
def SegReg.resetNone : SegReg := ⟨0#16, 0#32, 0#32, 0#8, false, false, false⟩

/-- The flags after reset: hex 2 (R50). -/
def Flags.reset : Flags :=
  { cf := false, pf := false, af := false, zf := false, sf := false, tf := false, ie := false, df := false,
    ovf := false, iopl := 0#2, nt := false, rf := false, vm := false, ac := false }

/-- CR0 after reset (R50): on the 80486 hex 60000010; on the 80386 ET tells whether an 80387 is fitted. -/
def Cr0.reset (c : Config) : Cr0 :=
  { pe := false, mp := false, em := false, ts := false
    et := c.cpu = .p486 ∨ (c.cpu = .p386 ∧ c.npx = .n387)
    ne := false, wp := false, am := false
    nw := c.cpu = .p486, cd := c.cpu = .p486, pg := false }

/-- The system registers after reset (R50); CR2, CR3, GDTR, LDTR, TR, DR0 to DR3, DR6, TR6, TR7: log entry 4. -/
def Sys.reset (c : Config) : Sys :=
  { cr0 := Cr0.reset c
    cr2 := 0#32, cr3 := 0#32
    gdtr := ⟨0#32, 0#16⟩
    idtr := ⟨0#32, 0x03FF#16⟩
    ldtr := SegReg.resetNone, tr := SegReg.resetNone
    dr0 := 0#32, dr1 := 0#32, dr2 := 0#32, dr3 := 0#32, dr6 := 0#32, dr7 := 0#32
    tr6 := 0#32, tr7 := 0#32, cpl := 0#2 }

/-- The coprocessor after reset (R50): on the 80387 IE and ES are set; the pointers, the registers and the 80486's
whole unit: log entry 5. -/
def Fpu.reset (c : Config) : Fpu :=
  { cw := 0x037F#16
    status :=
      { ie := c.npx = .n387, de := false, ze := false, oe := false, ue := false, pe := false, sf := false
        es := c.npx = .n387, c0 := false, c1 := false, c2 := false, c3 := false, top := 0#3 }
    regs := Oct.all 0#80
    tags := Oct.all .empty
    fip := ⟨0#16, 0#32⟩, fdp := ⟨0#16, 0#32⟩, fop := 0#11
    pm287 := false }

/-- EDX after reset (R50): DH the component identifier, the rest DESIGN CHOICE 0 (log entry 3). -/
def resetEdx (cpu : Cpu) : BitVec 32 :=
  match cpu with
  | .p286 => 0#32
  | .p386 => 0x300#32
  | .p486 => 0x400#32

/-- The machine right after reset, for any parameters (R50, R51, R661). -/
def State.resetFor (c : Config) : State :=
  { cfg := c
    gpr := { Oct.all 0#32 with r2 := resetEdx c.cpu }
    eip := 0xFFF0#32
    segs :=
      { es := SegReg.resetData, cs := SegReg.resetCode c.cpu, ss := SegReg.resetData
        ds := SegReg.resetData, fs := SegReg.resetData, gs := SegReg.resetData }
    flags := Flags.reset
    sys := Sys.reset c
    fpu := Fpu.reset c
    link := ⟨false, false⟩
    mem := []
    tlb := []
    stored := []
    cur := Cur.start
    ctl := ⟨.running, .none, .none, false, false, false, false⟩
    env := ⟨[], [], [], [], 0, []⟩
    draws := 0 }

/-- The machine right after reset: the 80486 of log entry 1. -/
def State.reset : State := State.resetFor Config.default486

/-! Named updates, one a field, so that no proof unfolds a record update (their lemmas: Sys2Proof/Laws/State.lean). -/

def State.setGpr (s : State) (v : Oct (BitVec 32)) : State := { s with gpr := v }
def State.setEip (s : State) (v : BitVec 32) : State := { s with eip := v }
def State.setSegs (s : State) (v : SegRegs) : State := { s with segs := v }
def State.setFlags (s : State) (v : Flags) : State := { s with flags := v }
def State.setSys (s : State) (v : Sys) : State := { s with sys := v }
def State.setFpu (s : State) (v : Fpu) : State := { s with fpu := v }
def State.setLink (s : State) (v : NpxLink) : State := { s with link := v }
def State.setMem (s : State) (v : List Host.Cell) : State := { s with mem := v }
def State.setTlb (s : State) (v : List TlbEntry) : State := { s with tlb := v }
def State.setStored (s : State) (v : List Host.Cell) : State := { s with stored := v }
def State.setCur (s : State) (v : Cur) : State := { s with cur := v }
def State.setCtl (s : State) (v : Ctl) : State := { s with ctl := v }
def State.setEnv (s : State) (v : Env) : State := { s with env := v }
def State.setDraws (s : State) (v : Nat) : State := { s with draws := v }

end Sys2Proof.Machine
end

