-- ==== Sys2Proof/Machine/Bits.lean ====
section
/-! DEFINITION. Byte order, bit fields and the word views of the registers that the state keeps field by field. -/

namespace Sys2Proof.Machine

/-- The number little-endian bytes stand for (R74). -/
def leNat : List Byte → Nat
  | [] => 0
  | b :: rest => b.toNat + 256 * leNat rest

/-- The `n` little-endian bytes of a number (R74). -/
def leBytes : (n : Nat) → Nat → List Byte
  | 0, _ => []
  | n + 1, v => BitVec.ofNat 8 v :: leBytes n (v / 256)

/-- A value of `n` bits from little-endian bytes (R71). -/
def leVal (n : Nat) (bs : List Byte) : BitVec n := BitVec.ofNat n (leNat bs)

/-- Bit `i` of a value (R6). -/
def bitOf {n : Nat} (v : BitVec n) (i : Nat) : Bool := v.getLsbD i

/-- A number with at most one bit: `b` at place `i`. -/
def place (n : Nat) (b : Bool) (i : Nat) : BitVec n := if b then BitVec.ofNat n (2 ^ i) else 0#n

/-- The parity flag of a result: its low eight bits hold an even number of ones (R28). -/
def parity8 (b : BitVec 8) : Bool :=
  !(bitOf b 0 ^^ bitOf b 1 ^^ bitOf b 2 ^^ bitOf b 3 ^^ bitOf b 4 ^^ bitOf b 5 ^^ bitOf b 6 ^^ bitOf b 7)

/-- The flag register as a word, with its fixed bits (R28). On the 80286 bits 31:16 do not exist and stay clear in
the state. -/
def Flags.word (f : Flags) : BitVec 32 :=
  place 32 f.cf 0 ||| place 32 true 1 ||| place 32 f.pf 2 ||| place 32 f.af 4 ||| place 32 f.zf 6 |||
  place 32 f.sf 7 ||| place 32 f.tf 8 ||| place 32 f.ie 9 ||| place 32 f.df 10 ||| place 32 f.ovf 11 |||
  (f.iopl.setWidth 32 <<< 12) ||| place 32 f.nt 14 ||| place 32 f.rf 16 ||| place 32 f.vm 17 |||
  place 32 f.ac 18

/-- The flags a word holds (R28). -/
def Flags.ofWord (v : BitVec 32) : Flags :=
  { cf := bitOf v 0, pf := bitOf v 2, af := bitOf v 4, zf := bitOf v 6, sf := bitOf v 7, tf := bitOf v 8
    ie := bitOf v 9, df := bitOf v 10, ovf := bitOf v 11, iopl := v.extractLsb' 12 2, nt := bitOf v 14
    rf := bitOf v 16, vm := bitOf v 17, ac := bitOf v 18 }

/-- The defined bits of CR0 (R31). -/
def Cr0.word (c : Cr0) : BitVec 32 :=
  place 32 c.pe 0 ||| place 32 c.mp 1 ||| place 32 c.em 2 ||| place 32 c.ts 3 ||| place 32 c.et 4 |||
  place 32 c.ne 5 ||| place 32 c.wp 16 ||| place 32 c.am 18 ||| place 32 c.nw 29 ||| place 32 c.cd 30 |||
  place 32 c.pg 31

/-- The status word (R41) with bit 15 given. -/
def FpuStatus.word (f : FpuStatus) (b : Bool) : BitVec 16 :=
  place 16 f.ie 0 ||| place 16 f.de 1 ||| place 16 f.ze 2 ||| place 16 f.oe 3 ||| place 16 f.ue 4 |||
  place 16 f.pe 5 ||| place 16 f.sf 6 ||| place 16 f.es 7 ||| place 16 f.c0 8 ||| place 16 f.c1 9 |||
  place 16 f.c2 10 ||| (f.top.setWidth 16 <<< 11) ||| place 16 f.c3 14 ||| place 16 b 15

/-- The status a word holds (R41). -/
def FpuStatus.ofWord (v : BitVec 16) : FpuStatus :=
  { ie := bitOf v 0, de := bitOf v 1, ze := bitOf v 2, oe := bitOf v 3, ue := bitOf v 4, pe := bitOf v 5
    sf := bitOf v 6, es := bitOf v 7, c0 := bitOf v 8, c1 := bitOf v 9, c2 := bitOf v 10
    top := v.extractLsb' 11 3, c3 := bitOf v 14 }

/-- The two bits of a tag (R43). -/
def Tag.code : Tag → BitVec 2
  | .valid => 0#2
  | .zero => 1#2
  | .special => 2#2
  | .empty => 3#2

/-- The tag two bits stand for (R43). -/
def Tag.ofCode (v : BitVec 2) : Tag :=
  match v.toNat with
  | 0 => .valid
  | 1 => .zero
  | 2 => .special
  | _ => .empty

/-! The access-rights byte (R89). -/

def arPresent (a : BitVec 8) : Bool := bitOf a 7
def arDpl (a : BitVec 8) : BitVec 2 := a.extractLsb' 5 2
/-- S: a code or data segment. -/
def arSegment (a : BitVec 8) : Bool := bitOf a 4
/-- A code segment. -/
def arCode (a : BitVec 8) : Bool := bitOf a 4 && bitOf a 3
/-- A data segment. -/
def arData (a : BitVec 8) : Bool := bitOf a 4 && !bitOf a 3
/-- An expand-down data segment. -/
def arExpandDown (a : BitVec 8) : Bool := arData a && bitOf a 2
/-- A writable data segment. -/
def arWritable (a : BitVec 8) : Bool := arData a && bitOf a 1
/-- A conforming code segment. -/
def arConforming (a : BitVec 8) : Bool := arCode a && bitOf a 2
/-- A readable segment: data, or code with R. -/
def arReadable (a : BitVec 8) : Bool := arData a || (arCode a && bitOf a 1)
/-- The system type of a descriptor with S = 0. -/
def arType (a : BitVec 8) : Nat := (a.extractLsb' 0 4).toNat
/-- The byte with the accessed bit set. -/
def arAccessed (a : BitVec 8) : BitVec 8 := a ||| 1#8

/-! Selectors (R87). -/

def selRpl (s : BitVec 16) : BitVec 2 := s.extractLsb' 0 2
def selLocal (s : BitVec 16) : Bool := bitOf s 2
def selIndex (s : BitVec 16) : Nat := (s.extractLsb' 3 13).toNat
/-- Selectors 0 to 3 are null. -/
def selNull (s : BitVec 16) : Bool := s.extractLsb' 2 14 == 0#14
/-- `sel & 0xFFFC`: the selector in an error code (R602). -/
def selErr (s : BitVec 16) : BitVec 16 := s &&& 0xFFFC#16

end Sys2Proof.Machine
end

