-- ==== Sys2Proof/WellFormed.lean ====
section
/-! DEFINITION. Which instruction terms have an encoding under given size attributes on a given processor: the
operand forms of R142 to R145, the immediate widths of R158, the availability of R171. -/

namespace Sys2Proof

/-- What decoding depends on beside the bytes (R136, R137, R171): the processor, the coprocessor, the two size
attributes, and the repeat prefix already read (its z bit). -/
structure Ctx where
  cpu : Cpu
  npx : Npx
  os : Size
  adr : Size
  rep : Option Bool
deriving DecidableEq, Repr, Inhabited

namespace Ctx

/-- The 80286 has 16-bit operands and addresses only (R8). -/
def ok (c : Ctx) : Bool := c.cpu != .p286 || (c.os == .s16 && c.adr == .s16)

/-- Available since the 80386 (R171). -/
def has386 (c : Ctx) : Bool := c.cpu != .p286

/-- Available on the 80486 only (R171). -/
def has486 (c : Ctx) : Bool := c.cpu == .p486

end Ctx

/-- The immediate of a `w` form (R158): 8 bits for w = 0, else OS bits. -/
def immOk (os : Size) (w : Bool) : Imm → Bool
  | .i8 _ => !w
  | .i16 _ => w && os == .s16
  | .i32 _ => w && os == .s32

/-- The immediate of an `sw` form (R154): 8 bits for s = 1 or w = 0, else OS bits. -/
def immSOk (os : Size) (s w : Bool) (imm : Imm) : Bool := immOk os (w && !s) imm

/-- The displacement of a conditional jump (R386): 8 bits, or OS bits on the 80386 and 80486. -/
def relOk (c : Ctx) : Imm → Bool
  | .i8 _ => true
  | .i16 _ => c.has386 && c.os == .s16
  | .i32 _ => c.has386 && c.os == .s32

/-- A direct address or a far pointer's offset has the attribute's width (R158). -/
def offOk (sz : Size) : Off → Bool
  | .o16 _ => sz == .s16
  | .o32 _ => sz == .s32

/-- A displacement of a 16-bit mode specifier (R142). -/
def disp16Ok : Disp → Bool
  | .none => true
  | .d8 _ => true
  | .d16 _ => true
  | .d32 _ => false

/-- A displacement of a 32-bit mode specifier (R143, R144). -/
def disp32Ok : Disp → Bool
  | .none => true
  | .d8 _ => true
  | .d16 _ => false
  | .d32 _ => true

/-- A memory operand the address-size attribute can name (R142 to R144). -/
def memOk (adr : Size) : MemOp → Bool
  | .a16 rm disp => adr == .s16 && disp16Ok disp && !(rm == 6#3 && disp == .none)
  | .direct16 _ => adr == .s16
  | .a32 base disp => adr == .s32 && disp32Ok disp && base != 4#3 && !(base == 5#3 && disp == .none)
  | .direct32 _ => adr == .s32
  | .sib _ _ base disp => adr == .s32 && disp32Ok disp && !(base == 5#3 && disp == .none)
  | .sibNoBase _ _ _ => adr == .s32

/-- An operand a mod r/m byte can name. -/
def rmOk (adr : Size) : RM → Bool
  | .reg _ => true
  | .mem m => memOk adr m

/-- Segment registers MOV can load: not CS (R167), FS and GS only where they exist (R26). -/
def sregLoadOk (c : Ctx) : SReg → Bool
  | .es => true
  | .cs => false
  | .ss => true
  | .ds => true
  | .fs => c.has386
  | .gs => c.has386

/-- Segment registers MOV can store (R26). -/
def sregStoreOk (c : Ctx) : SReg → Bool
  | .es => true
  | .cs => true
  | .ss => true
  | .ds => true
  | .fs => c.has386
  | .gs => c.has386

/-- Segment registers of the 2-bit field sreg2 (R152). -/
def sreg2Ok : SReg → Bool
  | .es => true
  | .cs => true
  | .ss => true
  | .ds => true
  | .fs => false
  | .gs => false

/-- The coprocessor memory encodings (first byte 11011 ttt, middle field lll) that a row of the table assigns
(R163, R480). -/
def escMemAssigned (ttt lll : BitVec 3) : Bool :=
  match ttt.toNat with
  | 0 => true
  | 1 => lll != 1#3
  | 2 => true
  | 3 => lll == 0#3 || lll == 2#3 || lll == 3#3 || lll == 5#3 || lll == 7#3
  | 4 => true
  | 5 => lll != 1#3 && lll != 5#3
  | 6 => true
  | _ => lll != 1#3

/-- The coprocessor register encodings (mod = 11) that a row of the table assigns on this processor
(R163, R480, R171). -/
def escRegAssigned (c : Ctx) (ttt lll r : BitVec 3) : Bool :=
  match ttt.toNat with
  | 0 => true
  | 1 =>
    match lll.toNat with
    | 0 => true
    | 1 => true
    | 2 => r == 0#3
    | 3 => false
    | 4 => r == 0#3 || r == 1#3 || r == 4#3 || r == 5#3
    | 5 => r != 7#3
    | 6 => c.has386 || r != 5#3
    | _ => c.has386 || !(r == 3#3 || r == 6#3 || r == 7#3)
  | 2 => c.has386 && lll == 5#3 && r == 1#3
  | 3 => lll == 4#3 && (r == 2#3 || r == 3#3 || (r == 4#3 && !c.has386))
  | 4 => lll != 2#3 && lll != 3#3
  | 5 => lll == 0#3 || lll == 2#3 || lll == 3#3 || (c.has386 && (lll == 4#3 || lll == 5#3))
  | 6 => (lll != 2#3 && lll != 3#3) || (lll == 3#3 && r == 1#3)
  | _ => lll == 4#3 && r == 0#3

/-- The term of the row ESC: a coprocessor encoding that no other row assigns (R424, R552). -/
def escOk (c : Ctx) (ttt lll : BitVec 3) : RM → Bool
  | .reg r => !escRegAssigned c ttt lll r
  | .mem m => memOk c.adr m && !escMemAssigned ttt lll

/-- The instruction has an encoding that decodes to it in this context. -/
def Instr.wf (c : Ctx) : Instr → Bool
  | .lockPrefix => true
  | .repnePrefix => true
  | .repPrefix => true
  | .esPrefix => true
  | .csPrefix => true
  | .ssPrefix => true
  | .dsPrefix => true
  | .fsPrefix => c.has386
  | .gsPrefix => c.has386
  | .opSizePrefix => c.has386
  | .addrSizePrefix => c.has386
  | .movRmReg _ _ rm => rmOk c.adr rm
  | .movRegRm _ _ rm => rmOk c.adr rm
  | .movRmImm w rm imm => rmOk c.adr rm && immOk c.os w imm
  | .movRegImm w _ imm => immOk c.os w imm
  | .movAccMem _ addr => offOk c.adr addr
  | .movMemAcc _ addr => offOk c.adr addr
  | .movSregRm sreg rm => rmOk c.adr rm && sregLoadOk c sreg
  | .movRmSreg sreg rm => rmOk c.adr rm && sregStoreOk c sreg
  | .movsx _ _ rm => c.has386 && rmOk c.adr rm
  | .movzx _ _ rm => c.has386 && rmOk c.adr rm
  | .pushRm rm => rmOk c.adr rm
  | .pushReg _ => true
  | .pushSreg sreg => sreg2Ok sreg
  | .pushFs => c.has386
  | .pushGs => c.has386
  | .pushImm s imm => immSOk c.os s true imm
  | .pusha => true
  | .popRm rm => rmOk c.adr rm
  | .popReg _ => true
  | .popEs => true
  | .popSs => true
  | .popDs => true
  | .popFs => c.has386
  | .popGs => c.has386
  | .popa => true
  | .xchgRmReg _ _ rm => rmOk c.adr rm
  | .xchgAcc reg => reg != 0#3
  | .inPort _ _ => true
  | .inDx _ => true
  | .outPort _ _ => true
  | .outDx _ => true
  | .lea _ mem => memOk c.adr mem
  | .lds _ mem => memOk c.adr mem
  | .les _ mem => memOk c.adr mem
  | .lfs _ mem => c.has386 && memOk c.adr mem
  | .lgs _ mem => c.has386 && memOk c.adr mem
  | .lss _ mem => c.has386 && memOk c.adr mem
  | .clc => true
  | .cld => true
  | .cli => true
  | .clts => true
  | .cmc => true
  | .lahf => true
  | .popf => true
  | .pushf => true
  | .sahf => true
  | .stc => true
  | .std => true
  | .sti => true
  | .addRmReg _ _ _ rm => rmOk c.adr rm
  | .addRmImm s w rm imm => rmOk c.adr rm && immSOk c.os s w imm
  | .addAccImm w imm => immOk c.os w imm
  | .orRmReg _ _ _ rm => rmOk c.adr rm
  | .orRmImm s w rm imm => rmOk c.adr rm && immSOk c.os s w imm && (c.has386 || !s)
  | .orAccImm w imm => immOk c.os w imm
  | .adcRmReg _ _ _ rm => rmOk c.adr rm
  | .adcRmImm s w rm imm => rmOk c.adr rm && immSOk c.os s w imm
  | .adcAccImm w imm => immOk c.os w imm
  | .sbbRmReg _ _ _ rm => rmOk c.adr rm
  | .sbbRmImm s w rm imm => rmOk c.adr rm && immSOk c.os s w imm
  | .sbbAccImm w imm => immOk c.os w imm
  | .andRmReg _ _ _ rm => rmOk c.adr rm
  | .andRmImm s w rm imm => rmOk c.adr rm && immSOk c.os s w imm && (c.has386 || !s)
  | .andAccImm w imm => immOk c.os w imm
  | .subRmReg _ _ _ rm => rmOk c.adr rm
  | .subRmImm s w rm imm => rmOk c.adr rm && immSOk c.os s w imm
  | .subAccImm w imm => immOk c.os w imm
  | .xorRmReg _ _ _ rm => rmOk c.adr rm
  | .xorRmImm s w rm imm => rmOk c.adr rm && immSOk c.os s w imm && (c.has386 || !s)
  | .xorAccImm w imm => immOk c.os w imm
  | .cmpRmReg _ _ _ rm => rmOk c.adr rm
  | .cmpRmImm s w rm imm => rmOk c.adr rm && immSOk c.os s w imm
  | .cmpAccImm w imm => immOk c.os w imm
  | .incRm _ rm => rmOk c.adr rm
  | .incReg _ => true
  | .decRm _ rm => rmOk c.adr rm
  | .decReg _ => true
  | .neg _ rm => rmOk c.adr rm
  | .aaa => true
  | .aas => true
  | .daa => true
  | .das => true
  | .mul _ rm => rmOk c.adr rm
  | .imulAcc _ rm => rmOk c.adr rm
  | .imulRegRm _ rm => c.has386 && rmOk c.adr rm
  | .imulRegRmImm s _ rm imm => rmOk c.adr rm && immSOk c.os s true imm
  | .div _ rm => rmOk c.adr rm
  | .idiv _ rm => rmOk c.adr rm
  | .aad => true
  | .aam => true
  | .cbw => true
  | .cwd => true
  | .rol _ rm _ => rmOk c.adr rm
  | .ror _ rm _ => rmOk c.adr rm
  | .rcl _ rm _ => rmOk c.adr rm
  | .rcr _ rm _ => rmOk c.adr rm
  | .shl _ rm _ => rmOk c.adr rm
  | .shr _ rm _ => rmOk c.adr rm
  | .sar _ rm _ => rmOk c.adr rm
  | .shldImm _ rm _ => c.has386 && rmOk c.adr rm
  | .shldCl _ rm => c.has386 && rmOk c.adr rm
  | .shrdImm _ rm _ => c.has386 && rmOk c.adr rm
  | .shrdCl _ rm => c.has386 && rmOk c.adr rm
  | .testRmReg _ _ rm => rmOk c.adr rm
  | .testRmImm w rm imm => rmOk c.adr rm && immOk c.os w imm
  | .testAccImm w imm => immOk c.os w imm
  | .notRm _ rm => rmOk c.adr rm
  | .cmps _ => c.rep == none
  | .ins _ => c.rep == none
  | .lods _ => c.rep == none
  | .movs _ => c.rep == none
  | .outs _ => c.rep == none
  | .scas _ => c.rep == none
  | .stos _ => c.rep == none
  | .xlat => true
  | .repeCmps _ => true
  | .repneCmps _ => true
  | .repIns _ => true
  | .repLods _ => true
  | .repMovs _ => true
  | .repOuts _ => true
  | .repeScas _ => true
  | .repneScas _ => true
  | .repStos _ => true
  | .bsf _ rm => c.has386 && rmOk c.adr rm
  | .bsr _ rm => c.has386 && rmOk c.adr rm
  | .btImm rm _ => c.has386 && rmOk c.adr rm
  | .btReg _ rm => c.has386 && rmOk c.adr rm
  | .btcImm rm _ => c.has386 && rmOk c.adr rm
  | .btcReg _ rm => c.has386 && rmOk c.adr rm
  | .btrImm rm _ => c.has386 && rmOk c.adr rm
  | .btrReg _ rm => c.has386 && rmOk c.adr rm
  | .btsImm rm _ => c.has386 && rmOk c.adr rm
  | .btsReg _ rm => c.has386 && rmOk c.adr rm
  | .callNear disp => immOk c.os true disp
  | .callRm rm => rmOk c.adr rm
  | .callFar off _ => offOk c.os off
  | .callMemFar mem => memOk c.adr mem
  | .jmpShort _ => true
  | .jmpNear disp => immOk c.os true disp
  | .jmpRm rm => rmOk c.adr rm
  | .jmpFar off _ => offOk c.os off
  | .jmpMemFar mem => memOk c.adr mem
  | .retNear => true
  | .retNearImm _ => true
  | .retFar => true
  | .retFarImm _ => true
  | .jO disp => relOk c disp
  | .jNo disp => relOk c disp
  | .jB disp => relOk c disp
  | .jNb disp => relOk c disp
  | .jE disp => relOk c disp
  | .jNe disp => relOk c disp
  | .jBe disp => relOk c disp
  | .jNbe disp => relOk c disp
  | .jS disp => relOk c disp
  | .jNs disp => relOk c disp
  | .jP disp => relOk c disp
  | .jNp disp => relOk c disp
  | .jL disp => relOk c disp
  | .jNl disp => relOk c disp
  | .jLe disp => relOk c disp
  | .jNle disp => relOk c disp
  | .jcxz _ => true
  | .loop _ => true
  | .loopz _ => true
  | .loopnz _ => true
  | .setO _ rm => c.has386 && rmOk c.adr rm
  | .setNo _ rm => c.has386 && rmOk c.adr rm
  | .setB _ rm => c.has386 && rmOk c.adr rm
  | .setNb _ rm => c.has386 && rmOk c.adr rm
  | .setE _ rm => c.has386 && rmOk c.adr rm
  | .setNe _ rm => c.has386 && rmOk c.adr rm
  | .setBe _ rm => c.has386 && rmOk c.adr rm
  | .setNbe _ rm => c.has386 && rmOk c.adr rm
  | .setS _ rm => c.has386 && rmOk c.adr rm
  | .setNs _ rm => c.has386 && rmOk c.adr rm
  | .setP _ rm => c.has386 && rmOk c.adr rm
  | .setNp _ rm => c.has386 && rmOk c.adr rm
  | .setL _ rm => c.has386 && rmOk c.adr rm
  | .setNl _ rm => c.has386 && rmOk c.adr rm
  | .setLe _ rm => c.has386 && rmOk c.adr rm
  | .setNle _ rm => c.has386 && rmOk c.adr rm
  | .enter _ _ => true
  | .leave => true
  | .intN _ => true
  | .int3 => true
  | .into => true
  | .bound _ mem => memOk c.adr mem
  | .iret => true
  | .hlt => true
  | .movToCr _ _ => c.has386
  | .movFromCr _ _ => c.has386
  | .movToDr _ _ => c.has386
  | .movFromDr _ _ => c.has386
  | .movToTr _ _ => c.has386
  | .movFromTr _ _ => c.has386
  | .nop => true
  | .wait => true
  | .esc ttt lll rm => escOk c ttt lll rm
  | .arpl _ rm => rmOk c.adr rm
  | .lar _ rm => rmOk c.adr rm
  | .lgdt mem => memOk c.adr mem
  | .lidt mem => memOk c.adr mem
  | .lldt rm => rmOk c.adr rm
  | .lmsw rm => rmOk c.adr rm
  | .lsl _ rm => rmOk c.adr rm
  | .ltr rm => rmOk c.adr rm
  | .sgdt mem => memOk c.adr mem
  | .sidt mem => memOk c.adr mem
  | .sldt rm => rmOk c.adr rm
  | .smsw rm => rmOk c.adr rm
  | .str rm => rmOk c.adr rm
  | .verr rm => rmOk c.adr rm
  | .verw rm => rmOk c.adr rm
  | .bswap _ => c.has486
  | .cmpxchg _ _ rm => c.has486 && rmOk c.adr rm
  | .xadd _ _ rm => c.has486 && rmOk c.adr rm
  | .invd => c.has486
  | .wbinvd => c.has486
  | .invlpg mem => c.has486 && memOk c.adr mem
  | .fldMem _ mem => memOk c.adr mem
  | .fild _ mem => memOk c.adr mem
  | .fildM64 mem => memOk c.adr mem
  | .fldM80 mem => memOk c.adr mem
  | .fbld mem => memOk c.adr mem
  | .fldSt _ => true
  | .fstMem _ mem => memOk c.adr mem
  | .fist _ mem => memOk c.adr mem
  | .fstSt _ => true
  | .fstpMem _ mem => memOk c.adr mem
  | .fistp _ mem => memOk c.adr mem
  | .fistpM64 mem => memOk c.adr mem
  | .fstpM80 mem => memOk c.adr mem
  | .fbstp mem => memOk c.adr mem
  | .fstpSt _ => true
  | .fxch _ => true
  | .fcomMem _ mem => memOk c.adr mem
  | .ficom _ mem => memOk c.adr mem
  | .fcomSt _ => true
  | .fcompMem _ mem => memOk c.adr mem
  | .ficomp _ mem => memOk c.adr mem
  | .fcompSt _ => true
  | .fcompp => true
  | .fucom _ => c.has386
  | .fucomp _ => c.has386
  | .fucompp => c.has386
  | .ftst => true
  | .fxam => true
  | .fldz => true
  | .fld1 => true
  | .fldpi => true
  | .fldl2t => true
  | .fldl2e => true
  | .fldlg2 => true
  | .fldln2 => true
  | .faddMem _ mem => memOk c.adr mem
  | .fiadd _ mem => memOk c.adr mem
  | .faddSt _ _ => true
  | .faddp _ => true
  | .fsubMem _ mem => memOk c.adr mem
  | .fsubrMem _ mem => memOk c.adr mem
  | .fisub _ mem => memOk c.adr mem
  | .fisubr _ mem => memOk c.adr mem
  | .fsubSt _ _ => true
  | .fsubrSt _ _ => true
  | .fsubrp _ => true
  | .fsubp _ => true
  | .fmulMem _ mem => memOk c.adr mem
  | .fimul _ mem => memOk c.adr mem
  | .fmulSt _ _ => true
  | .fmulp _ => true
  | .fdivMem _ mem => memOk c.adr mem
  | .fdivrMem _ mem => memOk c.adr mem
  | .fidiv _ mem => memOk c.adr mem
  | .fidivr _ mem => memOk c.adr mem
  | .fdivSt _ _ => true
  | .fdivrSt _ _ => true
  | .fdivrp _ => true
  | .fdivp _ => true
  | .fsqrt => true
  | .fscale => true
  | .fprem => true
  | .fprem1 => c.has386
  | .frndint => true
  | .fxtract => true
  | .fabs => true
  | .fchs => true
  | .fptan => true
  | .fpatan => true
  | .fsin => c.has386
  | .fcos => c.has386
  | .fsincos => c.has386
  | .f2xm1 => true
  | .fyl2x => true
  | .fyl2xp1 => true
  | .fsetpm => !c.has386
  | .finit => true
  | .fstswAx => true
  | .fldcw mem => memOk c.adr mem
  | .fstcw mem => memOk c.adr mem
  | .fstsw mem => memOk c.adr mem
  | .fclex => true
  | .fstenv mem => memOk c.adr mem
  | .fldenv mem => memOk c.adr mem
  | .fsave mem => memOk c.adr mem
  | .frstor mem => memOk c.adr mem
  | .fincstp => true
  | .fdecstp => true
  | .ffree _ => true
  | .fnop => true

end Sys2Proof
end

