-- ==== Sys2Proof/Machine/Base.lean ====
section
/-! DEFINITION. How a meaning is written: a computation over the state that ends with a value or with a reason to
stop (an exception to take, a wait, a fault, a refusal); and the views of the state that every meaning uses. -/

namespace Sys2Proof.Machine

/-- An exception to take: its vector (R600) and its error code, if it has one (R602). -/
structure Exc where
  vector : BitVec 8
  code : Option (BitVec 16)
deriving DecidableEq, Repr

/-- Why a computation ends early: an exception; the processor waits for the coprocessor (R641); it enters shutdown
(R604); the machine's own faults and refusals. -/
inductive Stop where
  | exc (e : Exc)
  | waiting
  | shutdown
  | fault (f : Fault)
  | refuse (r : Refusal)
deriving DecidableEq, Repr

/-- A computation of a meaning. -/
abbrev M := EStateM Stop State

/-! Exceptions by name (R600). -/

def raiseExc {α : Type} (v : BitVec 8) (c : Option (BitVec 16)) : M α := throw (.exc ⟨v, c⟩)
def raiseDE {α : Type} : M α := raiseExc 0#8 none
def raiseOF {α : Type} : M α := raiseExc 4#8 none
def raiseBR {α : Type} : M α := raiseExc 5#8 none
def raiseUD {α : Type} : M α := raiseExc 6#8 none
def raiseNM {α : Type} : M α := raiseExc 7#8 none
/-- Vector 9, coprocessor segment overrun (R600). -/
def raiseOverrun {α : Type} : M α := raiseExc 9#8 none
def raiseTS {α : Type} (c : BitVec 16) : M α := raiseExc 10#8 (some c)
def raiseNP {α : Type} (c : BitVec 16) : M α := raiseExc 11#8 (some c)
def raiseSS {α : Type} (c : BitVec 16) : M α := raiseExc 12#8 (some c)
def raiseGP {α : Type} (c : BitVec 16) : M α := raiseExc 13#8 (some c)
def raisePF {α : Type} (c : BitVec 16) : M α := raiseExc 14#8 (some c)
def raiseMF {α : Type} : M α := raiseExc 16#8 none
def raiseAC {α : Type} : M α := raiseExc 17#8 (some 0#16)

/-- The spec's `refuse` (R11). -/
def refuse {α : Type} (r : Refusal) : M α := throw (.refuse r)

/-! The state, read and updated. -/

/-- The whole state. -/
def getS : M State := fun s => .ok s s

/-- Replace the state by a function of it. -/
def updS (f : State → State) : M Unit := fun s => .ok () (f s)

/-- A value computed from the state. -/
def readS {α : Type} (f : State → α) : M α := fun s => .ok (f s) s

/-! Draws (R11, D9): the next undefined value; the counter advances. -/

def drawBit : M Bool := fun s => .ok (Config.freeBit s.draws) (s.setDraws (s.draws + 1))
def drawByte : M (BitVec 8) := fun s => .ok (Config.freeByte s.draws) (s.setDraws (s.draws + 1))
def drawWord : M (BitVec 16) := fun s => .ok (Config.freeWord s.draws) (s.setDraws (s.draws + 1))
def drawDword : M (BitVec 32) := fun s => .ok (Config.freeDword s.draws) (s.setDraws (s.draws + 1))
def drawTemp : M (BitVec 80) := fun s => .ok (Config.freeTemp s.draws) (s.setDraws (s.draws + 1))

/-- An undefined value of an operand width. -/
def drawVal : (w : Width) → M (Val w)
  | .w8 => drawByte
  | .w16 => drawWord
  | .w32 => drawDword

/-! Processor, mode and privilege. -/

/-- The processor is an 80386 or an 80486. -/
def State.has386 (s : State) : Bool := s.cfg.cpu != .p286

/-- The processor is an 80486. -/
def State.has486 (s : State) : Bool := s.cfg.cpu == .p486

/-- Virtual-8086 mode (R28, R86). -/
def State.v86 (s : State) : Bool := s.sys.cr0.pe && s.flags.vm

/-- Protected mode outside virtual-8086 mode (R90). -/
def State.protMode (s : State) : Bool := s.sys.cr0.pe && !s.flags.vm

/-- The current privilege level (R39). -/
def State.cpl (s : State) : BitVec 2 :=
  if !s.sys.cr0.pe then 0#2 else if s.flags.vm then 3#2 else s.sys.cpl

/-- The default operand and address size (R92). -/
def State.defaultSize (s : State) : Size :=
  if s.protMode && s.segs.cs.db && s.has386 then .s32 else .s16

/-- The operand-size attribute OS (R136). -/
def State.os (s : State) : Size :=
  if s.cur.opSize && s.has386 then s.defaultSize.toggle else s.defaultSize

/-- The address-size attribute AS (R137). -/
def State.adr (s : State) : Size :=
  if s.cur.adSize && s.has386 then s.defaultSize.toggle else s.defaultSize

/-- What decoding depends on in this state. -/
def State.ctx (s : State) : Ctx := ⟨s.cfg.cpu, s.cfg.npx, s.os, s.adr, s.cur.rep⟩

/-- Next IP (R25): the offset of the byte after the instruction's last byte; after offset FFFFFFFF it is 0 (log
entry 46). -/
def State.nextIP (s : State) : BitVec 32 := s.eip + BitVec.ofNat 32 s.cur.len

/-! Segment registers by number. -/

def SegRegs.get (r : SegRegs) : SReg → SegReg
  | .es => r.es
  | .cs => r.cs
  | .ss => r.ss
  | .ds => r.ds
  | .fs => r.fs
  | .gs => r.gs

def SegRegs.put (r : SegRegs) (k : SReg) (v : SegReg) : SegRegs :=
  match k with
  | .es => { r with es := v }
  | .cs => { r with cs := v }
  | .ss => { r with ss := v }
  | .ds => { r with ds := v }
  | .fs => { r with fs := v }
  | .gs => { r with gs := v }

/-- Write a segment register with its hidden part. -/
def putSeg (k : SReg) (v : SegReg) : M Unit := updS (fun s => s.setSegs (s.segs.put k v))

/-! General registers at an operand width (R20, R21, R23). -/

/-- `R_n[i]` (R23). -/
def regRead (g : Oct (BitVec 32)) : (w : Width) → RegNum → Val w
  | .w8, i =>
    if bitOf i 2 then (g.get (i - 4#3)).extractLsb' 8 8 else (g.get i).extractLsb' 0 8
  | .w16, i => (g.get i).extractLsb' 0 16
  | .w32, i => g.get i

/-- `R_n[i] <- v` (R23): the other bits of the register are unchanged. -/
def regWrite (g : Oct (BitVec 32)) : (w : Width) → RegNum → Val w → Oct (BitVec 32)
  | .w8, i, v =>
    if bitOf i 2 then
      let old := g.get (i - 4#3)
      g.set (i - 4#3) (old.extractLsb' 16 16 ++ v ++ old.extractLsb' 0 8)
    else
      let old := g.get i
      g.set i (old.extractLsb' 8 24 ++ v)
  | .w16, i, v => g.set i ((g.get i).extractLsb' 16 16 ++ v)
  | .w32, i, v => g.set i v

def State.reg (s : State) (w : Width) (i : RegNum) : Val w := regRead s.gpr w i
def getReg (w : Width) (i : RegNum) : M (Val w) := readS (fun s => s.reg w i)
def setReg (w : Width) (i : RegNum) (v : Val w) : M Unit := updS (fun s => s.setGpr (regWrite s.gpr w i v))

/-! Numbers of the named registers (R20, R21). -/

abbrev rAX : RegNum := 0#3
abbrev rCX : RegNum := 1#3
abbrev rDX : RegNum := 2#3
abbrev rBX : RegNum := 3#3
abbrev rSP : RegNum := 4#3
abbrev rBP : RegNum := 5#3
abbrev rSI : RegNum := 6#3
abbrev rDI : RegNum := 7#3
abbrev rAL : RegNum := 0#3
abbrev rCL : RegNum := 1#3
abbrev rAH : RegNum := 4#3

/-- Change the flags by a function of them. -/
def updFlags (f : Flags → Flags) : M Unit := updS (fun s => s.setFlags (f s.flags))

/-- Change the system registers by a function of them. -/
def updSys (f : Sys → Sys) : M Unit := updS (fun s => s.setSys (f s.sys))

/-- Change CR0 by a function of it. -/
def updCr0 (f : Cr0 → Cr0) : M Unit := updSys (fun y => { y with cr0 := f y.cr0 })

/-- Change the boundary state by a function of it. -/
def updCtl (f : Ctl → Ctl) : M Unit := updS (fun s => s.setCtl (f s.ctl))

/-- A taken control transfer empties the prefetch queue (R117): the bytes stored before are seen from now on. -/
def flushQueue : M Unit := updS (fun s => s.setStored [])

/-- The instruction is complete: go on at next IP (R25). -/
def State.advance (s : State) : State := (s.setEip s.nextIP).setCur Cur.start

/-- Complete the instruction (R25). -/
def advance : M Unit := updS State.advance

/-- Complete the instruction by going on at `target`: a taken control transfer (R25, R117). -/
def jumpTo (target : BitVec 32) : M Unit :=
  updS (fun s => ((s.setEip target).setCur Cur.start).setStored [])

end Sys2Proof.Machine
end

