-- ==== Sys2Proof/Machine/Memory.lean ====
section
/-! DEFINITION. Memory: the canonical list of cells, what answers at a physical address (R71, D19), paging and the
translation buffer (R100 to R106), and linear accesses (R10). -/

namespace Sys2Proof.Machine

/-! Cells. -/

/-- What an unlisted byte of RAM or ROM reads as. DESIGN CHOICE (log entry 6). -/
def unlisted : Byte := 0#8

/-- Read one byte of the list. -/
def memGet : List Host.Cell → Nat → Byte
  | [], _ => unlisted
  | (a, b) :: rest, x => if a = x then b else memGet rest x

/-- Put a byte in front of a list, or nothing where it equals what an unlisted address reads as. -/
def memCons (x : Nat) (v : Byte) (m : List Host.Cell) : List Host.Cell :=
  if v = unlisted then m else (x, v) :: m

/-- Write one byte, keeping the canonical form. -/
def memSet : List Host.Cell → Nat → Byte → List Host.Cell
  | [], x, v => memCons x v []
  | (a, b) :: rest, x, v =>
    if x < a then memCons x v ((a, b) :: rest)
    else if x = a then memCons x v rest
    else (a, b) :: memSet rest x v

/-- All listed addresses are above a bound, strictly rising, and no entry equals what an unlisted address reads
as. -/
def Memory.wfAbove : Option Nat → List Host.Cell → Bool
  | _, [] => true
  | lo, (a, b) :: rest =>
    (match lo with
      | none => true
      | some l => decide (l < a)) && b != unlisted && Memory.wfAbove (some a) rest

/-- The canonical form of memory. -/
def Memory.wf (m : List Host.Cell) : Bool := Memory.wfAbove none m

/-! Physical accesses (R71, D19). -/

/-- A physical address on the bus: modulo 2^PHYS_BITS (R71), bit 20 forced to 0 when A20 is masked (R83, D18). -/
def busAddr (c : Config) (a : Nat) : Nat :=
  let p := a % 2 ^ c.physBits
  if c.a20Masked && p.testBit 20 then p - 1048576 else p

/-- What answers at a physical address (D19): the first region that holds it, else nothing. -/
def kindAt : List Region → Nat → RegionKind
  | [], _ => .nothing
  | r :: rest, a => if r.base ≤ a ∧ a < r.base + r.size then r.kind else kindAt rest a

/-- `MemRead` of one byte (R71): memory's byte, a draw where nothing answers, the device's answer (D19). A wider read of
a device is so many reads of one byte, each counted in `ioReads` (log entry 72). -/
def physRead (addr : Nat) : M Byte := fun s =>
  let a := busAddr s.cfg addr
  match kindAt s.cfg.memmap a with
  | .ram => .ok (memGet s.mem a) s
  | .rom => .ok (memGet s.mem a) s
  | .nothing => drawByte s
  | .device => .ok (Config.deviceByte a s.env.ioReads) (s.setEnv { s.env with ioReads := s.env.ioReads + 1 })

/-- Remember the value a byte had before the first store since the last taken transfer (R117). -/
def noteStored (m : List Host.Cell) (st : List Host.Cell) (a : Nat) : List Host.Cell :=
  if st.any (fun c => c.1 == a) then st else (a, memGet m a) :: st

/-- A RAM byte is stored. -/
def State.storeByte (s : State) (a : Nat) (v : Byte) : State :=
  (s.setStored (noteStored s.mem s.stored a)).setMem (memSet s.mem a v)

/-- `MemWrite` of one byte (R71): a store to ROM or to nothing is dropped, a device's store is output (D19). A wider store
to a device is so many events of one byte (log entry 72). -/
def physWrite (addr : Nat) (v : Byte) : M Unit := fun s =>
  let a := busAddr s.cfg addr
  match kindAt s.cfg.memmap a with
  | .ram => .ok () (s.storeByte a v)
  | .rom => .ok () s
  | .nothing => .ok () s
  | .device => .ok () (s.setEnv { s.env with ioOut := .device a v :: s.env.ioOut })

/-- Read the bytes at some physical addresses, in order. -/
def physReadAll : List Nat → M (List Byte)
  | [] => pure []
  | a :: rest => do
    let b ← physRead a
    let bs ← physReadAll rest
    pure (b :: bs)

/-- Write bytes to some physical addresses, in order. -/
def physWriteAll : List Nat → List Byte → M Unit
  | a :: as, b :: bs => do
    physWrite a b
    physWriteAll as bs
  | _, _ => pure ()

/-- `MemRead(addr, 4)` (R71). -/
def physRead32 (a : Nat) : M (BitVec 32) := do
  let bs ← physReadAll [a, a + 1, a + 2, a + 3]
  pure (leVal 32 bs)

/-- `MemWrite(addr, 4, v)` (R71). -/
def physWrite32 (a : Nat) (v : BitVec 32) : M Unit :=
  physWriteAll [a, a + 1, a + 2, a + 3] (leBytes 4 v.toNat)

/-! Paging (R100 to R106). -/

/-- Paging is enabled (R100: in protected mode only; R31 keeps PG = 1 with PE = 0 out of CR0). -/
def State.paging (s : State) : Bool := s.sys.cr0.pe && s.sys.cr0.pg && s.has386

/-- Which accesses a page allows (R103, Figures 7 and 8). -/
def pageAllows (wp user write : Bool) (us rw : Bool) : Bool :=
  if user then us && (!write || rw) else !write || rw || !wp

/-- The error code of a page fault (R104). -/
def pfCode (protection write user : Bool) : BitVec 16 :=
  place 16 protection 0 ||| place 16 write 1 ||| place 16 user 2

/-- A page fault (R104): CR2 receives the linear address. -/
def pageFault {α : Type} (lin : BitVec 32) (protection write user : Bool) : M α := do
  updSys (fun y => { y with cr2 := lin })
  raisePF (pfCode protection write user)

/-- The entry of the translation buffer for a page (R106). -/
def tlbFind : List TlbEntry → BitVec 20 → Option TlbEntry
  | [], _ => none
  | e :: rest, p => if e.page = p then some e else tlbFind rest p

/-- The translation buffer without the entries of a page. -/
def tlbDrop (t : List TlbEntry) (p : BitVec 20) : List TlbEntry := t.filter (fun e => e.page != p)

/-- Whether the platform's stream drops the entry now (R106: any cached entry may vanish at any time; log
entry 14). -/
def sampleEvict : M Bool := fun s =>
  match s.env.tlbEvict with
  | [] => .ok false s
  | b :: rest => .ok b (s.setEnv { s.env with tlbEvict := rest })

/-- The table walk (R101) with its checks (R103), the accessed and dirty bits (R105) and the refill (R106). -/
def walk (lin : BitVec 32) (write user : Bool) : M (BitVec 20) := do
  let s ← getS
  let dirAddr := (s.sys.cr3 &&& 0xFFFFF000#32).toNat + (lin.extractLsb' 22 10).toNat * 4
  let pde ← physRead32 dirAddr
  if !bitOf pde 0 then pageFault lin false write user
  else
    let tabAddr := (pde &&& 0xFFFFF000#32).toNat + (lin.extractLsb' 12 10).toNat * 4
    let pte ← physRead32 tabAddr
    if !bitOf pte 0 then pageFault lin false write user
    else
      let us := bitOf pde 2 && bitOf pte 2
      let rw := bitOf pde 1 && bitOf pte 1
      if !pageAllows (s.sys.cr0.wp && s.has486) user write us rw then pageFault lin true write user
      else
        (if bitOf pde 5 then pure () else physWrite32 dirAddr (pde ||| 0x20#32))
        let pte' := pte ||| 0x20#32 ||| (if write then 0x40#32 else 0#32)
        (if pte' = pte then pure () else physWrite32 tabAddr pte')
        let page := lin.extractLsb' 12 20
        let e : TlbEntry :=
          { page := page, frame := pte.extractLsb' 12 20, user := us, writable := rw, dirty := bitOf pte' 6 }
        updS (fun s => s.setTlb (e :: tlbDrop s.tlb page))
        pure e.frame

/-- Translate one linear address with paging on (R101, R106): a cached entry is used as it is; one that vanishes is gone
before the tables are walked, and so is one whose cached D is 0 when a write goes through it (log entry 14). -/
def translate (lin : BitVec 32) (write user : Bool) : M Nat := do
  let s ← getS
  let page := lin.extractLsb' 12 20
  let off := (lin.extractLsb' 0 12).toNat
  match tlbFind s.tlb page with
  | none =>
    let f ← walk lin write user
    pure (f.toNat * 4096 + off)
  | some e =>
    let drop ← sampleEvict
    if !drop && !pageAllows (s.sys.cr0.wp && s.has486) user write e.user e.writable then
      pageFault lin true write user
    else if drop || (write && !e.dirty) then
      updS (fun s => s.setTlb (tlbDrop s.tlb page))
      let f ← walk lin write user
      pure (f.toNat * 4096 + off)
    else pure (e.frame.toNat * 4096 + off)

/-- `n` physical addresses from one on: they stay in its page. -/
def runFrom (p n : Nat) : List Nat := (List.range n).map (fun i => p + i)

/-- The physical addresses of `n` bytes at a linear address (R100): without paging the linear addresses themselves,
modulo 2^32; with paging each page part translated separately, all before any is accessed. -/
def linAddrs (lin : BitVec 32) (n : Nat) (write user : Bool) : M (List Nat) := do
  let s ← getS
  if !s.paging then
    pure ((List.range n).map (fun i => (lin + BitVec.ofNat 32 i).toNat))
  else
    let room := 4096 - (lin.extractLsb' 0 12).toNat
    let p ← translate lin write user
    if n ≤ room then pure (runFrom p n)
    else
      let q ← translate (lin + BitVec.ofNat 32 room) write user
      pure (runFrom p room ++ runFrom q (n - room))

/-- `LinRead` (R10, R100). -/
def linRead (lin : BitVec 32) (n : Nat) (user : Bool) : M (List Byte) := do
  let as ← linAddrs lin n false user
  physReadAll as

/-- `LinWrite` (R10, R100). -/
def linWrite (lin : BitVec 32) (bs : List Byte) (user : Bool) : M Unit := do
  let as ← linAddrs lin bs.length true user
  physWriteAll as bs

/-- A supervisor read of `n` bytes (R90: descriptor tables, the TSS, the IDT). -/
def sysRead (lin : BitVec 32) (n : Nat) : M (List Byte) := linRead lin n false

/-- A supervisor write (R90). -/
def sysWrite (lin : BitVec 32) (bs : List Byte) : M Unit := linWrite lin bs false

end Sys2Proof.Machine
end

