-- ==== Sys2Proof/Machine/Segment.lean ====
section
/-! DEFINITION. Segment-relative accesses with their checks (R90, R110), the stack primitives (R112), descriptors
and the loading of segment registers (R87 to R93). -/

namespace Sys2Proof.Machine

/-- `AlignCheck` (R110): on the 80486, at level 3, with CR0.AM and EFLAGS.AC, an address that is no multiple of the
operand's alignment raises #AC(0). -/
def alignCheck (lin : BitVec 32) (al : Nat) : M Unit := do
  let s ← getS
  if s.has486 && s.sys.cr0.am && s.flags.ac && s.cpl == 3#2 && lin.toNat % al != 0 then raiseAC
  else pure ()

/-- The access lies within the segment (R90): computed without wrap-around. -/
def segHolds (r : SegReg) (off : BitVec 32) (n : Nat) : Bool :=
  if arExpandDown r.access then
    decide (r.limit.toNat < off.toNat) && decide (off.toNat + n ≤ (if r.db then 4294967296 else 65536))
  else decide (off.toNat + n ≤ r.limit.toNat + 1)

/-- #SS for a stack-segment access, else #GP (R90). -/
def segFault {α : Type} (k : SReg) : M α :=
  match k with
  | .ss => raiseSS 0#16
  | .es => raiseGP 0#16
  | .cs => raiseGP 0#16
  | .ds => raiseGP 0#16
  | .fs => raiseGP 0#16
  | .gs => raiseGP 0#16

/-- The linear address of an offset in a segment (R82, R83): modulo 2^24 on the 80286, 2^32 on the others. -/
def State.linear (s : State) (r : SegReg) (off : BitVec 32) : BitVec 32 :=
  if s.has386 then r.base + off else (r.base + off) &&& 0x00FFFFFF#32

/-- The segment checks of an access of `n` bytes (R90); it answers the linear address. -/
def segCheck (k : SReg) (off : BitVec 32) (n : Nat) (write : Bool) : M (BitVec 32) := do
  let s ← getS
  let r := s.segs.get k
  if s.protMode && !r.usable then segFault k
  else if s.protMode && write && !arWritable r.access then raiseGP 0#16
  else if s.protMode && !write && !arReadable r.access then raiseGP 0#16
  else if !segHolds r off n then segFault k
  else pure (s.linear r off)

/-- The page check of an access of `n` bytes at a linear address, then its alignment check with alignment `al`
(R100, R110): the physical addresses. The page check comes first, as R605 orders them (log entry 57). -/
def pageCheck (lin : BitVec 32) (n : Nat) (write : Bool) (al : Nat) : M (List Nat) := do
  let s ← getS
  let as ← linAddrs lin n write (s.cpl == 3#2)
  alignCheck lin al
  pure as

/-- All the checks of a segment-relative access (R90, R110, R605). -/
def segAddrs (k : SReg) (off : BitVec 32) (n : Nat) (write : Bool) (al : Nat) : M (List Nat) := do
  let lin ← segCheck k off n write
  pageCheck lin n write al

/-- `SegRead(k, off, n)` (R90). -/
def segRead (k : SReg) (off : BitVec 32) (n : Nat) (al : Nat) : M (List Byte) := do
  let as ← segAddrs k off n false al
  physReadAll as

/-- `SegWrite(k, off, n, v)` (R90). -/
def segWrite (k : SReg) (off : BitVec 32) (bs : List Byte) (al : Nat) : M Unit := do
  let as ← segAddrs k off bs.length true al
  physWriteAll as bs

/-- The checks of an access without the access. -/
def probe (k : SReg) (off : BitVec 32) (n : Nat) (write : Bool) (al : Nat) : M Unit := do
  let _ ← segAddrs k off n write al
  pure ()

/-- A memory operand of an operand width (R71, R74). -/
def segReadV (w : Width) (k : SReg) (off : BitVec 32) : M (Val w) := do
  let bs ← segRead k off w.bytes w.bytes
  pure (leVal w.bits bs)

/-- Store an operand of an operand width (R71, R74). -/
def segWriteV (w : Width) (k : SReg) (off : BitVec 32) (v : Val w) : M Unit :=
  segWrite k off (leBytes w.bytes v.toNat) w.bytes

/-! The stack (R112). -/

/-- Whether implicit stack references use ESP (R92, R112). -/
def State.stack32 (s : State) : Bool := s.segs.ss.db

/-- A stack pointer value at the width of `SPw`. -/
def spTrunc (wide : Bool) (v : BitVec 32) : BitVec 32 := if wide then v else (v.extractLsb' 0 16).setWidth 32

/-- `SPw` (R112). -/
def State.sp (s : State) : BitVec 32 := spTrunc s.stack32 (s.reg .w32 rSP)

/-- The general registers after `SPw <- v`: ESP, or its low half. -/
def State.gprWithSp (s : State) (v : BitVec 32) : Oct (BitVec 32) :=
  if s.stack32 then regWrite s.gpr .w32 rSP v else regWrite s.gpr .w16 rSP (v.extractLsb' 0 16)

/-- `SPw <- v` (R112). -/
def setSp (v : BitVec 32) : M Unit := updS (fun s => s.setGpr (s.gprWithSp v))

/-- `SPw` moved by a number of bytes: the sum wraps at its width. -/
def State.spAdd (s : State) (d : BitVec 32) : BitVec 32 := spTrunc s.stack32 (s.sp + d)

/-- `Push_n(v)` (R112). On the 80286 in real-address mode a push with SP = 1 is a shutdown (R604). -/
def push (w : Width) (v : Val w) : M Unit := do
  let s ← getS
  if s.cfg.cpu = .p286 ∧ s.sys.cr0.pe = false ∧ s.sp = 1#32 then throw .shutdown
  else
    let t := s.spAdd (-(BitVec.ofNat 32 w.bytes))
    segWriteV w .ss t v
    setSp t

/-- `Pop_n()` (R112). -/
def pop (w : Width) : M (Val w) := do
  let s ← getS
  let v ← segReadV w .ss s.sp
  setSp (s.spAdd (BitVec.ofNat 32 w.bytes))
  pure v

/-- A selector as an item of a width: the upper half of a 32-bit item is undefined (R210, U4). -/
def selItem (w : Width) (sel : BitVec 16) : M (Val w) :=
  match w with
  | .w8 => pure (sel.extractLsb' 0 8)
  | .w16 => pure sel
  | .w32 => do
    let u ← drawWord
    pure (u ++ sel)

/-- Push a selector (R210, R612). -/
def pushSel (w : Width) (sel : BitVec 16) : M Unit := do
  let v ← selItem w sel
  push w v

/-- The low half of a stack item: a selector. -/
def itemSel {w : Width} (v : Val w) : BitVec 16 := v.setWidth 16

/-- Pop a selector: the low half of the item. -/
def popSel (w : Width) : M (BitVec 16) := do
  let v ← pop w
  pure (itemSel v)

/-- A stack segment holds `k` more items of `n` bytes below a stack pointer (R606, R612). -/
def stackHolds (r : SegReg) (sp : BitVec 32) (n : Nat) : (k : Nat) → Bool
  | 0 => true
  | k + 1 =>
    let t := spTrunc r.db (sp - BitVec.ofNat 32 (n * (k + 1)))
    segHolds r t n && stackHolds r sp n k

/-- The stack must hold `k` more items, else #SS(0), before the first is written (R212, R380, R612). -/
def requireRoom (w : Width) (k : Nat) : M Unit := do
  let s ← getS
  if stackHolds s.segs.ss s.sp w.bytes k then pure () else raiseSS 0#16

/-- The room for `k` pushes outside protected mode (R380): on the 80286 a push that would wrap is a shutdown (R85, R604),
here before any of them is made (log entry 23). -/
def requireRoomReal (w : Width) (k : Nat) : M Unit := do
  let s ← getS
  if s.cfg.cpu = .p286 ∧ stackHolds s.segs.ss s.sp w.bytes k = false then throw .shutdown
  else requireRoom w k

/-- On the 80386 and 80486 the segment checks of a sequence of `k` pushes are made before the first write (R606). -/
def checkPushes (w : Width) (k : Nat) : M Unit := do
  let s ← getS
  if s.has386 then requireRoom w k else pure ()

/-! Descriptors (R87 to R93). -/

/-- A descriptor as the processor reads it: base, scaled limit (R93), access-rights byte, D or B bit, G bit, and
where it stands. `hi` is its second doubleword. -/
structure Desc where
  base : BitVec 32
  limit : BitVec 32
  access : BitVec 8
  db : Bool
  g : Bool
  hi : BitVec 32
  addr : BitVec 32
deriving DecidableEq, Repr

/-- `ScaledLimit` (R93). -/
def scaledLimit (raw : BitVec 20) (g : Bool) : BitVec 32 :=
  if g then raw ++ 0xFFF#12 else raw.setWidth 32

/-- A descriptor from its two doublewords (R88); an 80286 has a 24-bit base, a 16-bit limit and no D, G. -/
def Desc.ofWords (is386 : Bool) (lo hi addr : BitVec 32) : Desc :=
  if is386 then
    { base := hi.extractLsb' 24 8 ++ hi.extractLsb' 0 8 ++ lo.extractLsb' 16 16
      limit := scaledLimit (hi.extractLsb' 16 4 ++ lo.extractLsb' 0 16) (bitOf hi 23)
      access := hi.extractLsb' 8 8, db := bitOf hi 22, g := bitOf hi 23, hi := hi, addr := addr }
  else
    { base := 0#8 ++ hi.extractLsb' 0 8 ++ lo.extractLsb' 16 16
      limit := (lo.extractLsb' 0 16).setWidth 32
      access := hi.extractLsb' 8 8, db := false, g := false, hi := hi, addr := addr }

/-- The linear address of the descriptor a selector names, if it lies within its table (R87); a selector of the
local table names nothing while LDTR holds no usable table. -/
def State.descAddr (s : State) (sel : BitVec 16) : Option (BitVec 32) :=
  let i := selIndex sel * 8
  if selLocal sel then
    if s.sys.ldtr.usable && decide (i + 7 ≤ s.sys.ldtr.limit.toNat) then
      some (s.sys.ldtr.base + BitVec.ofNat 32 i)
    else none
  else if i + 7 ≤ s.sys.gdtr.limit.toNat then some (s.sys.gdtr.base + BitVec.ofNat 32 i)
  else none

/-- Read the eight bytes of a descriptor with supervisor rights (R90). -/
def descAt (addr : BitVec 32) : M Desc := do
  let lo ← sysRead addr 4
  let hi ← sysRead (addr + 4#32) 4
  let s ← getS
  pure (Desc.ofWords s.has386 (leVal 32 lo) (leVal 32 hi) addr)

/-- `ReadDescriptor(sel)` (R87): what to raise beyond the table limit is the caller's. -/
def readDesc (sel : BitVec 16) (beyond : M Desc) : M Desc := do
  let s ← getS
  match s.descAddr sel with
  | some a => descAt a
  | none => beyond

/-- Set the accessed bit of a descriptor in memory if it is 0 (R91). -/
def setAccessed (d : Desc) : M Unit :=
  if bitOf d.access 0 then pure () else sysWrite (d.addr + 5#32) [arAccessed d.access]

/-- A segment register loaded from a descriptor (R91). -/
def Desc.toSeg (d : Desc) (sel : BitVec 16) : SegReg :=
  { sel := sel, base := d.base, limit := d.limit, access := arAccessed d.access, db := d.db, g := d.g
    usable := true }

/-- A segment register after a null selector (R91): it cannot be used. -/
def SegReg.toNull (r : SegReg) (sel : BitVec 16) : SegReg := { r with sel := sel, usable := false }

/-- A segment register loaded in real-address or virtual-8086 mode (R27, R91): base = selector * 16, limit and
attributes kept. -/
def SegReg.toReal (r : SegReg) (sel : BitVec 16) : SegReg :=
  { r with sel := sel, base := (sel.setWidth 32) <<< 4, usable := true }

/-- The larger privilege number. -/
def maxPl (a b : BitVec 2) : BitVec 2 := if a.toNat ≤ b.toNat then b else a

/-- The checks on a descriptor to be loaded into SS at a level (R91). -/
def checkStackDesc (sel : BitVec 16) (d : Desc) (level : BitVec 2) (wrong notPresent : M Unit) : M Unit :=
  if selRpl sel ≠ level ∨ arWritable d.access = false ∨ arDpl d.access ≠ level then wrong
  else if arPresent d.access = false then notPresent
  else pure ()

/-- The checks on a descriptor to be loaded into DS, ES, FS or GS (R91). -/
def checkDataDesc (sel : BitVec 16) (d : Desc) (cpl : BitVec 2) : M Unit :=
  if arReadable d.access = false then raiseGP (selErr sel)
  else if arConforming d.access = false ∧ (arDpl d.access).toNat < (maxPl cpl (selRpl sel)).toNat then
    raiseGP (selErr sel)
  else if arPresent d.access = false then raiseNP (selErr sel)
  else pure ()

/-- `LoadSeg(k, sel)` (R91). -/
def loadSeg (k : SReg) (sel : BitVec 16) : M Unit := do
  let s ← getS
  if !s.protMode then putSeg k ((s.segs.get k).toReal sel)
  else if selNull sel then
    if k = .ss then raiseGP 0#16 else putSeg k ((s.segs.get k).toNull sel)
  else
    let d ← readDesc sel (raiseGP (selErr sel))
    (if k = .ss then checkStackDesc sel d s.cpl (raiseGP (selErr sel)) (raiseSS (selErr sel))
      else checkDataDesc sel d s.cpl)
    setAccessed d
    putSeg k (d.toSeg sel)

end Sys2Proof.Machine
end

