-- ==== Sys2Proof/Machine/Ops.lean ====
section
/-! DEFINITION. The shared operations of the machine: near and far transfers (R370, R380, R383), taking an interrupt
or exception (R600 to R612) with what a fault restores (R606) and the double fault (R604), the return from one
(R413), and how the outcome of a computation becomes the outcome of a step. -/

namespace Sys2Proof.Machine

/-! Near transfers (R370). -/

/-- `IPmask` (46_control_transfer.md): the low 16 bits when OS = 16. -/
def ipMask (os : Size) (t : BitVec 32) : BitVec 32 :=
  match os with
  | .s16 => (t.extractLsb' 0 16).setWidth 32
  | .s32 => t

/-- The check of a near transfer (R370). -/
def checkTarget (t : BitVec 32) : M Unit := do
  let s ← getS
  if s.segs.cs.limit.toNat < t.toNat then raiseGP 0#16 else pure ()

/-- A near transfer to `t` (R370). -/
def nearTransfer (t : BitVec 32) : M Unit := do
  let s ← getS
  let t' := ipMask s.os t
  checkTarget t'
  jumpTo t'

/-- A signed displacement, extended (R370). -/
def Imm.disp : Imm → BitVec 32
  | .i8 v => v.signExtend 32
  | .i16 v => v.signExtend 32
  | .i32 v => v

/-- The target of a relative transfer (R370). -/
def State.relTarget (s : State) (d : BitVec 32) : BitVec 32 := s.nextIP + d

/-- A near relative jump (R370). -/
def jumpRel (d : BitVec 32) : M Unit := do
  let s ← getS
  nearTransfer (s.relTarget d)

/-- A near call to `t`: target checked, next IP pushed, then the transfer (R371). -/
def callTo (t : BitVec 32) : M Unit := do
  let s ← getS
  let t' := ipMask s.os t
  checkTarget t'
  push s.os.width (s.nextIP.setWidth s.os.width.bits)
  jumpTo t'

/-! Far transfers (R380). -/

inductive FarKind where
  | jmp | call
deriving DecidableEq, Repr

/-- The descriptor types of gates and task state segments a far transfer may name, all refused (R380, D12). -/
def isGateOrTask (is386 : Bool) (t : Nat) : Bool :=
  t == 1 || t == 4 || t == 5 || (is386 && (t == 9 || t == 12))

/-- The return address of a far call: CS, then next IP (R380). -/
def pushReturn (os : Size) : M Unit := do
  let s ← getS
  pushSel os.width s.segs.cs.sel
  push os.width (s.nextIP.setWidth os.width.bits)

/-- `FarTransfer` in real-address and virtual-8086 mode (R380). -/
def farReal (sel : BitVec 16) (off : BitVec 32) (kind : FarKind) : M Unit := do
  let s ← getS
  if 65535 < off.toNat then raiseGP 0#16
  else
    match kind with
    | .jmp => pure ()
    | .call => do
      requireRoomReal s.os.width 2
      pushReturn s.os
    putSeg .cs (s.segs.cs.toReal sel)
    jumpTo off

/-- Load CS from a code descriptor at a level (R380): the selector's low bits become the level. -/
def loadCs (d : Desc) (sel : BitVec 16) (level : BitVec 2) : M Unit := do
  setAccessed d
  putSeg .cs (d.toSeg (selErr sel ||| level.setWidth 16))

/-- `FarTransfer` in protected mode (R380). -/
def farProt (sel : BitVec 16) (off : BitVec 32) (kind : FarKind) : M Unit := do
  if selNull sel then raiseGP 0#16
  else
    let s ← getS
    let d ← readDesc sel (raiseGP (selErr sel))
    if arCode d.access then
      if arConforming d.access = true ∧ s.cpl.toNat < (arDpl d.access).toNat then raiseGP (selErr sel)
      else if arConforming d.access = false ∧
          (s.cpl.toNat < (selRpl sel).toNat ∨ arDpl d.access ≠ s.cpl) then raiseGP (selErr sel)
      else if arPresent d.access = false then raiseNP (selErr sel)
      else if d.limit.toNat < (ipMask s.os off).toNat then raiseGP 0#16
      else
        match kind with
        | .jmp => pure ()
        | .call => do
          requireRoom s.os.width 2
          pushReturn s.os
        loadCs d sel s.cpl
        jumpTo (ipMask s.os off)
    else if arSegment d.access then raiseGP (selErr sel)
    else if isGateOrTask s.has386 (arType d.access) then refuse .callGateOrTask
    else raiseGP (selErr sel)

/-- `FarTransfer(sel, off, kind)` (R380). -/
def farTransfer (sel : BitVec 16) (off : BitVec 32) (kind : FarKind) : M Unit := do
  let s ← getS
  if s.protMode then farProt sel off kind else farReal sel off kind

/-! Far returns (R383) and IRET (R413). -/

/-- Read the stack item of a width `k` bytes above the top, without popping. -/
def peek (w : Width) (k : Nat) : M (Val w) := do
  let s ← getS
  segReadV w .ss (s.spAdd (BitVec.ofNat 32 k))

/-- A data segment register that an outer level may not keep is made null (R383); one that is already unusable keeps
its selector (log entry 68). -/
def SegReg.dropFor (r : SegReg) (level : BitVec 2) : SegReg :=
  if r.usable && (arData r.access || !arConforming r.access) && decide ((arDpl r.access).toNat < level.toNat) then
    { r with sel := 0#16, usable := false }
  else r

/-- The four data segment registers after a return to an outer level (R383). -/
def SegRegs.dropFor (r : SegRegs) (level : BitVec 2) : SegRegs :=
  { r with ds := r.ds.dropFor level, es := r.es.dropFor level, fs := r.fs.dropFor level, gs := r.gs.dropFor level }

/-- The checks on the code descriptor of a return (R383). -/
def checkReturnCode (sel : BitVec 16) (d : Desc) (o : BitVec 32) : M Unit :=
  if arCode d.access = false then raiseGP (selErr sel)
  else if arConforming d.access = true ∧ (selRpl sel).toNat < (arDpl d.access).toNat then raiseGP (selErr sel)
  else if arConforming d.access = false ∧ arDpl d.access ≠ selRpl sel then raiseGP (selErr sel)
  else if arPresent d.access = false then raiseNP (selErr sel)
  else if d.limit.toNat < o.toNat then raiseGP 0#16
  else pure ()

/-- The part of R383 after the items are read: `o`, `sel` are the return address, `items` how many items of `w` stand
on the stack before the outer stack pointer, `k` the bytes to release. A 16-bit `nsp` is zero-extended and `k` added
in 32 bits, all of which go to ESP where the outer stack segment is a 32-bit one (log entry 63). -/
def returnProt (w : Width) (o : BitVec 32) (sel : BitVec 16) (items : Nat) (k : BitVec 32) : M Unit := do
  let s ← getS
  let above := BitVec.ofNat 32 (items * w.bytes) + k
  if selNull sel then raiseGP 0#16
  else if (selRpl sel).toNat < s.cpl.toNat then raiseGP (selErr sel)
  else
    let d ← readDesc sel (raiseGP (selErr sel))
    checkReturnCode sel d o
    if selRpl sel = s.cpl then
      loadCs d sel (selRpl sel)
      setSp (s.spAdd above)
      jumpTo o
    else
      let nsp ← segReadV w .ss (s.spAdd above)
      let nssItem ← segReadV w .ss (s.spAdd (above + BitVec.ofNat 32 w.bytes))
      let nss := itemSel nssItem
      if selNull nss then raiseGP 0#16
      else
        let e ← readDesc nss (raiseGP (selErr nss))
        checkStackDesc nss e (selRpl sel) (raiseGP (selErr nss)) (raiseSS (selErr nss))
        updSys (fun y => { y with cpl := selRpl sel })
        loadCs d sel (selRpl sel)
        setAccessed e
        putSeg .ss (e.toSeg nss)
        setSp (nsp.setWidth 32 + k)
        updS (fun t => t.setSegs (t.segs.dropFor (selRpl sel)))
        jumpTo o

/-- `FarReturn(k)` (R383). -/
def farReturn (k : BitVec 16) : M Unit := do
  let s ← getS
  let w := s.os.width
  let oItem ← peek w 0
  let sItem ← peek w w.bytes
  let o := oItem.setWidth 32
  let sel := itemSel sItem
  let kk := k.setWidth 32
  if s.protMode then returnProt w o sel 2 kk
  else if 65535 < o.toNat then raiseGP 0#16
  else
    putSeg .cs (s.segs.cs.toReal sel)
    setSp (s.spAdd (BitVec.ofNat 32 (2 * w.bytes) + kk))
    jumpTo o

/-- Which flags an instruction that loads the flag register may change (R246, R413). -/
structure FlagRights where
  ifOk : Bool
  ioplOk : Bool
  ntOk : Bool
deriving DecidableEq, Repr

/-- IF may be changed when CPL <= IOPL, IOPL when CPL = 0; in real-address mode both, but on the 80286 IOPL and NT
stay 0 there (R246, R28). -/
def State.flagRights (s : State) : FlagRights :=
  let real286 := !s.sys.cr0.pe && !s.has386
  { ifOk := decide (s.cpl.toNat ≤ s.flags.iopl.toNat) || !s.sys.cr0.pe
    ioplOk := s.cpl == 0#2 && !real286
    ntOk := !real286 }

/-- The status flags, TF and DF from a word, and IF, IOPL, NT as allowed (R246, R413). -/
def Flags.load16 (f : Flags) (v : BitVec 32) (r : FlagRights) : Flags :=
  let n := Flags.ofWord v
  { f with
    cf := n.cf, pf := n.pf, af := n.af, zf := n.zf, sf := n.sf, tf := n.tf, df := n.df, ovf := n.ovf
    nt := if r.ntOk then n.nt else f.nt
    ie := if r.ifOk then n.ie else f.ie
    iopl := if r.ioplOk then n.iopl else f.iopl }

/-- `LoadFlags(f, n, cpl0)` of IRET (R413). -/
def State.irFlags (s : State) (v : BitVec 32) (os : Size) : Flags :=
  let f := s.flags.load16 v s.flagRights
  let n := Flags.ofWord v
  match os with
  | .s16 => f
  | .s32 => { f with rf := n.rf, ac := if s.has486 then n.ac else f.ac }

/-- IRET ends the NMI block (R618), and a single-step trap that was held until then is pending again (R604, log
entry 80). -/
def Ctl.afterIret (c : Ctl) : Ctl :=
  { c with nmiBlocked := false, dbPending := c.dbPending || c.trapHeld, trapHeld := false }

/-- What IRET does to the boundary's state, in every mode (R618, R604). -/
def unblockNmi : M Unit := updCtl Ctl.afterIret

/-- IRET in real-address mode and, with IOPL = 3, in virtual-8086 mode (R413). -/
def iretReal : M Unit := do
  let s ← getS
  let w := s.os.width
  let oItem ← pop w
  let sItem ← pop w
  let fItem ← pop w
  let o := oItem.setWidth 32
  if 65535 < o.toNat then raiseGP 0#16
  else
    putSeg .cs (s.segs.cs.toReal (itemSel sItem))
    updS (fun t => t.setFlags (s.irFlags (fItem.setWidth 32) s.os))
    unblockNmi
    jumpTo o

/-- A segment register in virtual-8086 mode after IRET (R413): base = selector * 16, limit FFFF; its rights are those
of R84, and its B/D and G bits are 0 (log entry 20). -/
def SegReg.v86 (sel : BitVec 16) (access : BitVec 8) : SegReg :=
  ⟨sel, (sel.setWidth 32) <<< 4, 0xFFFF#32, access, false, false, true⟩

/-- The return to virtual-8086 mode (R413). -/
def iretToV86 (o : BitVec 32) (sel : BitVec 16) (f : BitVec 32) : M Unit := do
  let spItem ← peek .w32 12
  let ss ← peek .w32 16
  let es ← peek .w32 20
  let ds ← peek .w32 24
  let fs ← peek .w32 28
  let gs ← peek .w32 32
  let data := 0x93#8
  updS (fun t =>
    let fl := Flags.ofWord f
    let t1 := t.setFlags { fl with ac := fl.ac && t.has486 }
    let t2 := t1.setSegs
      { es := SegReg.v86 (itemSel (w := .w32) es) data, cs := SegReg.v86 sel 0x9B#8
        ss := SegReg.v86 (itemSel (w := .w32) ss) data, ds := SegReg.v86 (itemSel (w := .w32) ds) data
        fs := SegReg.v86 (itemSel (w := .w32) fs) data, gs := SegReg.v86 (itemSel (w := .w32) gs) data }
    (t2.setSys { t2.sys with cpl := 3#2 }).setGpr (regWrite t2.gpr .w32 rSP spItem))
  unblockNmi
  jumpTo (o &&& 0xFFFF#32)

/-- IRET in protected mode (R413). -/
def iretProt : M Unit := do
  let s ← getS
  let w := s.os.width
  if s.flags.nt then refuse .nestedTaskReturn
  else
    let oItem ← peek w 0
    let sItem ← peek w w.bytes
    let fItem ← peek w (2 * w.bytes)
    let o := oItem.setWidth 32
    let f := fItem.setWidth 32
    if s.os = .s32 ∧ bitOf f 17 = true ∧ s.cpl = 0#2 then iretToV86 o (itemSel sItem) f
    else
      returnProt w o (itemSel sItem) 3 0#32
      updS (fun t => t.setFlags (s.irFlags f s.os))
      unblockNmi

/-- The interrupt return (R413). -/
def interruptReturn : M Unit := do
  let s ← getS
  if s.protMode then iretProt
  else if s.v86 && s.flags.iopl != 3#2 then raiseGP 0#16
  else iretReal

/-! Taking an interrupt or exception (R600 to R612). -/

/-- What is being taken (R601): INT n, INT 3, INTO; a fault; an abort; the single-step trap (R635); NMI (R618); a request
of the IRQ stream (R617, D10); the coprocessor's request, which holds until it is withdrawn (R641). -/
inductive EventKind where
  | software | fault | abort | trap | nmi | request | irq13
deriving DecidableEq, Repr

/-- An interrupt or exception to take (R610, R612): vector, class, the offset to save, the error code. -/
structure Event where
  vector : BitVec 8
  kind : EventKind
  ret : BitVec 32
  code : Option (BitVec 16)
deriving DecidableEq, Repr

/-- EXT of the error codes raised while it is delivered (R602, R612). -/
def Event.ext (e : Event) : BitVec 16 :=
  match e.kind with
  | .software => 0#16
  | .fault => 1#16
  | .abort => 1#16
  | .trap => 1#16
  | .nmi => 1#16
  | .request => 1#16
  | .irq13 => 1#16

/-- `v*8 + 2 + EXT` (R612). -/
def Event.idtCode (e : Event) : BitVec 16 := e.vector.setWidth 16 * 8#16 + 2#16 + e.ext

/-- The flags image that is saved: RF is 1 for a fault on the 80386 and 80486 and 0 for a trap or interrupt (R606), and 0
for an abort (log entry 71). -/
def State.savedFlags (s : State) (e : Event) : BitVec 32 :=
  match e.kind with
  | .fault => { s.flags with rf := s.flags.rf || s.has386 }.word
  | .software => { s.flags with rf := false }.word
  | .abort => { s.flags with rf := false }.word
  | .trap => { s.flags with rf := false }.word
  | .nmi => { s.flags with rf := false }.word
  | .request => { s.flags with rf := false }.word
  | .irq13 => { s.flags with rf := false }.word

/-- A stack fault while an interrupt is entered in real-address mode is a shutdown (R610). -/
def orShutdown {α : Type} (m : M α) : M α := fun s =>
  match m s with
  | .ok a s' => .ok a s'
  | .error (.exc e) s' => if e.vector = 12#8 then .error .shutdown s' else .error (.exc e) s'
  | .error r s' => .error r s'

/-- Entry in real-address mode (R610). -/
def enterReal (e : Event) : M Unit := do
  let s ← getS
  let at4 := e.vector.toNat * 4
  if s.sys.idtr.limit.toNat < at4 + 3 then raiseExc 8#8 (some 0#16)
  else
    orShutdown (checkPushes .w16 3)
    orShutdown (push .w16 ((s.savedFlags e).extractLsb' 0 16))
    updFlags (fun f => { f with ie := false, tf := false, ac := f.ac && !s.has486 })
    orShutdown (push .w16 s.segs.cs.sel)
    orShutdown (push .w16 (e.ret.extractLsb' 0 16))
    let o ← sysRead (s.sys.idtr.base + BitVec.ofNat 32 at4) 2
    let sel ← sysRead (s.sys.idtr.base + BitVec.ofNat 32 (at4 + 2)) 2
    putSeg .cs (s.segs.cs.toReal (leVal 16 sel))
    updS (fun t => t.setEip (leVal 32 o))

/-- A gate of the interrupt descriptor table (R611). -/
structure Gate where
  sel : BitVec 16
  off : BitVec 32
  access : BitVec 8
deriving DecidableEq, Repr

/-- A gate from its two doublewords (R611): an 80286 gate has a 16-bit offset. -/
def Gate.ofWords (lo hi : BitVec 32) : Gate :=
  let access := hi.extractLsb' 8 8
  let wide := arType access == 14 || arType access == 15
  { sel := lo.extractLsb' 16 16
    off := (if wide then hi.extractLsb' 16 16 else 0#16) ++ lo.extractLsb' 0 16
    access := access }

/-- The item width of a gate (R611). -/
def Gate.width (g : Gate) : Width := if arType g.access == 14 || arType g.access == 15 then .w32 else .w16

/-- The types an interrupt descriptor table entry may have (R611); the system types have S = 0. -/
def Gate.known (g : Gate) (is386 : Bool) : Bool :=
  let t := arType g.access
  !arSegment g.access && (t == 5 || t == 6 || t == 7 || (is386 && (t == 14 || t == 15)))

/-- An interrupt gate clears IF (R612). -/
def Gate.clearsIf (g : Gate) : Bool := arType g.access == 6 || arType g.access == 14

/-- `sel + EXT` in an error code (R612). -/
def selExt (sel : BitVec 16) (e : Event) : BitVec 16 := selErr sel ||| e.ext

/-- The stack pointer for an inner level from the task state segment (R612): the segment and the pointer, and whether
the pointer is 32 bits. A TR that holds no task state segment is an invalid one (log entry 22). -/
def innerStack (p : BitVec 2) (e : Event) : M (BitVec 16 × BitVec 32 × Bool) := do
  let s ← getS
  let tr := s.sys.tr
  let bad : M (BitVec 16 × BitVec 32 × Bool) := raiseTS (selExt tr.sel e)
  if !tr.usable then bad
  else if arType tr.access = 1 ∨ arType tr.access = 3 then
    let at2 := 2 + 4 * p.toNat
    if tr.limit.toNat < at2 + 3 then bad
    else
      let sp ← sysRead (tr.base + BitVec.ofNat 32 at2) 2
      let ss ← sysRead (tr.base + BitVec.ofNat 32 (at2 + 2)) 2
      pure (leVal 16 ss, leVal 32 sp, false)
  else if arType tr.access = 9 ∨ arType tr.access = 11 then
    let at4 := 4 + 8 * p.toNat
    if tr.limit.toNat < at4 + 5 then bad
    else
      let sp ← sysRead (tr.base + BitVec.ofNat 32 at4) 4
      let ss ← sysRead (tr.base + BitVec.ofNat 32 (at4 + 4)) 2
      pure (leVal 16 ss, leVal 32 sp, true)
  else bad

/-- Push the error code if there is one (R602, R612). -/
def pushCode (w : Width) (c : Option (BitVec 16)) : M Unit :=
  match c with
  | none => pure ()
  | some v => push w (v.setWidth w.bits)

/-- How many items an entry pushes (R612). -/
def entryItems (base : Nat) (c : Option (BitVec 16)) : Nat :=
  match c with
  | none => base
  | some _ => base + 1

/-- Push SS and (E)SP, the flags, CS and the return address (R612). -/
def pushFrame (w : Width) (s : State) (e : Event) : M Unit := do
  push w ((s.savedFlags e).setWidth w.bits)
  pushSel w s.segs.cs.sel
  push w (e.ret.setWidth w.bits)
  pushCode w e.code

/-- The flags after an entry in protected mode (R612). -/
def Flags.entered (f : Flags) (clearIf : Bool) : Flags :=
  { f with tf := false, nt := false, rf := false, vm := false, ie := f.ie && !clearIf }

/-- Entry to an inner level, also from virtual-8086 mode (R612). The pointer of an 80286 task state segment is all of
ESP where the new stack segment is a 32-bit one (log entry 63). -/
def enterInner (e : Event) (g : Gate) (d : Desc) : M Unit := do
  let s ← getS
  let p := arDpl d.access
  let w := g.width
  if s.v86 && p != 0#2 then raiseGP (selExt g.sel e)
  else if s.v86 && w == .w16 then refuse .gate16FromV86
  else
    let (nss, nsp, wide) ← innerStack p e
    let ts : M Unit := raiseTS (selExt nss e)
    if selNull nss then ts
    else
      let n ← readDesc nss (raiseTS (selExt nss e))
      checkStackDesc nss n p ts (raiseSS (selExt nss e))
      let nseg := n.toSeg nss
      if !stackHolds nseg (spTrunc nseg.db nsp) w.bytes (entryItems (if s.v86 then 9 else 5) e.code) then
        raiseSS 0#16
      else if d.limit.toNat < g.off.toNat then raiseGP 0#16
      else
        updFlags (fun f => { f with vm := false })
        updSys (fun y => { y with cpl := p })
        setAccessed n
        putSeg .ss nseg
        updS (fun t => t.setGpr
          (if wide || nseg.db then regWrite t.gpr .w32 rSP nsp
            else regWrite t.gpr .w16 rSP (nsp.extractLsb' 0 16)))
        (if s.v86 then do
          pushSel .w32 s.segs.gs.sel
          pushSel .w32 s.segs.fs.sel
          pushSel .w32 s.segs.ds.sel
          pushSel .w32 s.segs.es.sel
          updS (fun t => t.setSegs { t.segs with
            gs := t.segs.gs.toNull 0#16, fs := t.segs.fs.toNull 0#16
            ds := t.segs.ds.toNull 0#16, es := t.segs.es.toNull 0#16 })
        else pure ())
        pushSel w s.segs.ss.sel
        push w (s.reg w rSP)
        pushFrame w s e
        loadCs d g.sel p
        updS (fun t => t.setEip g.off)

/-- Entry at the same level (R612). -/
def enterSame (e : Event) (g : Gate) (d : Desc) : M Unit := do
  let s ← getS
  let w := g.width
  if s.v86 then raiseGP (selExt g.sel e)
  else
    requireRoom w (entryItems 3 e.code)
    if d.limit.toNat < g.off.toNat then raiseGP 0#16
    else
      pushFrame w s e
      loadCs d g.sel s.cpl
      updS (fun t => t.setEip g.off)

/-- Entry in protected mode and from virtual-8086 mode (R612). -/
def enterProt (e : Event) : M Unit := do
  let s ← getS
  let at8 := e.vector.toNat * 8
  if s.sys.idtr.limit.toNat < at8 + 7 then raiseGP e.idtCode
  else
    let lo ← sysRead (s.sys.idtr.base + BitVec.ofNat 32 at8) 4
    let hi ← sysRead (s.sys.idtr.base + BitVec.ofNat 32 (at8 + 4)) 4
    let g := Gate.ofWords (leVal 32 lo) (leVal 32 hi)
    if !g.known s.has386 then raiseGP e.idtCode
    else if e.kind = .software ∧ (arDpl g.access).toNat < s.cpl.toNat then raiseGP e.idtCode
    else if !arPresent g.access then raiseNP e.idtCode
    else if arType g.access = 5 then refuse .taskGate
    else if selNull g.sel then raiseGP e.ext
    else
      let d ← readDesc g.sel (raiseGP (selExt g.sel e))
      if arCode d.access = false ∨ s.cpl.toNat < (arDpl d.access).toNat then raiseGP (selExt g.sel e)
      else if !arPresent d.access then raiseNP (selExt g.sel e)
      else
        (if arConforming d.access = false ∧ (arDpl d.access).toNat < s.cpl.toNat then enterInner e g d
          else enterSame e g d)
        updFlags (fun f => f.entered g.clearsIf)

/-- Taking an interrupt or exception (R610, R612). It ends the instruction in progress, wakes a halted processor
(R420), empties the prefetch queue (R117), and drops a pending single-step trap and an interrupt shadow, of STI or of
a load of SS, that has not run out (log entry 43). -/
def enter (e : Event) : M Unit := do
  let s ← getS
  (if s.sys.cr0.pe then enterProt e else enterReal e)
  flushQueue
  updS (fun t => (t.setCur Cur.start).setCtl
    { t.ctl with activity := .running, shadow := .none, prevShadow := .none, dbPending := false })

/-- What a fault restores (R606): everything but memory, the translation buffer, CR2, and what was asked of the
platform; the draws stay drawn (log entry 17). -/
def restore (s0 s1 : State) : State :=
  { s0 with
    mem := s1.mem, tlb := s1.tlb, stored := s1.stored, env := s1.env, draws := s1.draws
    sys := { s0.sys with cr2 := s1.sys.cr2 } }

/-- The state in shutdown (R604). -/
def State.toShutdown (s : State) : State :=
  (s.setCur Cur.start).setCtl { s.ctl with activity := .shutdown }

/-- Contributory exceptions (R604). -/
def contributory (v : BitVec 8) : Bool :=
  v == 0#8 || v == 10#8 || v == 11#8 || v == 12#8 || v == 13#8

/-- The class of an exception vector (R600): 8 and 9 are aborts. -/
def excKind (v : BitVec 8) : EventKind := if v = 8#8 ∨ v = 9#8 then .abort else .fault

/-- An exception of the instruction at `eip` (R601). -/
def excEvent (x : Exc) (eip : BitVec 32) : Event := ⟨x.vector, excKind x.vector, eip, x.code⟩

/-- The event was an exception, not an interrupt instruction or an external interrupt. -/
def Event.isException (e : Event) : Bool := e.kind == .fault || e.kind == .abort

/-- What an exception during delivery becomes (R604): a double fault, or itself. -/
def nextEvent (e : Event) (x : Exc) (eip : BitVec 32) : Event :=
  if e.isException &&
      ((contributory e.vector && contributory x.vector) ||
        (e.vector == 14#8 && (contributory x.vector || x.vector == 14#8))) then
    ⟨8#8, .abort, eip, some 0#16⟩
  else excEvent x eip

/-- The first of two events that are handled serially recurs on restart (R604): a fault, an abort and an interrupt
instruction by the instruction itself, which starts again; a trap and an NMI are held until the next IRET, the NMI by
the block that taking it set; a request of the stream is the stream's next again, and the coprocessor's request still
stands (log entry 80). -/
def State.recurring (s : State) (e : Event) : State :=
  match e.kind with
  | .software => s
  | .fault => s
  | .abort => s
  | .trap => s.setCtl { s.ctl with trapHeld := true }
  | .nmi => s.setCtl { s.ctl with nmiPending := true }
  | .request => s.setEnv { s.env with irqIn := some e.vector :: s.env.irqIn }
  | .irq13 => s

/-- Deliver an event with the exceptions that arise meanwhile (R604): the second is delivered and the first recurs; a
fault while the double fault is delivered is a shutdown. The first argument bounds the chain (log entry 18). -/
def deliverWithin : Nat → Event → State → Host.Outcome State Fault Refusal
  | 0, _, _ => .fault .deliveryLoop
  | n + 1, e, s =>
    match enter e s with
    | .ok _ s1 => .next s1
    | .error (.exc x) s1 =>
      if e.isException && e.vector == 8#8 then .next (restore s s1).toShutdown
      else deliverWithin n (nextEvent e x s.eip) ((restore s s1).recurring e)
    | .error .shutdown s1 => .next (restore s s1).toShutdown
    | .error .waiting _ => .fault .deliveryLoop
    | .error (.fault f) _ => .fault f
    | .error (.refuse r) _ => .refused r

/-- Deliver an event (R610, R612, R604). -/
def deliver (e : Event) (s : State) : Host.Outcome State Fault Refusal := deliverWithin 8 e s

/-! From a computation to the outcome of a step. -/

/-- An NMI can still come and would be taken (R618). -/
def State.nmiAhead (s : State) : Bool :=
  !s.ctl.nmiBlocked && (s.ctl.nmiPending || s.env.nmiIn.any (fun b => b))

/-- A maskable interrupt can still come and would be taken (R617, R641). -/
def State.irqAhead (s : State) : Bool :=
  s.flags.ie && (s.link.irq13 || s.env.irqIn.any (fun v => v.isSome))

/-- The processor waits for 'busy' (R619, R641): the instruction starts again at its first prefix, and events are
recognised before it; a wait that no event can end is a deadlock (log entry 16). The shadow of an STI or of a load
of SS before it ends with the first attempt (log entry 59). -/
def waitAgain (s : State) : Host.Outcome State Fault Refusal :=
  if s.nmiAhead || s.irqAhead then
    .next ((s.setCur Cur.start).setCtl { s.ctl with shadow := .none, dbPending := false })
  else .fault .deadlock

/-- The outcome of a meaning: its state, or the exception it raises taken from the state a fault restores. -/
def finish (m : M Unit) (s : State) : Host.Outcome State Fault Refusal :=
  match m s with
  | .ok _ s' => .next s'
  | .error (.exc x) s1 => deliver (excEvent x s.eip) (restore s s1)
  | .error .waiting s1 => waitAgain (restore s s1)
  | .error .shutdown s1 => .next (restore s s1).toShutdown
  | .error (.fault f) _ => .fault f
  | .error (.refuse r) _ => .refused r

/-- INT n, INT 3 and a taken INTO (R409 to R411). -/
def softwareInterrupt (v : BitVec 8) (s : State) : Host.Outcome State Fault Refusal :=
  deliver ⟨v, .software, s.nextIP, none⟩ s

end Sys2Proof.Machine
end

