-- ==== Sys2Proof/Machine/Operands.lean ====
section
/-! DEFINITION. Operand forms: effective addresses (R142 to R145, R82), the segment an operand uses (R81, R134),
register or memory operands (40_data_transfer.md), immediates (R154, R158), the accumulator (R22), ports (R72). -/

namespace Sys2Proof.Machine

/-- The width of a `w` form (R8, R150). -/
def State.opW (s : State) (w : Bool) : Width := if w then s.os.width else .w8

/-- A displacement in 16-bit mode: 8 bits sign-extended (R142). -/
def Disp.val16 : Disp → BitVec 16
  | .none => 0#16
  | .d8 v => v.signExtend 16
  | .d16 v => v
  | .d32 v => v.extractLsb' 0 16

/-- A displacement in 32-bit mode: 8 bits sign-extended (R143). -/
def Disp.val32 : Disp → BitVec 32
  | .none => 0#32
  | .d8 v => v.signExtend 32
  | .d16 v => v.signExtend 32
  | .d32 v => v

/-- The register sum of a row of R142. -/
def State.base16 (s : State) (rm : BitVec 3) : BitVec 16 :=
  let r (i : RegNum) : BitVec 16 := s.reg .w16 i
  match rm.toNat with
  | 0 => r rBX + r rSI
  | 1 => r rBX + r rDI
  | 2 => r rBP + r rSI
  | 3 => r rBP + r rDI
  | 4 => r rSI
  | 5 => r rDI
  | 6 => r rBP
  | _ => r rBX

/-- The scaled index (R144): index 100 means none. -/
def State.scaled (s : State) (ss : BitVec 2) (index : BitVec 3) : BitVec 32 :=
  if index = 4#3 then 0#32 else s.reg .w32 index <<< ss.toNat

/-- Index 100 with ss not 00: the effective address is undefined (R144, U6, log entry 55). -/
def noIndexScaled (ss : BitVec 2) (index : BitVec 3) : Bool := index == 4#3 && ss != 0#2

/-- The effective address (R142 to R145), modulo 2^16 or 2^32 (R82). -/
def State.ea (s : State) : MemOp → BitVec 32
  | .a16 rm disp => (s.base16 rm + Disp.val16 disp).setWidth 32
  | .direct16 a => a.setWidth 32
  | .a32 base disp => s.reg .w32 base + Disp.val32 disp
  | .direct32 a => a
  | .sib ss index base disp =>
    if noIndexScaled ss index then Config.undefinedEa ss (s.reg .w32 base) (Disp.val32 disp)
    else s.reg .w32 base + s.scaled ss index + Disp.val32 disp
  | .sibNoBase ss index d =>
    if noIndexScaled ss index then Config.undefinedEa ss 0#32 d else s.scaled ss index + d

/-- The default segment (R142 to R144): SS for a base of BP, EBP or ESP. -/
def MemOp.defaultSeg : MemOp → SReg
  | .a16 rm _ => if rm = 2#3 ∨ rm = 3#3 ∨ rm = 6#3 then .ss else .ds
  | .direct16 _ => .ds
  | .a32 base _ => if base = 5#3 then .ss else .ds
  | .direct32 _ => .ds
  | .sib _ _ base _ => if base = 4#3 ∨ base = 5#3 then .ss else .ds
  | .sibNoBase _ _ _ => .ds

/-- The segment of a memory operand: the override, else the default (R81, R134). -/
def State.memSeg (s : State) (m : MemOp) : SReg := s.cur.seg.getD (MemOp.defaultSeg m)

/-- Read a memory operand of `n` bytes with alignment `al`. -/
def readMemBytes (m : MemOp) (n al : Nat) : M (List Byte) := do
  let s ← getS
  segRead (s.memSeg m) (s.ea m) n al

/-- Write a memory operand with alignment `al`. -/
def writeMemBytes (m : MemOp) (bs : List Byte) (al : Nat) : M Unit := do
  let s ← getS
  segWrite (s.memSeg m) (s.ea m) bs al

/-- `Read_n(rm)`. -/
def readRM (w : Width) : RM → M (Val w)
  | .reg r => getReg w r
  | .mem m => do
    let s ← getS
    segReadV w (s.memSeg m) (s.ea m)

/-- `Write_n(rm, v)`. -/
def writeRM (w : Width) (rm : RM) (v : Val w) : M Unit :=
  match rm with
  | .reg r => setReg w r v
  | .mem m => do
    let s ← getS
    segWriteV w (s.memSeg m) (s.ea m) v

/-- An immediate at an operand width: 8 bits sign-extended (R154). -/
def Imm.val (w : Width) : Imm → Val w
  | .i8 v => v.signExtend w.bits
  | .i16 v => v.signExtend w.bits
  | .i32 v => v.signExtend w.bits

/-- An offset the instruction carries, zero-extended (R158). -/
def Off.val : Off → BitVec 32
  | .o16 v => v.setWidth 32
  | .o32 v => v

/-- A far pointer in memory (R76): the offset of OS bits at the operand address, the selector after it. The two reads
are checked as two operands (R374, log entry 38). The selector's offset is formed in 32 bits whatever the address size
is: it does not wrap at FFFF (log entry 74). -/
def readFarPtr (m : MemOp) : M (BitVec 16 × BitVec 32) := do
  let s ← getS
  let w := s.os.width
  let k := s.memSeg m
  let a := s.ea m
  let o ← segReadV w k a
  let sel ← segReadV .w16 k (a + BitVec.ofNat 32 w.bytes)
  pure (sel, o.setWidth 32)

/-- The condition field tttn (R155). -/
def Flags.cond (f : Flags) : Cond → Bool
  | .o => f.ovf
  | .no => !f.ovf
  | .b => f.cf
  | .nb => !f.cf
  | .e => f.zf
  | .ne => !f.zf
  | .be => f.cf || f.zf
  | .nbe => !f.cf && !f.zf
  | .s => f.sf
  | .ns => !f.sf
  | .p => f.pf
  | .np => !f.pf
  | .l => f.sf != f.ovf
  | .nl => f.sf == f.ovf
  | .le => f.zf || f.sf != f.ovf
  | .nle => !f.zf && f.sf == f.ovf

/-- The string and loop count register: CX or ECX by AS (R137). -/
def State.countWidth (s : State) : Width := s.adr.width

/-- The count (R137). -/
def State.count (s : State) : BitVec 32 := (s.reg s.countWidth rCX).setWidth 32

/-- The general registers after the count is lowered by one (R404). -/
def State.countDown (s : State) : Oct (BitVec 32) :=
  regWrite s.gpr s.countWidth rCX (s.reg s.countWidth rCX - 1)

/-- A privileged instruction: #GP(0) unless CPL = 0 (R626). -/
def privileged : M Unit := do
  let s ← getS
  if s.cpl = 0#2 then pure () else raiseGP 0#16

/-- CLI and STI: allowed if CPL <= IOPL; in virtual-8086 mode IOPL = 3 (R627, R242). -/
def ioplSensitive : M Unit := do
  let s ← getS
  if s.sys.cr0.pe && decide (s.flags.iopl.toNat < s.cpl.toNat) then raiseGP 0#16 else pure ()

/-- PUSHF, POPF, INT n and IRET in virtual-8086 mode require IOPL = 3 (R627). -/
def v86Sensitive : M Unit := do
  let s ← getS
  if s.v86 && s.flags.iopl != 3#2 then raiseGP 0#16 else pure ()

/-- Instructions that only protected mode has: #UD in real-address and virtual-8086 mode (R170). -/
def protectedOnly : M Unit := do
  let s ← getS
  if s.protMode then pure () else raiseUD

/-! Input and output (R72, R628, R643). -/

/-- The I/O permission bitmap (R628): `n` ports from `port` on. A TR that holds no 80386 task state segment refuses
all. The word at TR.base + 66H is itself within the limit or the access is refused (log entry 22). -/
def ioBitmap (port : BitVec 16) (n : Nat) : M Unit := do
  let s ← getS
  let tr := s.sys.tr
  if !tr.usable || !(arType tr.access == 9 || arType tr.access == 11) then raiseGP 0#16
  else if tr.limit.toNat < 0x67 then raiseGP 0#16
  else
    let b ← sysRead (tr.base + 0x66#32) 2
    let at8 := leNat b + port.toNat / 8
    if tr.limit.toNat < at8 + 1 then raiseGP 0#16
    else
      let m ← sysRead (tr.base + BitVec.ofNat 32 at8) 2
      if (leNat m >>> (port.toNat % 8)) % 2 ^ n = 0 then pure () else raiseGP 0#16

/-- The permission of an I/O instruction (R72, R627, R628). -/
def ioPermitted (port : BitVec 16) (n : Nat) : M Unit := do
  let s ← getS
  if !s.sys.cr0.pe then pure ()
  else if s.v86 then ioBitmap port n
  else if s.cpl.toNat ≤ s.flags.iopl.toNat then pure ()
  else if s.has386 then ioBitmap port n
  else raiseGP 0#16

/-- An access of `n` bytes touches a port from `lo` to `hi`. -/
def touches (port : BitVec 16) (n lo hi : Nat) : Bool :=
  decide (port.toNat ≤ hi) && decide (lo < port.toNat + n)

/-- The coprocessor's ports whose accesses R643 refuses but for the write of 0 to F0: F0, and F8 to FF (D6). -/
def npxPort (port : BitVec 16) (n : Nat) : Bool := touches port n 0xF0 0xF0 || touches port n 0xF8 0xFF

/-- IO_READ (D6): the next value the platform supplies, else the oracle, byte by byte; port numbers above FFFF do not
wrap (log entry 58). -/
def ioOracle (port : BitVec 16) (w : Width) (k : Nat) : Val w :=
  leVal w.bits ((List.range w.bytes).map (fun i => Config.ioRead (port.toNat + i) k))

/-- `IoRead(port, n)` (R72, R643). A read of F1, of which no rule speaks, asks the platform (D6, log entry 24). -/
def ioRead (port : BitVec 16) (w : Width) : M (Val w) := do
  if npxPort port w.bytes then refuse .coprocessorPort
  else
    let s ← getS
    match s.env.ioIn with
    | v :: rest => do
      updS (fun s => s.setEnv { s.env with ioIn := rest, ioReads := s.env.ioReads + 1 })
      pure (v.setWidth w.bits)
    | [] => do
      updS (fun s => s.setEnv { s.env with ioReads := s.env.ioReads + 1 })
      pure (ioOracle port w s.env.ioReads)

/-- The error is reported by exception 16 and not by IRQ 13 (R641 (b)). -/
def State.nativeErrors (s : State) : Bool := s.has486 && s.sys.cr0.ne

/-- The coprocessor's state replaced: where 'error' becomes active (R640) the latch and the IRQ 13 request are set
(R641 (a)). CR0.NE counts at that moment alone: an error raised while it is 1 sets no latch when it is cleared later
(log entry 79). -/
def State.withFpu (s : State) (f : Fpu) : State :=
  let t := s.setFpu f
  if f.status.es && !s.fpu.status.es && !s.nativeErrors then t.setLink ⟨true, true⟩ else t

/-- A port write goes to the platform (D6). -/
def ioTrace (port : BitVec 16) (w : Width) (v : Val w) : M Unit :=
  updS (fun s => s.setEnv { s.env with ioOut := .port port w (v.setWidth 32) :: s.env.ioOut })

/-- `IoWrite(port, n, v)` (R72, R643): an 8-bit write of 0 to F0 clears the busy latch and IRQ 13; a write to F1, of
any width and value (log entry 24), resets an 80287 or 80387, whose 'error' the reset makes active (R50), and does
nothing on the 80486; its bytes beyond F1 reach no other port (log entry 24). The rest is refused. -/
def ioWrite (port : BitVec 16) (w : Width) (v : Val w) : M Unit := do
  if port = 0xF1#16 then updS (fun s => if s.has486 then s else s.withFpu (Fpu.reset s.cfg))
  else if w = .w8 ∧ port = 0xF0#16 ∧ v.toNat = 0 then updS (fun s => s.setLink ⟨false, false⟩)
  else if npxPort port w.bytes then refuse .coprocessorPort
  else ioTrace port w v

end Sys2Proof.Machine
end

