-- ==== Sys2Proof/Machine/Flags.lean ====
section
/-! DEFINITION. The flag functions (R260) and what the arithmetic, logic, shift and rotate rules compute
(42_arithmetic.md, 43_logic.md), as pure functions of the operands. -/

namespace Sys2Proof.Machine

/-- `ZFof` (R260). -/
def zfOf {n : Nat} (r : BitVec n) : Bool := r == 0#n
/-- `SFof` (R260). -/
def sfOf {n : Nat} (r : BitVec n) : Bool := r.msb
/-- `PFof` (R260): the low byte only. -/
def pfOf {n : Nat} (r : BitVec n) : Bool := parity8 (r.setWidth 8)

/-- A result with the six status flags. -/
structure AluOut (n : Nat) where
  r : BitVec n
  cf : Bool
  ovf : Bool
  af : Bool
  zf : Bool
  sf : Bool
  pf : Bool
deriving DecidableEq, Repr

/-- 0 or 1. -/
def carry (c : Bool) : Nat := if c then 1 else 0

/-- `Add_n(a, b, c)` (R260). -/
def addN {n : Nat} (a b : BitVec n) (c : Bool) : AluOut n :=
  let r := BitVec.ofNat n (a.toNat + b.toNat + carry c)
  { r := r
    cf := decide (2 ^ n ≤ a.toNat + b.toNat + carry c)
    ovf := a.msb == b.msb && r.msb != a.msb
    af := decide (15 < a.toNat % 16 + b.toNat % 16 + carry c)
    zf := zfOf r, sf := sfOf r, pf := pfOf r }

/-- `Sub_n(a, b, c)` (R260). -/
def subN {n : Nat} (a b : BitVec n) (c : Bool) : AluOut n :=
  let r := a - b - BitVec.ofNat n (carry c)
  { r := r
    cf := decide (a.toNat < b.toNat + carry c)
    ovf := a.msb != b.msb && r.msb != a.msb
    af := decide (a.toNat % 16 < b.toNat % 16 + carry c)
    zf := zfOf r, sf := sfOf r, pf := pfOf r }

/-- A logic result (R310): CF = OF = 0; AF is given. -/
def logicN {n : Nat} (r : BitVec n) (af : Bool) : AluOut n :=
  { r := r, cf := false, ovf := false, af := af, zf := zfOf r, sf := sfOf r, pf := pfOf r }

/-- All six status flags from a result. -/
def Flags.status {n : Nat} (f : Flags) (o : AluOut n) : Flags :=
  { f with cf := o.cf, ovf := o.ovf, af := o.af, zf := o.zf, sf := o.sf, pf := o.pf }

/-- The status flags but CF (R263, R266). -/
def Flags.statusKeepCf {n : Nat} (f : Flags) (o : AluOut n) : Flags :=
  { f with ovf := o.ovf, af := o.af, zf := o.zf, sf := o.sf, pf := o.pf }

/-- ZF, SF, PF of a result. -/
def Flags.zsp {n : Nat} (f : Flags) (r : BitVec n) : Flags := { f with zf := zfOf r, sf := sfOf r, pf := pfOf r }

/-- The eight operations of the two-operand forms (R162). -/
inductive AluOp where
  | add | or | adc | sbb | and | sub | xor | cmp
deriving DecidableEq, Repr

/-- AF is undefined after the logic operations (R310, R312, R313). -/
def AluOp.logic : AluOp → Bool
  | .add => false
  | .or => true
  | .adc => false
  | .sbb => false
  | .and => true
  | .sub => false
  | .xor => true
  | .cmp => false

/-- CMP writes no result (R267). -/
def AluOp.writes : AluOp → Bool
  | .add => true
  | .or => true
  | .adc => true
  | .sbb => true
  | .and => true
  | .sub => true
  | .xor => true
  | .cmp => false

/-- What an operation computes (R261 to R267, R310 to R313); `af` is the value AF takes where it is undefined. -/
def AluOp.out (op : AluOp) {n : Nat} (a b : BitVec n) (cf af : Bool) : AluOut n :=
  match op with
  | .add => addN a b false
  | .or => logicN (a ||| b) af
  | .adc => addN a b cf
  | .sbb => subN a b cf
  | .and => logicN (a &&& b) af
  | .sub => subN a b false
  | .xor => logicN (a ^^^ b) af
  | .cmp => subN a b false

/-- A value for a flag that may be undefined: a draw if it is, else the given one. -/
def drawIf (undefd : Bool) (v : Bool) : M Bool := if undefd then drawBit else pure v

/-- Perform an operation: the result, with the flags set. -/
def aluCompute (op : AluOp) {n : Nat} (a b : BitVec n) : M (BitVec n) := do
  let af ← drawIf op.logic false
  let s ← getS
  let o := op.out a b s.flags.cf af
  updFlags (fun f => f.status o)
  pure o.r

/-! Shifts and rotates (R300 to R309). -/

inductive ShiftOp where
  | rol | ror | rcl | rcr | shl | shr | sar
deriving DecidableEq, Repr

/-- The result of a shift or rotate by `c` (not 0), CF after it (none: undefined), and OF for c = 1. -/
structure ShiftOut (n : Nat) where
  r : BitVec n
  cf : Option Bool
  ovf : Bool
deriving DecidableEq, Repr

/-- Rotate the `m`-bit number `t` left by `k`. -/
def rotLeft (m t k : Nat) : Nat := (t <<< (k % m)) % 2 ^ m ||| t >>> (m - k % m)

/-- `CF ++ a` as a number of n + 1 bits (R303). -/
def withCarry {n : Nat} (c : Bool) (a : BitVec n) : Nat := carry c * 2 ^ n + a.toNat

/-- What a shift or rotate computes (R301 to R307) for c ≠ 0. -/
def ShiftOp.out (op : ShiftOp) {n : Nat} (a : BitVec n) (c : Nat) (cf : Bool) : ShiftOut n :=
  match op with
  | .rol =>
    let r := BitVec.ofNat n (rotLeft n a.toNat c)
    ⟨r, some (bitOf r 0), r.msb != bitOf r 0⟩
  | .ror =>
    let r := BitVec.ofNat n (rotLeft n a.toNat (n - c % n))
    ⟨r, some r.msb, r.msb != bitOf r (n - 2)⟩
  | .rcl =>
    let t := rotLeft (n + 1) (withCarry cf a) c
    let r := BitVec.ofNat n t
    ⟨r, some (t.testBit n), r.msb != t.testBit n⟩
  | .rcr =>
    let t := rotLeft (n + 1) (withCarry cf a) (n + 1 - c % (n + 1))
    ⟨BitVec.ofNat n t, some (t.testBit n), a.msb != cf⟩
  | .shl =>
    let r := a <<< c
    let out := bitOf a (n - c)
    ⟨r, if c ≤ n then some out else none, r.msb != out⟩
  | .shr => ⟨a >>> c, if c ≤ n then some (bitOf a (c - 1)) else none, a.msb⟩
  | .sar => ⟨a.sshiftRight c, some (bitOf a (min c n - 1)), false⟩

/-- The rotates leave SF, ZF, PF and AF; the shifts set SF, ZF, PF and leave AF undefined (R300). -/
def ShiftOp.isShift : ShiftOp → Bool
  | .rol => false
  | .ror => false
  | .rcl => false
  | .rcr => false
  | .shl => true
  | .shr => true
  | .sar => true

/-- Perform a shift or rotate by `c` ≠ 0: the result, with the flags set; OF is undefined for c ≠ 1 (R300). -/
def shiftCompute (op : ShiftOp) {n : Nat} (a : BitVec n) (c : Nat) : M (BitVec n) := do
  let s ← getS
  let o := op.out a c s.flags.cf
  let cf ← drawIf o.cf.isNone (o.cf.getD false)
  let ovf ← drawIf (c != 1) o.ovf
  let af ← drawIf op.isShift s.flags.af
  updFlags (fun f =>
    let g := { f with cf := cf, ovf := ovf, af := af }
    if op.isShift then g.zsp o.r else g)
  pure o.r

/-- The result and CF of SHLD by `c` from 1 to n (R308). -/
def shldN {n : Nat} (a b : BitVec n) (c : Nat) : BitVec n × Bool := ((a <<< c) ||| (b >>> (n - c)), bitOf a (n - c))

/-- The result and CF of SHRD by `c` from 1 to n (R309). -/
def shrdN {n : Nat} (a b : BitVec n) (c : Nat) : BitVec n × Bool := ((a >>> c) ||| (b <<< (n - c)), bitOf a (c - 1))

/-! Draws for undefined flags. -/

/-- All six status flags become undefined (R277, R421). -/
def undefStatus : M Unit := do
  let cf ← drawBit
  let pf ← drawBit
  let af ← drawBit
  let zf ← drawBit
  let sf ← drawBit
  let ovf ← drawBit
  updFlags (fun f => { f with cf := cf, pf := pf, af := af, zf := zf, sf := sf, ovf := ovf })

/-- SF, ZF, AF, PF become undefined, CF and OF are given (R273 to R276). -/
def mulFlags (c : Bool) : M Unit := do
  let pf ← drawBit
  let af ← drawBit
  let zf ← drawBit
  let sf ← drawBit
  updFlags (fun f => { f with cf := c, pf := pf, af := af, zf := zf, sf := sf, ovf := c })

end Sys2Proof.Machine
end

