-- ==== Sys2Proof/Machine/Prefix.lean ====
section
/-! DEFINITION. How an instruction's meaning is completed, and the prefixes (R132 to R137, R340, R425 to R427, R434):
executing a prefix records it for the instruction it precedes (log entry 10). -/

namespace Sys2Proof.Machine

/-- An instruction that computes and goes on at next IP (R25). -/
def complete (m : M Unit) (s : State) : Host.Outcome State Fault Refusal :=
  finish (do
    m
    advance) s

/-- Record a prefix. -/
def prefixed (s : State) (c : Cur) : Host.Outcome State Fault Refusal := .next (s.setCur c)

/-- LOCK (R427, R135). Its legality is checked with the instruction it precedes. -/
def execLockPrefix (s : State) : Host.Outcome State Fault Refusal := prefixed s { s.cur with lock := true }

/-- REPNE/REPNZ (R340, R133): z = 0; the last repeat prefix wins (R132). -/
def execRepnePrefix (s : State) : Host.Outcome State Fault Refusal := prefixed s { s.cur with rep := some false }

/-- REP/REPE/REPZ (R340, R133): z = 1. -/
def execRepPrefix (s : State) : Host.Outcome State Fault Refusal := prefixed s { s.cur with rep := some true }

/-- ES: (R134, R434); the last override wins (R132). -/
def execEsPrefix (s : State) : Host.Outcome State Fault Refusal := prefixed s { s.cur with seg := some .es }

/-- CS: (R134, R434). -/
def execCsPrefix (s : State) : Host.Outcome State Fault Refusal := prefixed s { s.cur with seg := some .cs }

/-- SS: (R134, R434). -/
def execSsPrefix (s : State) : Host.Outcome State Fault Refusal := prefixed s { s.cur with seg := some .ss }

/-- DS: (R134, R434). -/
def execDsPrefix (s : State) : Host.Outcome State Fault Refusal := prefixed s { s.cur with seg := some .ds }

/-- FS: (R134, R434). -/
def execFsPrefix (s : State) : Host.Outcome State Fault Refusal := prefixed s { s.cur with seg := some .fs }

/-- GS: (R134, R434). -/
def execGsPrefix (s : State) : Host.Outcome State Fault Refusal := prefixed s { s.cur with seg := some .gs }

/-- The operand-size prefix (R136, R426). -/
def execOpSizePrefix (s : State) : Host.Outcome State Fault Refusal := prefixed s { s.cur with opSize := true }

/-- The address-size prefix (R137, R425). -/
def execAddrSizePrefix (s : State) : Host.Outcome State Fault Refusal := prefixed s { s.cur with adSize := true }

end Sys2Proof.Machine
end

