-- ==== Sys2Proof/Machine/Arith.lean ====
section
/-! DEFINITION. The arithmetic instructions (42_arithmetic.md). -/

namespace Sys2Proof.Machine

/-- Store a result where the operation has one (CMP has none, R267). -/
def aluStore (op : AluOp) (w : Width) (dst : RM) (r : Val w) : M Unit :=
  if op.writes then writeRM w dst r else pure ()

/-- The forms `d w` (R153): d = 0 writes the r/m operand, d = 1 the register. -/
def aluRmReg (op : AluOp) (d w : Bool) (reg : RegNum) (rm : RM) : M Unit := do
  let s ← getS
  let wd := s.opW w
  let a ← readRM wd (if d then .reg reg else rm)
  let b ← readRM wd (if d then rm else .reg reg)
  let r ← aluCompute op a b
  aluStore op wd (if d then .reg reg else rm) r

/-- The immediate forms (R154); the accumulator is register 0 (R22). -/
def aluRmImm (op : AluOp) (w : Bool) (rm : RM) (imm : Imm) : M Unit := do
  let s ← getS
  let wd := s.opW w
  let a ← readRM wd rm
  let r ← aluCompute op a (Imm.val wd imm)
  aluStore op wd rm r

/-- ADD register/memory with register (R261). -/
def execAddRmReg (d w : Bool) (reg : RegNum) (rm : RM) (s : State) : Host.Outcome State Fault Refusal :=
  complete (aluRmReg .add d w reg rm) s

/-- ADD immediate with register/memory (R261). -/
def execAddRmImm (_sx w : Bool) (rm : RM) (imm : Imm) (s : State) : Host.Outcome State Fault Refusal :=
  complete (aluRmImm .add w rm imm) s

/-- ADD immediate with accumulator (R261). -/
def execAddAccImm (w : Bool) (imm : Imm) (s : State) : Host.Outcome State Fault Refusal :=
  complete (aluRmImm .add w (.reg rAX) imm) s

/-- ADC register/memory with register (R262). -/
def execAdcRmReg (d w : Bool) (reg : RegNum) (rm : RM) (s : State) : Host.Outcome State Fault Refusal :=
  complete (aluRmReg .adc d w reg rm) s

/-- ADC immediate with register/memory (R262). -/
def execAdcRmImm (_sx w : Bool) (rm : RM) (imm : Imm) (s : State) : Host.Outcome State Fault Refusal :=
  complete (aluRmImm .adc w rm imm) s

/-- ADC immediate with accumulator (R262). -/
def execAdcAccImm (w : Bool) (imm : Imm) (s : State) : Host.Outcome State Fault Refusal :=
  complete (aluRmImm .adc w (.reg rAX) imm) s

/-- SBB register/memory with register (R265). -/
def execSbbRmReg (d w : Bool) (reg : RegNum) (rm : RM) (s : State) : Host.Outcome State Fault Refusal :=
  complete (aluRmReg .sbb d w reg rm) s

/-- SBB immediate with register/memory (R265). -/
def execSbbRmImm (_sx w : Bool) (rm : RM) (imm : Imm) (s : State) : Host.Outcome State Fault Refusal :=
  complete (aluRmImm .sbb w rm imm) s

/-- SBB immediate with accumulator (R265). -/
def execSbbAccImm (w : Bool) (imm : Imm) (s : State) : Host.Outcome State Fault Refusal :=
  complete (aluRmImm .sbb w (.reg rAX) imm) s

/-- SUB register/memory with register (R264). -/
def execSubRmReg (d w : Bool) (reg : RegNum) (rm : RM) (s : State) : Host.Outcome State Fault Refusal :=
  complete (aluRmReg .sub d w reg rm) s

/-- SUB immediate with register/memory (R264). -/
def execSubRmImm (_sx w : Bool) (rm : RM) (imm : Imm) (s : State) : Host.Outcome State Fault Refusal :=
  complete (aluRmImm .sub w rm imm) s

/-- SUB immediate with accumulator (R264). -/
def execSubAccImm (w : Bool) (imm : Imm) (s : State) : Host.Outcome State Fault Refusal :=
  complete (aluRmImm .sub w (.reg rAX) imm) s

/-- CMP register/memory with register (R267). -/
def execCmpRmReg (d w : Bool) (reg : RegNum) (rm : RM) (s : State) : Host.Outcome State Fault Refusal :=
  complete (aluRmReg .cmp d w reg rm) s

/-- CMP immediate with register/memory (R267). -/
def execCmpRmImm (_sx w : Bool) (rm : RM) (imm : Imm) (s : State) : Host.Outcome State Fault Refusal :=
  complete (aluRmImm .cmp w rm imm) s

/-- CMP immediate with accumulator (R267). -/
def execCmpAccImm (w : Bool) (imm : Imm) (s : State) : Host.Outcome State Fault Refusal :=
  complete (aluRmImm .cmp w (.reg rAX) imm) s

/-- INC and DEC (R263, R266): CF keeps its value. -/
def incDec (wd : Width) (dec : Bool) (rm : RM) : M Unit := do
  let a ← readRM wd rm
  let one := BitVec.ofNat wd.bits 1
  let o := if dec then subN a one false else addN a one false
  writeRM wd rm o.r
  updFlags (fun f => f.statusKeepCf o)

/-- INC register/memory (R263). -/
def execIncRm (w : Bool) (rm : RM) (s : State) : Host.Outcome State Fault Refusal :=
  complete (incDec (s.opW w) false rm) s

/-- INC register (R263). -/
def execIncReg (reg : RegNum) (s : State) : Host.Outcome State Fault Refusal :=
  complete (incDec s.os.width false (.reg reg)) s

/-- DEC register/memory (R266). -/
def execDecRm (w : Bool) (rm : RM) (s : State) : Host.Outcome State Fault Refusal :=
  complete (incDec (s.opW w) true rm) s

/-- DEC register (R266). -/
def execDecReg (reg : RegNum) (s : State) : Host.Outcome State Fault Refusal :=
  complete (incDec s.os.width true (.reg reg)) s

/-- NEG (R268). -/
def execNeg (w : Bool) (rm : RM) (s : State) : Host.Outcome State Fault Refusal :=
  complete (do
    let a ← readRM (s.opW w) rm
    let o := subN 0 a false
    writeRM (s.opW w) rm o.r
    updFlags (fun f => f.status o)) s

/-- AX after the decimal adjustment of AAA and AAS when it applies (R269, R270): on the 80286 AL and AH change
separately. -/
def asciiAdjusted (is386 : Bool) (ax : BitVec 16) (sub : Bool) : BitVec 16 :=
  let al := ax.extractLsb' 0 8
  let ah := ax.extractLsb' 8 8
  if is386 then
    if sub then ax - 6#16 - 0x100#16 else ax + 0x0106#16
  else if sub then (ah - 1#8) ++ (al - 6#8)
  else (ah + 1#8) ++ (al + 6#8)

/-- AAA and AAS (R269, R270); OF, SF, ZF, PF become undefined. -/
def asciiAdjust (sub : Bool) : M Unit := do
  let s ← getS
  let ax : BitVec 16 := s.reg .w16 rAX
  let adj := decide (9 < (ax.extractLsb' 0 4).toNat) || s.flags.af
  let r := if adj then asciiAdjusted s.has386 ax sub else ax
  setReg .w16 rAX (r.extractLsb' 8 8 ++ (0#4 ++ r.extractLsb' 0 4))
  let pf ← drawBit
  let zf ← drawBit
  let sf ← drawBit
  let ovf ← drawBit
  updFlags (fun f => { f with af := adj, cf := adj, pf := pf, zf := zf, sf := sf, ovf := ovf })

/-- AAA (R269). -/
def execAaa (s : State) : Host.Outcome State Fault Refusal := complete (asciiAdjust false) s

/-- AAS (R270). -/
def execAas (s : State) : Host.Outcome State Fault Refusal := complete (asciiAdjust true) s

/-- DAA: the new AL, AF and CF (R271). -/
def daaOut (a : BitVec 8) (af c : Bool) : BitVec 8 × Bool × Bool :=
  let lowAdj := decide (9 < a.toNat % 16) || af
  let highAdj := decide (0x99 < a.toNat) || c
  let x := if lowAdj then a + 6#8 else a
  (if highAdj then x + 0x60#8 else x, lowAdj, highAdj)

/-- DAS: the new AL, AF and CF (R272). -/
def dasOut (a : BitVec 8) (af c : Bool) : BitVec 8 × Bool × Bool :=
  let lowAdj := decide (9 < a.toNat % 16) || af
  let highAdj := decide (0x99 < a.toNat) || c
  let x := if lowAdj then a - 6#8 else a
  let c1 := lowAdj && (c || decide (a.toNat < 6))
  (if highAdj then x - 0x60#8 else x, lowAdj, highAdj || c1)

/-- DAA and DAS: SF, ZF, PF from AL, OF undefined (R271, R272). -/
def decimalAdjust (f : BitVec 8 → Bool → Bool → BitVec 8 × Bool × Bool) : M Unit := do
  let s ← getS
  let o := f (s.reg .w8 rAL) s.flags.af s.flags.cf
  setReg .w8 rAL o.1
  let ovf ← drawBit
  updFlags (fun g => { g.zsp o.1 with af := o.2.1, cf := o.2.2, ovf := ovf })

/-- DAA (R271). -/
def execDaa (s : State) : Host.Outcome State Fault Refusal := complete (decimalAdjust daaOut) s

/-- DAS (R272). -/
def execDas (s : State) : Host.Outcome State Fault Refusal := complete (decimalAdjust dasOut) s

/-- A double-width result: AX, or DX:AX, or EDX:EAX (R273). -/
def setPair (w : Width) (hi lo : Val w) : M Unit :=
  match w with
  | .w8 => setReg .w16 rAX (hi ++ lo)
  | .w16 => do
    setReg .w16 rDX hi
    setReg .w16 rAX lo
  | .w32 => do
    setReg .w32 rDX hi
    setReg .w32 rAX lo

/-- The double-width dividend (R277). -/
def State.pair (s : State) : (w : Width) → Nat
  | .w8 => (s.reg .w16 rAX).toNat
  | .w16 => (s.reg .w16 rDX).toNat * 65536 + (s.reg .w16 rAX).toNat
  | .w32 => (s.reg .w32 rDX).toNat * 4294967296 + (s.reg .w32 rAX).toNat

/-- Quotient and remainder of a division: AL and AH, or the accumulator and DX (R277). -/
def setQuotRem (w : Width) (q r : Val w) : M Unit := setPair w r q

/-- MUL (R273). -/
def execMul (w : Bool) (rm : RM) (s : State) : Host.Outcome State Fault Refusal :=
  let wd := s.opW w
  complete (do
    let b ← readRM wd rm
    let p := (s.reg wd rAX).toNat * b.toNat
    let hi := BitVec.ofNat wd.bits (p / 2 ^ wd.bits)
    setPair wd hi (BitVec.ofNat wd.bits p)
    mulFlags (p / 2 ^ wd.bits != 0)) s

/-- IMUL of the accumulator (R274). -/
def execImulAcc (w : Bool) (rm : RM) (s : State) : Host.Outcome State Fault Refusal :=
  let wd := s.opW w
  complete (do
    let b ← readRM wd rm
    let p := (s.reg wd rAX).toInt * b.toInt
    let lo := BitVec.ofInt wd.bits p
    setPair wd (BitVec.ofInt wd.bits (p / (2 ^ wd.bits : Nat))) lo
    mulFlags (decide (p ≠ lo.toInt))) s

/-- IMUL to a register (R275, R276). -/
def imulTo (w : Width) (reg : RegNum) (a b : Val w) : M Unit := do
  let p := a.toInt * b.toInt
  let r := BitVec.ofInt w.bits p
  setReg w reg r
  mulFlags (decide (p ≠ r.toInt))

/-- IMUL register with register/memory (R275). -/
def execImulRegRm (reg : RegNum) (rm : RM) (s : State) : Host.Outcome State Fault Refusal :=
  complete (do
    let b ← readRM s.os.width rm
    imulTo s.os.width reg (s.reg s.os.width reg) b) s

/-- IMUL register/memory with immediate to register (R276). -/
def execImulRegRmImm (_sx : Bool) (reg : RegNum) (rm : RM) (imm : Imm) (s : State) :
    Host.Outcome State Fault Refusal :=
  complete (do
    let a ← readRM s.os.width rm
    imulTo s.os.width reg a (Imm.val s.os.width imm)) s

/-- DIV (R277). -/
def execDiv (w : Bool) (rm : RM) (s : State) : Host.Outcome State Fault Refusal :=
  let wd := s.opW w
  complete (do
    let d ← readRM wd rm
    let n := s.pair wd
    if d.toNat = 0 ∨ 2 ^ wd.bits ≤ n / d.toNat then raiseDE
    else
      setQuotRem wd (BitVec.ofNat wd.bits (n / d.toNat)) (BitVec.ofNat wd.bits (n % d.toNat))
      undefStatus) s

/-- The signed dividend (R278). -/
def State.signedPair (s : State) (w : Width) : Int := (BitVec.ofNat (2 * w.bits) (s.pair w)).toInt

/-- IDIV (R278): the quotient truncated toward zero, the remainder with the sign of the dividend. -/
def execIdiv (w : Bool) (rm : RM) (s : State) : Host.Outcome State Fault Refusal :=
  let wd := s.opW w
  complete (do
    let d ← readRM wd rm
    let n := s.signedPair wd
    let q := n.tdiv d.toInt
    if d.toInt = 0 ∨ q < -(2 ^ (wd.bits - 1) : Nat) ∨ (2 ^ (wd.bits - 1) : Nat) ≤ q then raiseDE
    else
      setQuotRem wd (BitVec.ofInt wd.bits q) (BitVec.ofInt wd.bits (n.tmod d.toInt))
      undefStatus) s

/-- AAD and AAM: SF, ZF, PF from AL; OF, AF, CF undefined (R279, R280). -/
def asciiFlags (al : BitVec 8) : M Unit := do
  let cf ← drawBit
  let af ← drawBit
  let ovf ← drawBit
  updFlags (fun f => { f.zsp al with cf := cf, af := af, ovf := ovf })

/-- AAD (R279). -/
def execAad (s : State) : Host.Outcome State Fault Refusal :=
  let al : BitVec 8 := s.reg .w8 rAL + s.reg .w8 rAH * 10#8
  complete (do
    setReg .w16 rAX (0#8 ++ al)
    asciiFlags al) s

/-- AAM (R280). -/
def execAam (s : State) : Host.Outcome State Fault Refusal :=
  let al : BitVec 8 := s.reg .w8 rAL
  complete (do
    setReg .w16 rAX ((al / 10#8) ++ (al % 10#8))
    asciiFlags (al % 10#8)) s

/-- CBW (R281). -/
def execCbw (s : State) : Host.Outcome State Fault Refusal :=
  complete (match s.os with
    | .s16 => setReg .w16 rAX ((s.reg .w8 rAL).signExtend 16)
    | .s32 => setReg .w32 rAX ((s.reg .w16 rAX).signExtend 32)) s

/-- CWD (R282): the register DX or EDX is filled with the accumulator's sign. -/
def execCwd (s : State) : Host.Outcome State Fault Refusal :=
  complete (match s.os with
    | .s16 => setReg .w16 rDX (if (s.reg .w16 rAX).msb then 0xFFFF#16 else 0#16)
    | .s32 => setReg .w32 rDX (if (s.reg .w32 rAX).msb then 0xFFFFFFFF#32 else 0#32)) s

end Sys2Proof.Machine
end

