-- ==== Sys2Proof/Machine/Strings.lean ====
section
/-! DEFINITION. The string instructions and their repeated forms (44_string.md). A repeated instruction makes one
iteration a step and stays at its first prefix until it is done (R340, log entry 11). -/

namespace Sys2Proof.Machine

/-- An index register at the address size (R330). -/
def State.index (s : State) (i : RegNum) : BitVec 32 := (s.reg s.adr.width i).setWidth 32

/-- Step an index register by an element of a width (R330): down when DF = 1, wrapping at the address size. -/
def stepIndex (i : RegNum) (w : Width) : M Unit :=
  updS (fun s =>
    let aw := s.adr.width
    let d := BitVec.ofNat aw.bits w.bytes
    let old := s.reg aw i
    s.setGpr (regWrite s.gpr aw i (if s.flags.df then old - d else old + d)))

/-- The segment of the source element (R330). -/
def State.stringSeg (s : State) : SReg := s.cur.seg.getD .ds

/-- The source element (R330). -/
def readSource (w : Width) : M (Val w) := do
  let s ← getS
  segReadV w s.stringSeg (s.index rSI)

/-- The destination element, always in ES (R330). -/
def readDest (w : Width) : M (Val w) := do
  let s ← getS
  segReadV w .es (s.index rDI)

/-- Store the destination element (R330). -/
def writeDest (w : Width) (v : Val w) : M Unit := do
  let s ← getS
  segWriteV w .es (s.index rDI) v

/-- One CMPS (R331). -/
def cmpsOnce (w : Width) : M Unit := do
  let a ← readSource w
  let b ← readDest w
  updFlags (fun f => f.status (subN a b false))
  stepIndex rSI w
  stepIndex rDI w

/-- The destination of an instruction is checked for writing before it is read or the port is (R332, R364, R572). -/
def probeWrite (k : SReg) (off : BitVec 32) (n al : Nat) : M Unit := probe k off n true al

/-- One INS (R332). Every page of the element is checked before the port is read, so that no item is lost (log
entry 60). -/
def insOnce (w : Width) : M Unit := do
  let s ← getS
  let port := s.reg .w16 rDX
  ioPermitted port w.bytes
  probeWrite .es (s.index rDI) w.bytes w.bytes
  let v ← ioRead port w
  writeDest w v
  stepIndex rDI w

/-- One LODS (R333). -/
def lodsOnce (w : Width) : M Unit := do
  let v ← readSource w
  setReg w rAX v
  stepIndex rSI w

/-- One MOVS (R334). -/
def movsOnce (w : Width) : M Unit := do
  let v ← readSource w
  writeDest w v
  stepIndex rSI w
  stepIndex rDI w

/-- One OUTS (R335). -/
def outsOnce (w : Width) : M Unit := do
  let s ← getS
  let port := s.reg .w16 rDX
  ioPermitted port w.bytes
  let v ← readSource w
  ioWrite port w v
  stepIndex rSI w

/-- One SCAS (R336). -/
def scasOnce (w : Width) : M Unit := do
  let b ← readDest w
  let a ← getReg w rAX
  updFlags (fun f => f.status (subN a b false))
  stepIndex rDI w

/-- One STOS (R337). -/
def stosOnce (w : Width) : M Unit := do
  let v ← getReg w rAX
  writeDest w v
  stepIndex rDI w

/-- CMPS (R331). -/
def execCmps (w : Bool) (s : State) : Host.Outcome State Fault Refusal := complete (cmpsOnce (s.opW w)) s

/-- INS (R332). -/
def execIns (w : Bool) (s : State) : Host.Outcome State Fault Refusal := complete (insOnce (s.opW w)) s

/-- LODS (R333). -/
def execLods (w : Bool) (s : State) : Host.Outcome State Fault Refusal := complete (lodsOnce (s.opW w)) s

/-- MOVS (R334). -/
def execMovs (w : Bool) (s : State) : Host.Outcome State Fault Refusal := complete (movsOnce (s.opW w)) s

/-- OUTS (R335). -/
def execOuts (w : Bool) (s : State) : Host.Outcome State Fault Refusal := complete (outsOnce (s.opW w)) s

/-- SCAS (R336). -/
def execScas (w : Bool) (s : State) : Host.Outcome State Fault Refusal := complete (scasOnce (s.opW w)) s

/-- STOS (R337). -/
def execStos (w : Bool) (s : State) : Host.Outcome State Fault Refusal := complete (stosOnce (s.opW w)) s

/-- The address XLAT reads (R338). -/
def State.xlatOff (s : State) : BitVec 32 :=
  match s.adr with
  | .s16 => (s.reg .w16 rBX + (s.reg .w8 rAL).setWidth 16).setWidth 32
  | .s32 => s.reg .w32 rBX + (s.reg .w8 rAL).setWidth 32

/-- XLAT (R338). -/
def execXlat (s : State) : Host.Outcome State Fault Refusal :=
  complete (do
    let v ← segReadV .w8 s.stringSeg s.xlatOff
    setReg .w8 rAL v) s

/-- A repeated instruction is not done: the next step starts it again at its first prefix (R340), whose bytes it fetches
anew (log entry 11); an interrupt shadow it runs in lasts until it is done. -/
def again : M Unit :=
  updS (fun s => (s.setCur Cur.start).setCtl { s.ctl with shadow := s.ctl.prevShadow })

/-- The flag test of the comparing instructions (R340): `stopZf` is the value of ZF that ends the repetition. -/
def repeatDone (s : State) (stopZf : Option Bool) : Bool :=
  s.count == 0#32 ||
    (match stopZf with
      | none => false
      | some z => s.flags.zf == z)

/-- One iteration of a repeated string instruction (R340). -/
def repeated (once : M Unit) (stopZf : Option Bool) (s : State) : Host.Outcome State Fault Refusal :=
  finish (do
    if s.count = 0#32 then advance
    else
      once
      updS (fun t => t.setGpr t.countDown)
      let t ← getS
      if repeatDone t stopZf then advance else again) s

/-- REPE CMPS (R341): stops when ZF = 0. -/
def execRepeCmps (w : Bool) (s : State) : Host.Outcome State Fault Refusal :=
  repeated (cmpsOnce (s.opW w)) (some false) s

/-- REPNE CMPS (R342): stops when ZF = 1. -/
def execRepneCmps (w : Bool) (s : State) : Host.Outcome State Fault Refusal :=
  repeated (cmpsOnce (s.opW w)) (some true) s

/-- REP INS (R343). -/
def execRepIns (w : Bool) (s : State) : Host.Outcome State Fault Refusal := repeated (insOnce (s.opW w)) none s

/-- REP LODS (R344). -/
def execRepLods (w : Bool) (s : State) : Host.Outcome State Fault Refusal := repeated (lodsOnce (s.opW w)) none s

/-- REP MOVS (R345). -/
def execRepMovs (w : Bool) (s : State) : Host.Outcome State Fault Refusal := repeated (movsOnce (s.opW w)) none s

/-- REP OUTS (R346). -/
def execRepOuts (w : Bool) (s : State) : Host.Outcome State Fault Refusal := repeated (outsOnce (s.opW w)) none s

/-- REPE SCAS (R347): stops when ZF = 0. -/
def execRepeScas (w : Bool) (s : State) : Host.Outcome State Fault Refusal :=
  repeated (scasOnce (s.opW w)) (some false) s

/-- REPNE SCAS (R348): stops when ZF = 1. -/
def execRepneScas (w : Bool) (s : State) : Host.Outcome State Fault Refusal :=
  repeated (scasOnce (s.opW w)) (some true) s

/-- REP STOS (R349). -/
def execRepStos (w : Bool) (s : State) : Host.Outcome State Fault Refusal := repeated (stosOnce (s.opW w)) none s

end Sys2Proof.Machine
end

