-- ==== Sys2Proof/Machine/BitOps.lean ====
section
/-! DEFINITION. The bit instructions (45_bit.md) and the six instructions of the 80486 (49_i486.md). -/

namespace Sys2Proof.Machine

/-- The least set bit of a value, from place `i` up, `fuel` places at most (R361). -/
def lowestFrom {n : Nat} (a : BitVec n) : (fuel i : Nat) → Nat
  | 0, i => i
  | fuel + 1, i => if bitOf a i then i else lowestFrom a fuel (i + 1)

/-- The least i with a[i] = 1 (R361). -/
def lowestBit {n : Nat} (a : BitVec n) : Nat := lowestFrom a n 0

/-- The greatest i with a[i] = 1 (R362). -/
def highestBit {n : Nat} (a : BitVec n) : Nat := Nat.log2 a.toNat

/-- BSF and BSR: for a zero source ZF = 1 and the destination is unchanged; the other status flags are undefined
(R361, R362). -/
def scanBit (reg : RegNum) (rm : RM) (find : (n : Nat) → BitVec n → Nat) : M Unit := do
  let s ← getS
  let w := s.os.width
  let a ← readRM w rm
  let z := a == 0
  (if z then pure () else setReg w reg (BitVec.ofNat w.bits (find w.bits a)))
  undefStatus
  updFlags (fun f => { f with zf := z })

/-- BSF (R361). -/
def execBsf (reg : RegNum) (rm : RM) (s : State) : Host.Outcome State Fault Refusal :=
  complete (scanBit reg rm (fun _ a => lowestBit a)) s

/-- BSR (R362). -/
def execBsr (reg : RegNum) (rm : RM) (s : State) : Host.Outcome State Fault Refusal :=
  complete (scanBit reg rm (fun _ a => highestBit a)) s

/-- The four bit-test instructions. -/
inductive BitOp where
  | test | complement | reset | set
deriving DecidableEq, Repr

/-- The unit after the instruction (R363 to R366). -/
def BitOp.apply (op : BitOp) {n : Nat} (a : BitVec n) (b : Nat) : BitVec n :=
  let m := BitVec.ofNat n (2 ^ b)
  match op with
  | .test => a
  | .complement => a ^^^ m
  | .reset => a &&& ~~~m
  | .set => a ||| m

/-- BT writes nothing (R363). -/
def BitOp.writes : BitOp → Bool
  | .test => false
  | .complement => true
  | .reset => true
  | .set => true

/-- The flags of the bit tests: CF the old bit; OF, SF, AF, PF undefined; ZF unchanged (R363). -/
def bitFlags (c : Bool) : M Unit := do
  let pf ← drawBit
  let af ← drawBit
  let sf ← drawBit
  let ovf ← drawBit
  updFlags (fun f => { f with cf := c, pf := pf, af := af, sf := sf, ovf := ovf })

/-- The unit of a bit string that an offset selects: its address, from a signed offset (R360), wrapping at the
address size (R82). -/
def State.bitUnit (s : State) (w : Width) (m : MemOp) (off : Int) : BitVec 32 :=
  let a := s.ea m + BitVec.ofInt 32 (w.bytes * (off / (w.bits : Int)))
  match s.adr with
  | .s16 => (a.extractLsb' 0 16).setWidth 32
  | .s32 => a

/-- A bit test in memory: write check before the read where the unit is written (R364). -/
def bitMem (op : BitOp) (w : Width) (k : SReg) (at' : BitVec 32) (b : Nat) : M Unit := do
  (if op.writes then probeWrite k at' w.bytes w.bytes else pure ())
  let a ← segReadV w k at'
  (if op.writes then segWriteV w k at' (op.apply a b) else pure ())
  bitFlags (bitOf a b)

/-- A bit test in a register (R360). -/
def bitReg (op : BitOp) (w : Width) (r : RegNum) (b : Nat) : M Unit := do
  let a ← getReg w r
  setReg w r (op.apply a b)
  bitFlags (bitOf a b)

/-- A bit test with an immediate offset (R360): the address is not adjusted. -/
def bitTestImm (op : BitOp) (rm : RM) (imm : BitVec 8) : M Unit := do
  let s ← getS
  let w := s.os.width
  let b := imm.toNat % w.bits
  match rm with
  | .reg r => bitReg op w r b
  | .mem m => bitMem op w (s.memSeg m) (s.ea m) b

/-- A bit test with a register offset (R360). -/
def bitTestReg (op : BitOp) (reg : RegNum) (rm : RM) : M Unit := do
  let s ← getS
  let w := s.os.width
  let off := s.reg w reg
  match rm with
  | .reg r => bitReg op w r (off.toNat % w.bits)
  | .mem m => bitMem op w (s.memSeg m) (s.bitUnit w m off.toInt) (off.toNat % w.bits)

/-- BT with an immediate (R363). -/
def execBtImm (rm : RM) (bit : BitVec 8) (s : State) : Host.Outcome State Fault Refusal :=
  complete (bitTestImm .test rm bit) s

/-- BT with a register (R363). -/
def execBtReg (reg : RegNum) (rm : RM) (s : State) : Host.Outcome State Fault Refusal :=
  complete (bitTestReg .test reg rm) s

/-- BTC with an immediate (R364). -/
def execBtcImm (rm : RM) (bit : BitVec 8) (s : State) : Host.Outcome State Fault Refusal :=
  complete (bitTestImm .complement rm bit) s

/-- BTC with a register (R364). -/
def execBtcReg (reg : RegNum) (rm : RM) (s : State) : Host.Outcome State Fault Refusal :=
  complete (bitTestReg .complement reg rm) s

/-- BTR with an immediate (R365). -/
def execBtrImm (rm : RM) (bit : BitVec 8) (s : State) : Host.Outcome State Fault Refusal :=
  complete (bitTestImm .reset rm bit) s

/-- BTR with a register (R365). -/
def execBtrReg (reg : RegNum) (rm : RM) (s : State) : Host.Outcome State Fault Refusal :=
  complete (bitTestReg .reset reg rm) s

/-- BTS with an immediate (R366). -/
def execBtsImm (rm : RM) (bit : BitVec 8) (s : State) : Host.Outcome State Fault Refusal :=
  complete (bitTestImm .set rm bit) s

/-- BTS with a register (R366). -/
def execBtsReg (reg : RegNum) (rm : RM) (s : State) : Host.Outcome State Fault Refusal :=
  complete (bitTestReg .set reg rm) s

/-- The bytes of a doubleword in reverse order (R571). -/
def byteSwap (v : BitVec 32) : BitVec 32 :=
  v.extractLsb' 0 8 ++ v.extractLsb' 8 8 ++ v.extractLsb' 16 8 ++ v.extractLsb' 24 8

/-- BSWAP (R571): with OS = 16 the low half becomes undefined. -/
def execBswap (reg : RegNum) (s : State) : Host.Outcome State Fault Refusal :=
  complete (match s.os with
    | .s16 => do
      let u ← drawWord
      setReg .w16 reg u
    | .s32 => setReg .w32 reg (byteSwap (s.reg .w32 reg))) s

/-- The write check of an r/m destination (R572, R573). -/
def probeRM (w : Width) : RM → M Unit
  | .reg _ => pure ()
  | .mem m => do
    let s ← getS
    probeWrite (s.memSeg m) (s.ea m) w.bytes w.bytes

/-- CMPXCHG (R572): the destination is always written. -/
def execCmpxchg (w : Bool) (reg : RegNum) (rm : RM) (s : State) : Host.Outcome State Fault Refusal :=
  let wd := s.opW w
  complete (do
    probeRM wd rm
    let d ← readRM wd rm
    let acc := s.reg wd rAX
    updFlags (fun f => f.status (subN acc d false))
    if acc = d then writeRM wd rm (s.reg wd reg)
    else
      writeRM wd rm d
      setReg wd rAX d) s

/-- XADD (R573): the register takes the old destination, then the sum is written; the destination's address is
computed from the registers before the instruction (R145). -/
def execXadd (w : Bool) (reg : RegNum) (rm : RM) (s : State) : Host.Outcome State Fault Refusal :=
  let wd := s.opW w
  complete (do
    probeRM wd rm
    let d ← readRM wd rm
    let o := addN d (s.reg wd reg) false
    match rm with
    | .reg r => do
      setReg wd reg d
      setReg wd r o.r
    | .mem m => do
      writeRM wd (.mem m) o.r
      setReg wd reg d
    updFlags (fun f => f.status o)) s

/-- INVD (R574): no state the model holds changes. -/
def execInvd (s : State) : Host.Outcome State Fault Refusal := complete privileged s

/-- WBINVD (R575): no state the model holds changes. -/
def execWbinvd (s : State) : Host.Outcome State Fault Refusal := complete privileged s

/-- INVLPG (R576): the translation-buffer entry for the operand's page is removed; no check, no access. -/
def execInvlpg (mem : MemOp) (s : State) : Host.Outcome State Fault Refusal :=
  complete (do
    privileged
    let lin := s.linear (s.segs.get (s.memSeg mem)) (s.ea mem)
    updS (fun t => t.setTlb (tlbDrop t.tlb (lin.extractLsb' 12 20)))) s

end Sys2Proof.Machine
end

