-- ==== Sys2Proof/Machine/Control.lean ====
section
/-! DEFINITION. Control transfer, conditional jumps, conditional byte set, ENTER and LEAVE, and the interrupt
instructions (46_control_transfer.md). The transfers themselves are in Ops. -/

namespace Sys2Proof.Machine

/-- CALL direct within segment (R371). -/
def execCallNear (disp : Imm) (s : State) : Host.Outcome State Fault Refusal :=
  finish (callTo (s.relTarget (Imm.disp disp))) s

/-- CALL indirect within segment (R372): the target is read before the push. -/
def execCallRm (rm : RM) (s : State) : Host.Outcome State Fault Refusal :=
  finish (do
    let t ← readRM s.os.width rm
    callTo (t.setWidth 32)) s

/-- CALL direct intersegment (R373). -/
def execCallFar (off : Off) (sel : BitVec 16) (s : State) : Host.Outcome State Fault Refusal :=
  finish (farTransfer sel (Off.val off) .call) s

/-- CALL indirect intersegment (R374). -/
def execCallMemFar (mem : MemOp) (s : State) : Host.Outcome State Fault Refusal :=
  finish (do
    let (sel, off) ← readFarPtr mem
    farTransfer sel off .call) s

/-- JMP short (R375). -/
def execJmpShort (disp : BitVec 8) (s : State) : Host.Outcome State Fault Refusal :=
  finish (jumpRel (disp.signExtend 32)) s

/-- JMP direct within segment (R376). -/
def execJmpNear (disp : Imm) (s : State) : Host.Outcome State Fault Refusal :=
  finish (jumpRel (Imm.disp disp)) s

/-- JMP indirect within segment (R377). -/
def execJmpRm (rm : RM) (s : State) : Host.Outcome State Fault Refusal :=
  finish (do
    let t ← readRM s.os.width rm
    nearTransfer (t.setWidth 32)) s

/-- JMP direct intersegment (R378). -/
def execJmpFar (off : Off) (sel : BitVec 16) (s : State) : Host.Outcome State Fault Refusal :=
  finish (farTransfer sel (Off.val off) .jmp) s

/-- JMP indirect intersegment (R379). -/
def execJmpMemFar (mem : MemOp) (s : State) : Host.Outcome State Fault Refusal :=
  finish (do
    let (sel, off) ← readFarPtr mem
    farTransfer sel off .jmp) s

/-- A near return that releases `k` bytes more (R381, R382). -/
def nearReturn (k : BitVec 16) : M Unit := do
  let s ← getS
  let t ← pop s.os.width
  let t' := ipMask s.os (t.setWidth 32)
  checkTarget t'
  updS (fun u => u.setGpr (u.gprWithSp (u.spAdd (k.setWidth 32))))
  jumpTo t'

/-- RET within segment (R381). -/
def execRetNear (s : State) : Host.Outcome State Fault Refusal :=
  finish (nearReturn 0#16) s

/-- RET within segment adding immediate to SP (R382). -/
def execRetNearImm (count : BitVec 16) (s : State) : Host.Outcome State Fault Refusal :=
  finish (nearReturn count) s

/-- RET intersegment (R383). -/
def execRetFar (s : State) : Host.Outcome State Fault Refusal :=
  finish (farReturn 0#16) s

/-- RET intersegment adding immediate to SP (R384). -/
def execRetFarImm (count : BitVec 16) (s : State) : Host.Outcome State Fault Refusal :=
  finish (farReturn count) s

/-- A conditional jump (R386): the limit check is made only when it is taken. -/
def jumpIf (taken : Bool) (d : BitVec 32) : M Unit := if taken then jumpRel d else advance

/-- JO (R387). -/
def execJO (disp : Imm) (s : State) : Host.Outcome State Fault Refusal :=
  finish (jumpIf (s.flags.cond .o) (Imm.disp disp)) s

/-- JNO (R388). -/
def execJNo (disp : Imm) (s : State) : Host.Outcome State Fault Refusal :=
  finish (jumpIf (s.flags.cond .no) (Imm.disp disp)) s

/-- JB/JNAE (R389). -/
def execJB (disp : Imm) (s : State) : Host.Outcome State Fault Refusal :=
  finish (jumpIf (s.flags.cond .b) (Imm.disp disp)) s

/-- JNB/JAE (R390). -/
def execJNb (disp : Imm) (s : State) : Host.Outcome State Fault Refusal :=
  finish (jumpIf (s.flags.cond .nb) (Imm.disp disp)) s

/-- JE/JZ (R391). -/
def execJE (disp : Imm) (s : State) : Host.Outcome State Fault Refusal :=
  finish (jumpIf (s.flags.cond .e) (Imm.disp disp)) s

/-- JNE/JNZ (R392). -/
def execJNe (disp : Imm) (s : State) : Host.Outcome State Fault Refusal :=
  finish (jumpIf (s.flags.cond .ne) (Imm.disp disp)) s

/-- JBE/JNA (R393). -/
def execJBe (disp : Imm) (s : State) : Host.Outcome State Fault Refusal :=
  finish (jumpIf (s.flags.cond .be) (Imm.disp disp)) s

/-- JNBE/JA (R394). -/
def execJNbe (disp : Imm) (s : State) : Host.Outcome State Fault Refusal :=
  finish (jumpIf (s.flags.cond .nbe) (Imm.disp disp)) s

/-- JS (R395). -/
def execJS (disp : Imm) (s : State) : Host.Outcome State Fault Refusal :=
  finish (jumpIf (s.flags.cond .s) (Imm.disp disp)) s

/-- JNS (R396). -/
def execJNs (disp : Imm) (s : State) : Host.Outcome State Fault Refusal :=
  finish (jumpIf (s.flags.cond .ns) (Imm.disp disp)) s

/-- JP/JPE (R397). -/
def execJP (disp : Imm) (s : State) : Host.Outcome State Fault Refusal :=
  finish (jumpIf (s.flags.cond .p) (Imm.disp disp)) s

/-- JNP/JPO (R398). -/
def execJNp (disp : Imm) (s : State) : Host.Outcome State Fault Refusal :=
  finish (jumpIf (s.flags.cond .np) (Imm.disp disp)) s

/-- JL/JNGE (R399). -/
def execJL (disp : Imm) (s : State) : Host.Outcome State Fault Refusal :=
  finish (jumpIf (s.flags.cond .l) (Imm.disp disp)) s

/-- JNL/JGE (R400). -/
def execJNl (disp : Imm) (s : State) : Host.Outcome State Fault Refusal :=
  finish (jumpIf (s.flags.cond .nl) (Imm.disp disp)) s

/-- JLE/JNG (R401). -/
def execJLe (disp : Imm) (s : State) : Host.Outcome State Fault Refusal :=
  finish (jumpIf (s.flags.cond .le) (Imm.disp disp)) s

/-- JNLE/JG (R402). -/
def execJNle (disp : Imm) (s : State) : Host.Outcome State Fault Refusal :=
  finish (jumpIf (s.flags.cond .nle) (Imm.disp disp)) s

/-- The register JCXZ tests: CX or ECX by JCXZ_SELECT (R403, D7). -/
def State.jcxzWidth (s : State) : Width := if s.cfg.jcxzByOperand then s.os.width else s.adr.width

/-- JCXZ, JECXZ (R403). -/
def execJcxz (disp : BitVec 8) (s : State) : Host.Outcome State Fault Refusal :=
  finish (jumpIf ((s.reg s.jcxzWidth rCX).toNat == 0) (disp.signExtend 32)) s

/-- The loop instructions: the count is lowered, then the jump if the count is not 0 and the flag condition holds
(R404). -/
def loopIf (cond : Bool) (d : BitVec 8) : M Unit := do
  updS (fun s => s.setGpr s.countDown)
  let s ← getS
  jumpIf (s.count != 0#32 && cond) (d.signExtend 32)

/-- LOOP (R404). -/
def execLoop (disp : BitVec 8) (s : State) : Host.Outcome State Fault Refusal :=
  finish (loopIf true disp) s

/-- LOOPZ, LOOPE (R405). -/
def execLoopz (disp : BitVec 8) (s : State) : Host.Outcome State Fault Refusal :=
  finish (loopIf s.flags.zf disp) s

/-- LOOPNZ, LOOPNE (R406). -/
def execLoopnz (disp : BitVec 8) (s : State) : Host.Outcome State Fault Refusal :=
  finish (loopIf (!s.flags.zf) disp) s

/-- SETcc: 1 or 0 as a byte (R700). -/
def setByte (rm : RM) (c : Bool) : M Unit := writeRM .w8 rm (if c then 1#8 else 0#8)

/-- SETO (R701); the middle field is ignored (R700). -/
def execSetO (_mid : BitVec 3) (rm : RM) (s : State) : Host.Outcome State Fault Refusal :=
  complete (setByte rm (s.flags.cond .o)) s

/-- SETNO (R702); the middle field is ignored (R700). -/
def execSetNo (_mid : BitVec 3) (rm : RM) (s : State) : Host.Outcome State Fault Refusal :=
  complete (setByte rm (s.flags.cond .no)) s

/-- SETB/SETNAE (R703); the middle field is ignored (R700). -/
def execSetB (_mid : BitVec 3) (rm : RM) (s : State) : Host.Outcome State Fault Refusal :=
  complete (setByte rm (s.flags.cond .b)) s

/-- SETNB/SETAE (R704); the middle field is ignored (R700). -/
def execSetNb (_mid : BitVec 3) (rm : RM) (s : State) : Host.Outcome State Fault Refusal :=
  complete (setByte rm (s.flags.cond .nb)) s

/-- SETE/SETZ (R705); the middle field is ignored (R700). -/
def execSetE (_mid : BitVec 3) (rm : RM) (s : State) : Host.Outcome State Fault Refusal :=
  complete (setByte rm (s.flags.cond .e)) s

/-- SETNE/SETNZ (R706); the middle field is ignored (R700). -/
def execSetNe (_mid : BitVec 3) (rm : RM) (s : State) : Host.Outcome State Fault Refusal :=
  complete (setByte rm (s.flags.cond .ne)) s

/-- SETBE/SETNA (R707); the middle field is ignored (R700). -/
def execSetBe (_mid : BitVec 3) (rm : RM) (s : State) : Host.Outcome State Fault Refusal :=
  complete (setByte rm (s.flags.cond .be)) s

/-- SETNBE/SETA (R708); the middle field is ignored (R700). -/
def execSetNbe (_mid : BitVec 3) (rm : RM) (s : State) : Host.Outcome State Fault Refusal :=
  complete (setByte rm (s.flags.cond .nbe)) s

/-- SETS (R709); the middle field is ignored (R700). -/
def execSetS (_mid : BitVec 3) (rm : RM) (s : State) : Host.Outcome State Fault Refusal :=
  complete (setByte rm (s.flags.cond .s)) s

/-- SETNS (R710); the middle field is ignored (R700). -/
def execSetNs (_mid : BitVec 3) (rm : RM) (s : State) : Host.Outcome State Fault Refusal :=
  complete (setByte rm (s.flags.cond .ns)) s

/-- SETP/SETPE (R711); the middle field is ignored (R700). -/
def execSetP (_mid : BitVec 3) (rm : RM) (s : State) : Host.Outcome State Fault Refusal :=
  complete (setByte rm (s.flags.cond .p)) s

/-- SETNP/SETPO (R712); the middle field is ignored (R700). -/
def execSetNp (_mid : BitVec 3) (rm : RM) (s : State) : Host.Outcome State Fault Refusal :=
  complete (setByte rm (s.flags.cond .np)) s

/-- SETL/SETNGE (R713); the middle field is ignored (R700). -/
def execSetL (_mid : BitVec 3) (rm : RM) (s : State) : Host.Outcome State Fault Refusal :=
  complete (setByte rm (s.flags.cond .l)) s

/-- SETNL/SETGE (R714); the middle field is ignored (R700). -/
def execSetNl (_mid : BitVec 3) (rm : RM) (s : State) : Host.Outcome State Fault Refusal :=
  complete (setByte rm (s.flags.cond .nl)) s

/-- SETLE/SETNG (R715); the middle field is ignored (R700). -/
def execSetLe (_mid : BitVec 3) (rm : RM) (s : State) : Host.Outcome State Fault Refusal :=
  complete (setByte rm (s.flags.cond .le)) s

/-- SETNLE/SETG (R716); the middle field is ignored (R700). -/
def execSetNle (_mid : BitVec 3) (rm : RM) (s : State) : Host.Outcome State Fault Refusal :=
  complete (setByte rm (s.flags.cond .nle)) s

/-- The frame pointers of the outer procedures that ENTER copies: `k` of them, each from below the last (R407). -/
def copyFrames (w : Width) : (k : Nat) → M Unit
  | 0 => pure ()
  | k + 1 => do
    let s ← getS
    let aw : Width := if s.stack32 then .w32 else .w16
    setReg aw rBP (s.reg aw rBP - BitVec.ofNat aw.bits w.bytes)
    let t ← getS
    let v ← segReadV w .ss ((t.reg aw rBP).setWidth 32)
    push w v
    copyFrames w k

/-- ENTER's accesses to the stack in their order (R407): the offset of each, and whether it writes. -/
def State.enterAccesses (s : State) (w : Width) (lev : Nat) : List (BitVec 32 × Bool) :=
  let pushed (i : Nat) : BitVec 32 × Bool := (s.spAdd (-(BitVec.ofNat 32 (w.bytes * (i + 1)))), true)
  let copied (i : Nat) : BitVec 32 × Bool :=
    (spTrunc s.stack32 (s.reg .w32 rBP - BitVec.ofNat 32 (w.bytes * (i + 1))), false)
  pushed 0 :: (if lev = 0 then []
    else (List.range (lev - 1)).flatMap (fun i => [copied i, pushed (i + 1)]) ++ [pushed lev])

/-- The segment checks of some stack accesses of `n` bytes. -/
def checkStackSegs (n : Nat) : List (BitVec 32 × Bool) → M Unit
  | [] => pure ()
  | (off, write) :: rest => do
    let _ ← segCheck .ss off n write
    checkStackSegs n rest

/-- All the checks of some stack accesses of `n` bytes. -/
def probeStack (n : Nat) : List (BitVec 32 × Bool) → M Unit
  | [] => pure ()
  | (off, write) :: rest => do
    probe .ss off n write n
    probeStack n rest

/-- The stack pointer ENTER leaves must lie within the stack segment (R407, log entry 39). -/
def checkTop (t : BitVec 32) : M Unit := do
  let s ← getS
  if segHolds s.segs.ss t 1 then pure () else raiseSS 0#16

/-- The checks of ENTER that the 80386 and 80486 make before the first write (R606): the segment checks of the whole
sequence, then page and alignment of each access in its order. -/
def checkEnter (w : Width) (lev : Nat) (frame : BitVec 16) : M Unit := do
  let s ← getS
  if s.has386 then do
    checkStackSegs w.bytes (s.enterAccesses w lev)
    checkTop (s.spAdd (-(BitVec.ofNat 32 (w.bytes * (lev + 1)) + frame.setWidth 32)))
    probeStack w.bytes (s.enterAccesses w lev)
  else pure ()

/-- ENTER (R407). With `OS = 32` and a 16-bit stack segment the frame value is SP zero-extended (log entry 61). -/
def execEnter (frame : BitVec 16) (level : BitVec 8) (s : State) : Host.Outcome State Fault Refusal :=
  let w := s.os.width
  let lev := level.toNat % 32
  complete (do
    checkEnter w lev frame
    push w (s.reg w rBP)
    let s1 ← getS
    let fp : Val w := s1.sp.setWidth w.bits
    (if lev = 0 then pure ()
    else do
      copyFrames w (lev - 1)
      push w fp)
    setReg w rBP fp
    let s2 ← getS
    let t := s2.spAdd (-(frame.setWidth 32))
    checkTop t
    setSp t) s

/-- LEAVE (R408). -/
def execLeave (s : State) : Host.Outcome State Fault Refusal :=
  let aw : Width := if s.stack32 then .w32 else .w16
  complete (do
    setSp ((s.reg aw rBP).setWidth 32)
    let v ← pop s.os.width
    setReg s.os.width rBP v) s

/-- INT n (R409): in virtual-8086 mode it requires IOPL = 3. -/
def execIntN (typ : BitVec 8) (s : State) : Host.Outcome State Fault Refusal :=
  if s.v86 && s.flags.iopl != 3#2 then finish (raiseGP 0#16) s else softwareInterrupt typ s

/-- INT 3 (R410). -/
def execInt3 (s : State) : Host.Outcome State Fault Refusal := softwareInterrupt 3#8 s

/-- INTO (R411). -/
def execInto (s : State) : Host.Outcome State Fault Refusal :=
  if s.flags.ovf then softwareInterrupt 4#8 s else complete (pure ()) s

/-- BOUND (R412): outside the two signed bounds raises interrupt 5, a fault. The offset of the upper one is formed in 32
bits (log entry 74). -/
def execBound (reg : RegNum) (mem : MemOp) (s : State) : Host.Outcome State Fault Refusal :=
  let w := s.os.width
  complete (do
    let k := s.memSeg mem
    let a := s.ea mem
    let lo ← segReadV w k a
    let hi ← segReadV w k (a + BitVec.ofNat 32 w.bytes)
    let v := (s.reg w reg).toInt
    if v < lo.toInt ∨ hi.toInt < v then raiseBR else pure ()) s

/-- IRET (R413). -/
def execIret (s : State) : Host.Outcome State Fault Refusal := finish interruptReturn s

end Sys2Proof.Machine
end

