-- ==== Sys2Proof/Machine/DataTransfer.lean ====
section
/-! DEFINITION. The data transfer instructions (40_data_transfer.md) and the pointer loads (R230 to R234). -/

namespace Sys2Proof.Machine

/-- `Write_n(rm, R_n[reg])`. -/
def moveToRM (w : Bool) (reg : RegNum) (rm : RM) : M Unit := do
  let s ← getS
  let v ← getReg (s.opW w) reg
  writeRM (s.opW w) rm v

/-- `R_n[reg] <- Read_n(rm)`. -/
def moveFromRM (w : Bool) (reg : RegNum) (rm : RM) : M Unit := do
  let s ← getS
  let v ← readRM (s.opW w) rm
  setReg (s.opW w) reg v

/-- MOV register to register/memory (R200). -/
def execMovRmReg (w : Bool) (reg : RegNum) (rm : RM) (s : State) : Host.Outcome State Fault Refusal :=
  complete (moveToRM w reg rm) s

/-- MOV register/memory to register (R200). -/
def execMovRegRm (w : Bool) (reg : RegNum) (rm : RM) (s : State) : Host.Outcome State Fault Refusal :=
  complete (moveFromRM w reg rm) s

/-- MOV immediate to register/memory (R201). -/
def execMovRmImm (w : Bool) (rm : RM) (imm : Imm) (s : State) : Host.Outcome State Fault Refusal :=
  complete (writeRM (s.opW w) rm (Imm.val (s.opW w) imm)) s

/-- MOV immediate to register (R202). -/
def execMovRegImm (w : Bool) (reg : RegNum) (imm : Imm) (s : State) : Host.Outcome State Fault Refusal :=
  complete (setReg (s.opW w) reg (Imm.val (s.opW w) imm)) s

/-- The segment of a direct address: DS unless overridden (R203). -/
def State.directSeg (s : State) : SReg := s.cur.seg.getD .ds

/-- MOV memory at a direct address to the accumulator (R203). -/
def execMovAccMem (w : Bool) (addr : Off) (s : State) : Host.Outcome State Fault Refusal :=
  complete (do
    let v ← segReadV (s.opW w) s.directSeg (Off.val addr)
    setReg (s.opW w) rAX v) s

/-- MOV the accumulator to memory at a direct address (R203). -/
def execMovMemAcc (w : Bool) (addr : Off) (s : State) : Host.Outcome State Fault Refusal :=
  complete (segWriteV (s.opW w) s.directSeg (Off.val addr) (s.reg (s.opW w) rAX)) s

/-- The shadow after a load of SS (R620 (a)): the next boundary recognises nothing; it does not chain. -/
def shadowSs : M Unit :=
  updCtl (fun c => if c.prevShadow = .none then { c with shadow := .ss, dbPending := false } else c)

/-- The shadow, where the register loaded is SS. -/
def shadowIfSs (k : SReg) : M Unit := if k = .ss then shadowSs else pure ()

/-- MOV register/memory to segment register (R204). -/
def execMovSregRm (sreg : SReg) (rm : RM) (s : State) : Host.Outcome State Fault Refusal :=
  complete (do
    let v ← readRM .w16 rm
    loadSeg sreg v
    shadowIfSs sreg) s

/-- MOV segment register to register/memory (R205): memory always takes 16 bits. -/
def execMovRmSreg (sreg : SReg) (rm : RM) (s : State) : Host.Outcome State Fault Refusal :=
  complete (match rm with
    | .reg r => do
      let v ← selItem s.os.width (s.segs.get sreg).sel
      setReg s.os.width r v
    | .mem m => writeRM .w16 (.mem m) (s.segs.get sreg).sel) s

/-- The source width of MOVSX and MOVZX (R206). -/
def extSource (w : Bool) : Width := if w then .w16 else .w8

/-- MOVSX (R206). -/
def execMovsx (w : Bool) (reg : RegNum) (rm : RM) (s : State) : Host.Outcome State Fault Refusal :=
  complete (do
    let v ← readRM (extSource w) rm
    setReg s.os.width reg (v.signExtend s.os.width.bits)) s

/-- MOVZX (R207). -/
def execMovzx (w : Bool) (reg : RegNum) (rm : RM) (s : State) : Host.Outcome State Fault Refusal :=
  complete (do
    let v ← readRM (extSource w) rm
    setReg s.os.width reg (v.setWidth s.os.width.bits)) s

/-- PUSH register/memory (R208). -/
def execPushRm (rm : RM) (s : State) : Host.Outcome State Fault Refusal :=
  complete (do
    let v ← readRM s.os.width rm
    push s.os.width v) s

/-- PUSH register (R209): PUSH SP pushes the value before the instruction. -/
def execPushReg (reg : RegNum) (s : State) : Host.Outcome State Fault Refusal :=
  complete (push s.os.width (s.reg s.os.width reg)) s

/-- PUSH ES, CS, SS or DS (R210). -/
def execPushSreg (sreg : SReg) (s : State) : Host.Outcome State Fault Refusal :=
  complete (pushSel s.os.width (s.segs.get sreg).sel) s

/-- PUSH FS (R210). -/
def execPushFs (s : State) : Host.Outcome State Fault Refusal :=
  complete (pushSel s.os.width s.segs.fs.sel) s

/-- PUSH GS (R210). -/
def execPushGs (s : State) : Host.Outcome State Fault Refusal :=
  complete (pushSel s.os.width s.segs.gs.sel) s

/-- PUSH immediate (R211): one byte sign-extended when s = 1. -/
def execPushImm (_sx : Bool) (imm : Imm) (s : State) : Host.Outcome State Fault Refusal :=
  complete (push s.os.width (Imm.val s.os.width imm)) s

/-- Real-address mode with SP = 1, 3 or 5 (R212, log entry 54). -/
def pushaWraps (s : State) : Bool :=
  !s.sys.cr0.pe && (s.sp == 1#32 || s.sp == 3#32 || s.sp == 5#32)

/-- Several pushes in order. -/
def pushAll (w : Width) : List (Val w) → M Unit
  | [] => pure ()
  | v :: vs => do
    push w v
    pushAll w vs

/-- PUSHA (R212): AX, CX, DX, BX, the SP before the instruction, BP, SI, DI; all slots checked first. In real-address
mode with SP = 1, 3 or 5 the registers before the slot that wraps are pushed, and then the 80286 shuts down and the
80386 and 80486 raise interrupt 13 (log entry 54). -/
def execPusha (s : State) : Host.Outcome State Fault Refusal :=
  let w := s.os.width
  let items : List (Val w) :=
    [s.reg w rAX, s.reg w rCX, s.reg w rDX, s.reg w rBX, s.reg w rSP, s.reg w rBP, s.reg w rSI, s.reg w rDI]
  complete (do
    if pushaWraps s then do
      pushAll w (items.take ((s.sp.toNat - 1) / w.bytes))
      (if s.has386 then raiseGP 0#16 else throw .shutdown)
    else do
      requireRoom w 8
      pushAll w items) s

/-- POP register/memory (R213): the destination's address is computed after the pop. -/
def execPopRm (rm : RM) (s : State) : Host.Outcome State Fault Refusal :=
  complete (do
    let v ← pop s.os.width
    writeRM s.os.width rm v) s

/-- POP register (R214). -/
def execPopReg (reg : RegNum) (s : State) : Host.Outcome State Fault Refusal :=
  complete (do
    let v ← pop s.os.width
    setReg s.os.width reg v) s

/-- POP segment register (R215): the pointer moves only if the load succeeds. -/
def popSeg (w : Width) (k : SReg) : M Unit := do
  let v ← peek w 0
  loadSeg k (itemSel v)
  let s ← getS
  setSp (s.spAdd (BitVec.ofNat 32 w.bytes))
  shadowIfSs k

/-- POP ES (R215). -/
def execPopEs (s : State) : Host.Outcome State Fault Refusal := complete (popSeg s.os.width .es) s

/-- POP SS (R215). -/
def execPopSs (s : State) : Host.Outcome State Fault Refusal := complete (popSeg s.os.width .ss) s

/-- POP DS (R215). -/
def execPopDs (s : State) : Host.Outcome State Fault Refusal := complete (popSeg s.os.width .ds) s

/-- POP FS (R215). -/
def execPopFs (s : State) : Host.Outcome State Fault Refusal := complete (popSeg s.os.width .fs) s

/-- POP GS (R215). -/
def execPopGs (s : State) : Host.Outcome State Fault Refusal := complete (popSeg s.os.width .gs) s

/-- POPA (R216): DI, SI, BP, one slot discarded, BX, DX, CX, AX. -/
def execPopa (s : State) : Host.Outcome State Fault Refusal :=
  let w := s.os.width
  complete (do
    let di ← pop w
    let si ← pop w
    let bp ← pop w
    let _ ← pop w
    let bx ← pop w
    let dx ← pop w
    let cx ← pop w
    let ax ← pop w
    setReg w rDI di
    setReg w rSI si
    setReg w rBP bp
    setReg w rBX bx
    setReg w rDX dx
    setReg w rCX cx
    setReg w rAX ax) s

/-- XCHG register/memory with register (R217). -/
def execXchgRmReg (w : Bool) (reg : RegNum) (rm : RM) (s : State) : Host.Outcome State Fault Refusal :=
  complete (do
    let a ← readRM (s.opW w) rm
    writeRM (s.opW w) rm (s.reg (s.opW w) reg)
    setReg (s.opW w) reg a) s

/-- XCHG register with accumulator (R218). -/
def execXchgAcc (reg : RegNum) (s : State) : Host.Outcome State Fault Refusal :=
  complete (do
    setReg s.os.width rAX (s.reg s.os.width reg)
    setReg s.os.width reg (s.reg s.os.width rAX)) s

/-- IN (R219, R220): permission, then the port is read into the accumulator. -/
def inputTo (w : Width) (port : BitVec 16) : M Unit := do
  ioPermitted port w.bytes
  let v ← ioRead port w
  setReg w rAX v

/-- OUT (R221, R222). -/
def outputFrom (w : Width) (port : BitVec 16) : M Unit := do
  ioPermitted port w.bytes
  let v ← getReg w rAX
  ioWrite port w v

/-- IN from a fixed port (R219). -/
def execInPort (w : Bool) (port : BitVec 8) (s : State) : Host.Outcome State Fault Refusal :=
  complete (inputTo (s.opW w) (port.setWidth 16)) s

/-- IN from the port in DX (R220). -/
def execInDx (w : Bool) (s : State) : Host.Outcome State Fault Refusal :=
  complete (inputTo (s.opW w) (s.reg .w16 rDX)) s

/-- OUT to a fixed port (R221). -/
def execOutPort (w : Bool) (port : BitVec 8) (s : State) : Host.Outcome State Fault Refusal :=
  complete (outputFrom (s.opW w) (port.setWidth 16)) s

/-- OUT to the port in DX (R222). -/
def execOutDx (w : Bool) (s : State) : Host.Outcome State Fault Refusal :=
  complete (outputFrom (s.opW w) (s.reg .w16 rDX)) s

/-- LEA (R223): no memory is accessed. -/
def execLea (reg : RegNum) (mem : MemOp) (s : State) : Host.Outcome State Fault Refusal :=
  complete (setReg s.os.width reg ((s.ea mem).setWidth s.os.width.bits)) s

/-- The pointer loads (R230 to R234): both reads, the segment register, then the general register. -/
def loadPointer (k : SReg) (reg : RegNum) (mem : MemOp) : M Unit := do
  let s ← getS
  let (sel, off) ← readFarPtr mem
  loadSeg k sel
  setReg s.os.width reg (off.setWidth s.os.width.bits)

/-- LDS (R230). -/
def execLds (reg : RegNum) (mem : MemOp) (s : State) : Host.Outcome State Fault Refusal :=
  complete (loadPointer .ds reg mem) s

/-- LES (R231). -/
def execLes (reg : RegNum) (mem : MemOp) (s : State) : Host.Outcome State Fault Refusal :=
  complete (loadPointer .es reg mem) s

/-- LFS (R232). -/
def execLfs (reg : RegNum) (mem : MemOp) (s : State) : Host.Outcome State Fault Refusal :=
  complete (loadPointer .fs reg mem) s

/-- LGS (R233). -/
def execLgs (reg : RegNum) (mem : MemOp) (s : State) : Host.Outcome State Fault Refusal :=
  complete (loadPointer .gs reg mem) s

/-- LSS (R234): both registers change together; no shadow follows. -/
def execLss (reg : RegNum) (mem : MemOp) (s : State) : Host.Outcome State Fault Refusal :=
  complete (loadPointer .ss reg mem) s

end Sys2Proof.Machine
end

