-- ==== Sys2Proof/Machine/FlagControl.lean ====
section
/-! DEFINITION. The flag control instructions (41_segment_flag_control.md). -/

namespace Sys2Proof.Machine

/-- CLC (R240). -/
def execClc (s : State) : Host.Outcome State Fault Refusal :=
  complete (updFlags (fun f => { f with cf := false })) s

/-- CLD (R241). -/
def execCld (s : State) : Host.Outcome State Fault Refusal :=
  complete (updFlags (fun f => { f with df := false })) s

/-- CLI (R242). -/
def execCli (s : State) : Host.Outcome State Fault Refusal :=
  complete (do
    ioplSensitive
    updFlags (fun f => { f with ie := false })) s

/-- CLTS (R243). -/
def execClts (s : State) : Host.Outcome State Fault Refusal :=
  complete (do
    privileged
    updCr0 (fun c => { c with ts := false })) s

/-- CMC (R244). -/
def execCmc (s : State) : Host.Outcome State Fault Refusal :=
  complete (updFlags (fun f => { f with cf := !f.cf })) s

/-- LAHF (R245): AH takes FLAGS bits 7:0. -/
def execLahf (s : State) : Host.Outcome State Fault Refusal :=
  complete (setReg .w8 rAH (s.flags.word.extractLsb' 0 8)) s

/-- The flags after POPF (R246): with OS = 32 also AC (80486) and RF, which is cleared; VM is not changed. -/
def State.popFlags (s : State) (v : BitVec 32) (os : Size) : Flags :=
  let f := s.flags.load16 v s.flagRights
  match os with
  | .s16 => f
  | .s32 => { f with rf := false, ac := if s.has486 then bitOf v 18 else f.ac }

/-- POPF (R246). -/
def execPopf (s : State) : Host.Outcome State Fault Refusal :=
  complete (do
    v86Sensitive
    let v ← pop s.os.width
    updS (fun t => t.setFlags (s.popFlags (v.setWidth 32) s.os))) s

/-- The image PUSHF pushes (R247): VM and RF as 0. -/
def Flags.pushImage (f : Flags) : BitVec 32 := f.word &&& 0x00FCFFFF#32

/-- PUSHF (R247). -/
def execPushf (s : State) : Host.Outcome State Fault Refusal :=
  complete (do
    v86Sensitive
    push s.os.width (s.flags.pushImage.setWidth s.os.width.bits)) s

/-- SAHF (R248). -/
def execSahf (s : State) : Host.Outcome State Fault Refusal :=
  let ah : BitVec 8 := s.reg .w8 rAH
  complete (updFlags (fun f =>
    { f with sf := bitOf ah 7, zf := bitOf ah 6, af := bitOf ah 4, pf := bitOf ah 2, cf := bitOf ah 0 })) s

/-- STC (R249). -/
def execStc (s : State) : Host.Outcome State Fault Refusal :=
  complete (updFlags (fun f => { f with cf := true })) s

/-- STD (R250). -/
def execStd (s : State) : Host.Outcome State Fault Refusal :=
  complete (updFlags (fun f => { f with df := true })) s

/-- The shadow after STI executed with IF = 0 (R251, R620 (b)); it does not chain. -/
def shadowSti (wasSet : Bool) : M Unit :=
  updCtl (fun c => if !wasSet && c.prevShadow == .none then { c with shadow := .sti } else c)

/-- STI (R251). -/
def execSti (s : State) : Host.Outcome State Fault Refusal :=
  complete (do
    ioplSensitive
    updFlags (fun f => { f with ie := true })
    shadowSti s.flags.ie) s

end Sys2Proof.Machine
end

