-- ==== Sys2Proof/Machine/Logic.lean ====
section
/-! DEFINITION. The logic, shift and rotate instructions (43_logic.md). -/

namespace Sys2Proof.Machine

/-- OR register/memory with register (R312). -/
def execOrRmReg (d w : Bool) (reg : RegNum) (rm : RM) (s : State) : Host.Outcome State Fault Refusal :=
  complete (aluRmReg .or d w reg rm) s

/-- OR immediate with register/memory (R312). -/
def execOrRmImm (_sx w : Bool) (rm : RM) (imm : Imm) (s : State) : Host.Outcome State Fault Refusal :=
  complete (aluRmImm .or w rm imm) s

/-- OR immediate with accumulator (R312). -/
def execOrAccImm (w : Bool) (imm : Imm) (s : State) : Host.Outcome State Fault Refusal :=
  complete (aluRmImm .or w (.reg rAX) imm) s

/-- AND register/memory with register (R310). -/
def execAndRmReg (d w : Bool) (reg : RegNum) (rm : RM) (s : State) : Host.Outcome State Fault Refusal :=
  complete (aluRmReg .and d w reg rm) s

/-- AND immediate with register/memory (R310). -/
def execAndRmImm (_sx w : Bool) (rm : RM) (imm : Imm) (s : State) : Host.Outcome State Fault Refusal :=
  complete (aluRmImm .and w rm imm) s

/-- AND immediate with accumulator (R310). -/
def execAndAccImm (w : Bool) (imm : Imm) (s : State) : Host.Outcome State Fault Refusal :=
  complete (aluRmImm .and w (.reg rAX) imm) s

/-- XOR register/memory with register (R313). -/
def execXorRmReg (d w : Bool) (reg : RegNum) (rm : RM) (s : State) : Host.Outcome State Fault Refusal :=
  complete (aluRmReg .xor d w reg rm) s

/-- XOR immediate with register/memory (R313). -/
def execXorRmImm (_sx w : Bool) (rm : RM) (imm : Imm) (s : State) : Host.Outcome State Fault Refusal :=
  complete (aluRmImm .xor w rm imm) s

/-- XOR immediate with accumulator (R313). -/
def execXorAccImm (w : Bool) (imm : Imm) (s : State) : Host.Outcome State Fault Refusal :=
  complete (aluRmImm .xor w (.reg rAX) imm) s

/-- TEST (R311): the flags of AND, nothing written. -/
def testWith (wd : Width) (rm : RM) (b : Val wd) : M Unit := do
  let a ← readRM wd rm
  let _ ← aluCompute .and a b
  pure ()

/-- TEST register/memory and register (R311). -/
def execTestRmReg (w : Bool) (reg : RegNum) (rm : RM) (s : State) : Host.Outcome State Fault Refusal :=
  complete (testWith (s.opW w) rm (s.reg (s.opW w) reg)) s

/-- TEST immediate and register/memory (R311). -/
def execTestRmImm (w : Bool) (rm : RM) (imm : Imm) (s : State) : Host.Outcome State Fault Refusal :=
  complete (testWith (s.opW w) rm (Imm.val (s.opW w) imm)) s

/-- TEST immediate and accumulator (R311). -/
def execTestAccImm (w : Bool) (imm : Imm) (s : State) : Host.Outcome State Fault Refusal :=
  complete (testWith (s.opW w) (.reg rAX) (Imm.val (s.opW w) imm)) s

/-- NOT (R314). -/
def execNotRm (w : Bool) (rm : RM) (s : State) : Host.Outcome State Fault Refusal :=
  complete (do
    let a ← readRM (s.opW w) rm
    writeRM (s.opW w) rm (~~~a)) s

/-- The count of a shift or rotate: 1, CL or the immediate, its low five bits (R300). -/
def State.shiftCount (s : State) : Count → Nat
  | .one => 1
  | .cl => (s.reg .w8 rCL).toNat % 32
  | .imm v => v.toNat % 32

/-- A shift or rotate by `c` (R300): for c = 0 nothing happens. -/
def shiftRM (op : ShiftOp) (wd : Width) (rm : RM) (c : Nat) : M Unit :=
  if c = 0 then pure ()
  else do
    let a ← readRM wd rm
    let r ← shiftCompute op a c
    writeRM wd rm r

/-- ROL (R301). -/
def execRol (w : Bool) (rm : RM) (count : Count) (s : State) : Host.Outcome State Fault Refusal :=
  complete (shiftRM .rol (s.opW w) rm (s.shiftCount count)) s

/-- ROR (R302). -/
def execRor (w : Bool) (rm : RM) (count : Count) (s : State) : Host.Outcome State Fault Refusal :=
  complete (shiftRM .ror (s.opW w) rm (s.shiftCount count)) s

/-- RCL (R303). -/
def execRcl (w : Bool) (rm : RM) (count : Count) (s : State) : Host.Outcome State Fault Refusal :=
  complete (shiftRM .rcl (s.opW w) rm (s.shiftCount count)) s

/-- RCR (R304). -/
def execRcr (w : Bool) (rm : RM) (count : Count) (s : State) : Host.Outcome State Fault Refusal :=
  complete (shiftRM .rcr (s.opW w) rm (s.shiftCount count)) s

/-- SHL/SAL (R305). -/
def execShl (w : Bool) (rm : RM) (count : Count) (s : State) : Host.Outcome State Fault Refusal :=
  complete (shiftRM .shl (s.opW w) rm (s.shiftCount count)) s

/-- SHR (R306). -/
def execShr (w : Bool) (rm : RM) (count : Count) (s : State) : Host.Outcome State Fault Refusal :=
  complete (shiftRM .shr (s.opW w) rm (s.shiftCount count)) s

/-- SAR (R307). -/
def execSar (w : Bool) (rm : RM) (count : Count) (s : State) : Host.Outcome State Fault Refusal :=
  complete (shiftRM .sar (s.opW w) rm (s.shiftCount count)) s

/-- SHLD and SHRD by `c` (R308, R309): nothing for c = 0; result and flags undefined for c > n, where the destination
is read before it is written (log entry 67). -/
def doubleShift (left : Bool) (reg : RegNum) (rm : RM) (c : Nat) : M Unit :=
  if c = 0 then pure ()
  else do
    let s ← getS
    let w := s.os.width
    let a ← readRM w rm
    if w.bits < c then
      let r ← drawVal w
      writeRM w rm r
      undefStatus
    else
      let b := s.reg w reg
      let (r, cf) := if left then shldN a b c else shrdN a b c
      writeRM w rm r
      let ovf ← drawIf (c != 1) (r.msb != a.msb)
      let af ← drawBit
      updFlags (fun f => { f.zsp r with cf := cf, ovf := ovf, af := af })

/-- SHLD by an immediate count (R308). -/
def execShldImm (reg : RegNum) (rm : RM) (count : BitVec 8) (s : State) : Host.Outcome State Fault Refusal :=
  complete (doubleShift true reg rm (s.shiftCount (.imm count))) s

/-- SHLD by CL (R308). -/
def execShldCl (reg : RegNum) (rm : RM) (s : State) : Host.Outcome State Fault Refusal :=
  complete (doubleShift true reg rm (s.shiftCount .cl)) s

/-- SHRD by an immediate count (R309). -/
def execShrdImm (reg : RegNum) (rm : RM) (count : BitVec 8) (s : State) : Host.Outcome State Fault Refusal :=
  complete (doubleShift false reg rm (s.shiftCount (.imm count))) s

/-- SHRD by CL (R309). -/
def execShrdCl (reg : RegNum) (rm : RM) (s : State) : Host.Outcome State Fault Refusal :=
  complete (doubleShift false reg rm (s.shiftCount .cl)) s

end Sys2Proof.Machine
end

