-- ==== Sys2Proof/Decode.lean ====
section
/-! DEFINITION. The decoder (R130 to R171), total on any bytes, and the encoder written from the same encodings.
A prefix byte is an instruction of its own (a row of the table; log entry 10), except a repeat prefix that stands
directly before a string opcode, which is that row's two-byte form (R133). -/

namespace Sys2Proof

/-- Why the bytes give no instruction: more bytes are needed; #UD (R165); an encoding the spec refuses because the
parts execute something undocumented (R165, D21). -/
inductive DecErr where
  | more | ud | undocumented
deriving DecidableEq, Repr, Inhabited

/-- The decoder's parser: it reads bytes from the front of a list. -/
abbrev Parse := EStateM DecErr (List Byte)

/-- `Fetch8` of the decoder (R131), over the bytes already read. -/
def nextByte : Parse Byte := fun bs =>
  match bs with
  | [] => .error .more []
  | b :: rest => .ok b rest

/-- `Fetch16`, little-endian (R131, R76). -/
def nextWord : Parse (BitVec 16) := do
  let lo ← nextByte
  let hi ← nextByte
  pure (hi ++ lo)

/-- `Fetch32`, little-endian (R131, R76). -/
def nextDword : Parse (BitVec 32) := do
  let lo ← nextWord
  let hi ← nextWord
  pure (hi ++ lo)

/-- An immediate of a `w` form (R158). -/
def parseImm (os : Size) (w : Bool) : Parse Imm :=
  match w, os with
  | false, _ => Imm.i8 <$> nextByte
  | true, .s16 => Imm.i16 <$> nextWord
  | true, .s32 => Imm.i32 <$> nextDword

/-- A direct address or the offset of a far pointer (R158). -/
def parseOff (sz : Size) : Parse Off :=
  match sz with
  | .s16 => Off.o16 <$> nextWord
  | .s32 => Off.o32 <$> nextDword

/-- The displacement that `mod` asks for in 16-bit mode (R142). -/
def parseDisp16 (md : BitVec 2) : Parse Disp :=
  if md = 0#2 then pure .none
  else if md = 1#2 then Disp.d8 <$> nextByte
  else Disp.d16 <$> nextWord

/-- The displacement that `mod` asks for in 32-bit mode (R143). -/
def parseDisp32 (md : BitVec 2) : Parse Disp :=
  if md = 0#2 then pure .none
  else if md = 1#2 then Disp.d8 <$> nextByte
  else Disp.d32 <$> nextDword

/-- The s-i-b byte and what follows it (R144, R145). -/
def parseSib (md : BitVec 2) : Parse MemOp := do
  let s ← nextByte
  let ss := s.extractLsb' 6 2
  let index := s.extractLsb' 3 3
  let base := s.extractLsb' 0 3
  if base = 5#3 ∧ md = 0#2 then MemOp.sibNoBase ss index <$> nextDword
  else MemOp.sib ss index base <$> parseDisp32 md

/-- A memory operand whose mod r/m byte has `md` (not 11) and `rm` (R142 to R145). -/
def parseMem (adr : Size) (md : BitVec 2) (rm : BitVec 3) : Parse MemOp :=
  match adr with
  | .s16 =>
    if md = 0#2 ∧ rm = 6#3 then MemOp.direct16 <$> nextWord
    else MemOp.a16 rm <$> parseDisp16 md
  | .s32 =>
    if rm = 4#3 then parseSib md
    else if md = 0#2 ∧ rm = 5#3 then MemOp.direct32 <$> nextDword
    else MemOp.a32 rm <$> parseDisp32 md

/-- The mod r/m byte with what follows it: the middle field and the operand (R140, R145). -/
def parseModRM (c : Ctx) : Parse (BitVec 3 × RM) := do
  let b ← nextByte
  let md := b.extractLsb' 6 2
  let mid := b.extractLsb' 3 3
  let rm := b.extractLsb' 0 3
  if md = 3#2 then pure (mid, .reg rm)
  else
    let m ← parseMem c.adr md rm
    pure (mid, .mem m)

/-- A form `reg, r/m`. -/
def regRM (c : Ctx) (f : RegNum → RM → Instr) : Parse Instr := do
  let (mid, rm) ← parseModRM c
  pure (f mid rm)

/-- A form that requires a memory operand; #UD for mod = 11 (R166). -/
def regMem (c : Ctx) (f : RegNum → MemOp → Instr) : Parse Instr := do
  let (mid, rm) ← parseModRM c
  match rm with
  | .reg _ => throw .ud
  | .mem m => pure (f mid m)

/-- The memory operand of a group member that requires one (R166). -/
def needMem (rm : RM) (f : MemOp → Instr) : Parse Instr :=
  match rm with
  | .reg _ => throw .ud
  | .mem m => pure (f m)

/-- An encoding that exists since the 80386 (R171). -/
def since386 (c : Ctx) (p : Parse Instr) : Parse Instr :=
  if c.has386 then p else throw .ud

/-- An encoding that exists on the 80486 only (R171). -/
def since486 (c : Ctx) (p : Parse Instr) : Parse Instr :=
  if c.has486 then p else throw .ud

/-- The string instruction an opcode byte names, plain or under a repeat prefix with that z bit (R133). -/
def stringOp (rep : Option Bool) (b : Byte) : Option Instr :=
  let w := b.getLsbD 0
  match (b.extractLsb' 1 7).toNat with
  | 0x36 => some (match rep with
      | none => .ins w
      | some _ => .repIns w)
  | 0x37 => some (match rep with
      | none => .outs w
      | some _ => .repOuts w)
  | 0x52 => some (match rep with
      | none => .movs w
      | some _ => .repMovs w)
  | 0x53 => some (match rep with
      | none => .cmps w
      | some true => .repeCmps w
      | some false => .repneCmps w)
  | 0x55 => some (match rep with
      | none => .stos w
      | some _ => .repStos w)
  | 0x56 => some (match rep with
      | none => .lods w
      | some _ => .repLods w)
  | 0x57 => some (match rep with
      | none => .scas w
      | some true => .repeScas w
      | some false => .repneScas w)
  | _ => none

/-- A repeat prefix byte: with the string opcode behind it the two-byte row, else the prefix row (R133). -/
def parseRep (z : Bool) : Parse Instr := fun bs =>
  match bs with
  | [] => .error .more []
  | b :: rest =>
    match stringOp (some z) b with
    | some i => .ok i rest
    | none => .ok (if z then .repPrefix else .repnePrefix) (b :: rest)

/-- A string opcode with the repeat prefix read before (R133). -/
def parseString (c : Ctx) (b : Byte) : Parse Instr :=
  match stringOp c.rep b with
  | some i => pure i
  | none => throw .ud

/-- The segment register of the 3-bit field sreg3; 110 and 111 are reserved (R152). The 80286
ignores bit 5 of the mode byte (R152, log entry 55). -/
def parseSreg3 (c : Ctx) (mid : BitVec 3) : Parse SReg :=
  match (if c.cpu = .p286 then mid.toNat % 4 else mid.toNat) with
  | 0 => pure .es
  | 1 => pure .cs
  | 2 => pure .ss
  | 3 => pure .ds
  | 4 => pure .fs
  | 5 => pure .gs
  | _ => throw .ud

/-- The two-operand rows of one arithmetic or logic operation: low three opcode bits 0 to 5 (R160). -/
def parseAlu (c : Ctx) (b : Byte) (rr : Bool → Bool → RegNum → RM → Instr) (ai : Bool → Imm → Instr) :
    Parse Instr :=
  let w := b.getLsbD 0
  if b.getLsbD 2 then ai w <$> parseImm c.os w
  else regRM c (rr (b.getLsbD 1) w)

/-- Opcodes 00 to 3F: arithmetic and logic rows in the low six places of each eight, the others beside (R160). -/
def parse0to3 (c : Ctx) (b : Byte) (two : Parse Instr) : Parse Instr :=
  match (b.extractLsb' 3 3).toNat, (b.extractLsb' 0 3).toNat with
  | 0, 6 => pure (.pushSreg .es)
  | 0, 7 => pure .popEs
  | 1, 6 => pure (.pushSreg .cs)
  | 1, 7 => two
  | 2, 6 => pure (.pushSreg .ss)
  | 2, 7 => pure .popSs
  | 3, 6 => pure (.pushSreg .ds)
  | 3, 7 => pure .popDs
  | 4, 6 => pure .esPrefix
  | 4, 7 => pure .daa
  | 5, 6 => pure .csPrefix
  | 5, 7 => pure .das
  | 6, 6 => pure .ssPrefix
  | 6, 7 => pure .aaa
  | 7, 6 => pure .dsPrefix
  | 7, 7 => pure .aas
  | 0, _ => parseAlu c b .addRmReg .addAccImm
  | 1, _ => parseAlu c b .orRmReg .orAccImm
  | 2, _ => parseAlu c b .adcRmReg .adcAccImm
  | 3, _ => parseAlu c b .sbbRmReg .sbbAccImm
  | 4, _ => parseAlu c b .andRmReg .andAccImm
  | 5, _ => parseAlu c b .subRmReg .subAccImm
  | 6, _ => parseAlu c b .xorRmReg .xorAccImm
  | _, _ => parseAlu c b .cmpRmReg .cmpAccImm

/-- Opcodes 60 to 6F (R160). -/
def parse6 (c : Ctx) (b : Byte) : Parse Instr :=
  match (b.extractLsb' 0 4).toNat with
  | 0 => pure .pusha
  | 1 => pure .popa
  | 2 => regMem c .bound
  | 3 => regRM c .arpl
  | 4 => since386 c (pure .fsPrefix)
  | 5 => since386 c (pure .gsPrefix)
  | 6 => since386 c (pure .opSizePrefix)
  | 7 => since386 c (pure .addrSizePrefix)
  | 8 => Instr.pushImm false <$> parseImm c.os true
  | 9 => do
    let (mid, rm) ← parseModRM c
    Instr.imulRegRmImm false mid rm <$> parseImm c.os true
  | 10 => Instr.pushImm true <$> parseImm c.os false
  | 11 => do
    let (mid, rm) ← parseModRM c
    Instr.imulRegRmImm true mid rm <$> parseImm c.os false
  | _ => parseString c b

/-- The short conditional jumps, opcodes 70 to 7F (R160, R155). -/
def parse7 (b : Byte) : Parse Instr := do
  let d ← nextByte
  pure (match (b.extractLsb' 0 4).toNat with
    | 0 => .jO (.i8 d)
    | 1 => .jNo (.i8 d)
    | 2 => .jB (.i8 d)
    | 3 => .jNb (.i8 d)
    | 4 => .jE (.i8 d)
    | 5 => .jNe (.i8 d)
    | 6 => .jBe (.i8 d)
    | 7 => .jNbe (.i8 d)
    | 8 => .jS (.i8 d)
    | 9 => .jNs (.i8 d)
    | 10 => .jP (.i8 d)
    | 11 => .jNp (.i8 d)
    | 12 => .jL (.i8 d)
    | 13 => .jNl (.i8 d)
    | 14 => .jLe (.i8 d)
    | _ => .jNle (.i8 d))

/-- The immediate group, opcodes 80 to 83 (R162). -/
def parseImmGroup (c : Ctx) (b : Byte) : Parse Instr := do
  let s := b.getLsbD 1
  let w := b.getLsbD 0
  let (mid, rm) ← parseModRM c
  let imm ← parseImm c.os (w && !s)
  match mid.toNat with
  | 0 => pure (.addRmImm s w rm imm)
  | 1 => if c.has386 || !s then pure (.orRmImm s w rm imm) else throw .undocumented
  | 2 => pure (.adcRmImm s w rm imm)
  | 3 => pure (.sbbRmImm s w rm imm)
  | 4 => if c.has386 || !s then pure (.andRmImm s w rm imm) else throw .undocumented
  | 5 => pure (.subRmImm s w rm imm)
  | 6 => if c.has386 || !s then pure (.xorRmImm s w rm imm) else throw .undocumented
  | _ => pure (.cmpRmImm s w rm imm)

/-- Opcodes 80 to 8F (R160). -/
def parse8 (c : Ctx) (b : Byte) : Parse Instr :=
  let w := b.getLsbD 0
  match (b.extractLsb' 0 4).toNat with
  | 0 => parseImmGroup c b
  | 1 => parseImmGroup c b
  | 2 => parseImmGroup c b
  | 3 => parseImmGroup c b
  | 4 => regRM c (.testRmReg w)
  | 5 => regRM c (.testRmReg w)
  | 6 => regRM c (.xchgRmReg w)
  | 7 => regRM c (.xchgRmReg w)
  | 8 => regRM c (.movRmReg w)
  | 9 => regRM c (.movRmReg w)
  | 10 => regRM c (.movRegRm w)
  | 11 => regRM c (.movRegRm w)
  | 12 => do
    let (mid, rm) ← parseModRM c
    let s ← parseSreg3 c mid
    pure (.movRmSreg s rm)
  | 13 => regMem c .lea
  | 14 => do
    let (mid, rm) ← parseModRM c
    let s ← parseSreg3 c mid
    if s = .cs then throw .ud else pure (.movSregRm s rm)
  | _ => do
    let (mid, rm) ← parseModRM c
    if mid = 0#3 then pure (.popRm rm) else throw .ud

/-- Opcodes 90 to 9F (R160). -/
def parse9 (c : Ctx) (b : Byte) : Parse Instr :=
  match (b.extractLsb' 0 4).toNat with
  | 0 => pure .nop
  | 8 => pure .cbw
  | 9 => pure .cwd
  | 10 => do
    let off ← parseOff c.os
    let sel ← nextWord
    pure (.callFar off sel)
  | 11 => pure .wait
  | 12 => pure .pushf
  | 13 => pure .popf
  | 14 => pure .sahf
  | 15 => pure .lahf
  | _ => pure (.xchgAcc (b.extractLsb' 0 3))

/-- Opcodes A0 to AF (R160). -/
def parseA (c : Ctx) (b : Byte) : Parse Instr :=
  let w := b.getLsbD 0
  match (b.extractLsb' 0 4).toNat with
  | 0 => Instr.movAccMem w <$> parseOff c.adr
  | 1 => Instr.movAccMem w <$> parseOff c.adr
  | 2 => Instr.movMemAcc w <$> parseOff c.adr
  | 3 => Instr.movMemAcc w <$> parseOff c.adr
  | 8 => Instr.testAccImm w <$> parseImm c.os w
  | 9 => Instr.testAccImm w <$> parseImm c.os w
  | _ => parseString c b

/-- The shift and rotate group; 110 is refused (R162, R165). -/
def parseShift (c : Ctx) (w : Bool) (count : Parse Count) : Parse Instr := do
  let (mid, rm) ← parseModRM c
  let k ← count
  match mid.toNat with
  | 0 => pure (.rol w rm k)
  | 1 => pure (.ror w rm k)
  | 2 => pure (.rcl w rm k)
  | 3 => pure (.rcr w rm k)
  | 4 => pure (.shl w rm k)
  | 5 => pure (.shr w rm k)
  | 6 => throw .undocumented
  | _ => pure (.sar w rm k)

/-- Opcodes C0 to CF (R160). -/
def parseC (c : Ctx) (b : Byte) : Parse Instr :=
  let w := b.getLsbD 0
  let shifts : Parse Instr := parseShift c w (Count.imm <$> nextByte)
  let movImm : Parse Instr := do
    let (mid, rm) ← parseModRM c
    if mid = 0#3 then Instr.movRmImm w rm <$> parseImm c.os w else throw .ud
  match (b.extractLsb' 0 4).toNat with
  | 0 => shifts
  | 1 => shifts
  | 2 => Instr.retNearImm <$> nextWord
  | 3 => pure .retNear
  | 4 => regMem c .les
  | 5 => regMem c .lds
  | 6 => movImm
  | 7 => movImm
  | 8 => do
    let frame ← nextWord
    let level ← nextByte
    pure (.enter frame level)
  | 9 => pure .leave
  | 10 => Instr.retFarImm <$> nextWord
  | 11 => pure .retFar
  | 12 => pure .int3
  | 13 => Instr.intN <$> nextByte
  | 14 => pure .into
  | _ => pure .iret

/-- A coprocessor memory form (R163, R480). -/
def escMem (ttt lll : BitVec 3) (m : MemOp) : Instr :=
  match ttt.toNat, lll.toNat with
  | 0, 0 => .faddMem false m
  | 0, 1 => .fmulMem false m
  | 0, 2 => .fcomMem false m
  | 0, 3 => .fcompMem false m
  | 0, 4 => .fsubMem false m
  | 0, 5 => .fsubrMem false m
  | 0, 6 => .fdivMem false m
  | 0, 7 => .fdivrMem false m
  | 1, 0 => .fldMem false m
  | 1, 2 => .fstMem false m
  | 1, 3 => .fstpMem false m
  | 1, 4 => .fldenv m
  | 1, 5 => .fldcw m
  | 1, 6 => .fstenv m
  | 1, 7 => .fstcw m
  | 2, 0 => .fiadd false m
  | 2, 1 => .fimul false m
  | 2, 2 => .ficom false m
  | 2, 3 => .ficomp false m
  | 2, 4 => .fisub false m
  | 2, 5 => .fisubr false m
  | 2, 6 => .fidiv false m
  | 2, 7 => .fidivr false m
  | 3, 0 => .fild false m
  | 3, 2 => .fist false m
  | 3, 3 => .fistp false m
  | 3, 5 => .fldM80 m
  | 3, 7 => .fstpM80 m
  | 4, 0 => .faddMem true m
  | 4, 1 => .fmulMem true m
  | 4, 2 => .fcomMem true m
  | 4, 3 => .fcompMem true m
  | 4, 4 => .fsubMem true m
  | 4, 5 => .fsubrMem true m
  | 4, 6 => .fdivMem true m
  | 4, 7 => .fdivrMem true m
  | 5, 0 => .fldMem true m
  | 5, 2 => .fstMem true m
  | 5, 3 => .fstpMem true m
  | 5, 4 => .frstor m
  | 5, 6 => .fsave m
  | 5, 7 => .fstsw m
  | 6, 0 => .fiadd true m
  | 6, 1 => .fimul true m
  | 6, 2 => .ficom true m
  | 6, 3 => .ficomp true m
  | 6, 4 => .fisub true m
  | 6, 5 => .fisubr true m
  | 6, 6 => .fidiv true m
  | 6, 7 => .fidivr true m
  | 7, 0 => .fild true m
  | 7, 2 => .fist true m
  | 7, 3 => .fistp true m
  | 7, 4 => .fbld m
  | 7, 5 => .fildM64 m
  | 7, 6 => .fbstp m
  | 7, 7 => .fistpM64 m
  | _, _ => .esc ttt lll (.mem m)

/-- The D9 register encodings with one operation each: second byte E0 to FF (R480). -/
def escD9 (c : Ctx) (lll r : BitVec 3) : Instr :=
  let other : Instr := .esc 1#3 lll (.reg r)
  match lll.toNat, r.toNat with
  | 4, 0 => .fchs
  | 4, 1 => .fabs
  | 4, 4 => .ftst
  | 4, 5 => .fxam
  | 5, 0 => .fld1
  | 5, 1 => .fldl2t
  | 5, 2 => .fldl2e
  | 5, 3 => .fldpi
  | 5, 4 => .fldlg2
  | 5, 5 => .fldln2
  | 5, 6 => .fldz
  | 6, 0 => .f2xm1
  | 6, 1 => .fyl2x
  | 6, 2 => .fptan
  | 6, 3 => .fpatan
  | 6, 4 => .fxtract
  | 6, 5 => if c.has386 then .fprem1 else other
  | 6, 6 => .fdecstp
  | 6, 7 => .fincstp
  | 7, 0 => .fprem
  | 7, 1 => .fyl2xp1
  | 7, 2 => .fsqrt
  | 7, 3 => if c.has386 then .fsincos else other
  | 7, 4 => .frndint
  | 7, 5 => .fscale
  | 7, 6 => if c.has386 then .fsin else other
  | 7, 7 => if c.has386 then .fcos else other
  | _, _ => other

/-- A coprocessor register encoding (R163, R480). -/
def escReg (c : Ctx) (ttt lll r : BitVec 3) : Instr :=
  let other : Instr := .esc ttt lll (.reg r)
  match ttt.toNat, lll.toNat with
  | 0, 0 => .faddSt false r
  | 0, 1 => .fmulSt false r
  | 0, 2 => .fcomSt r
  | 0, 3 => .fcompSt r
  | 0, 4 => .fsubSt false r
  | 0, 5 => .fsubrSt false r
  | 0, 6 => .fdivSt false r
  | 0, 7 => .fdivrSt false r
  | 1, 0 => .fldSt r
  | 1, 1 => .fxch r
  | 1, 2 => if r = 0#3 then .fnop else other
  | 1, 3 => other
  | 1, _ => escD9 c lll r
  | 2, 5 => if r = 1#3 && c.has386 then .fucompp else other
  | 3, 4 => if r = 2#3 then .fclex else if r = 3#3 then .finit
    else if r = 4#3 && !c.has386 then .fsetpm else other
  | 4, 0 => .faddSt true r
  | 4, 1 => .fmulSt true r
  | 4, 4 => .fsubrSt true r
  | 4, 5 => .fsubSt true r
  | 4, 6 => .fdivrSt true r
  | 4, 7 => .fdivSt true r
  | 5, 0 => .ffree r
  | 5, 2 => .fstSt r
  | 5, 3 => .fstpSt r
  | 5, 4 => if c.has386 then .fucom r else other
  | 5, 5 => if c.has386 then .fucomp r else other
  | 6, 0 => .faddp r
  | 6, 1 => .fmulp r
  | 6, 3 => if r = 1#3 then .fcompp else other
  | 6, 4 => .fsubrp r
  | 6, 5 => .fsubp r
  | 6, 6 => .fdivrp r
  | 6, 7 => .fdivp r
  | 7, 4 => if r = 0#3 then .fstswAx else other
  | _, _ => other

/-- The escape, opcodes D8 to DF (R163, R424): an encoding no row assigns stays the row ESC itself. -/
def parseEsc (c : Ctx) (b : Byte) : Parse Instr := do
  let ttt := b.extractLsb' 0 3
  let (mid, rm) ← parseModRM c
  match rm with
  | .reg r => pure (escReg c ttt mid r)
  | .mem m => pure (escMem ttt mid m)

/-- Opcodes D0 to DF (R160). -/
def parseD (c : Ctx) (b : Byte) : Parse Instr :=
  let w := b.getLsbD 0
  match (b.extractLsb' 0 4).toNat with
  | 0 => parseShift c w (pure .one)
  | 1 => parseShift c w (pure .one)
  | 2 => parseShift c w (pure .cl)
  | 3 => parseShift c w (pure .cl)
  | 4 => do
    let k ← nextByte
    if k = 0x0A#8 then pure .aam else throw .undocumented
  | 5 => do
    let k ← nextByte
    if k = 0x0A#8 then pure .aad else throw .undocumented
  | 6 => throw .undocumented
  | 7 => pure .xlat
  | _ => parseEsc c b

/-- Opcodes E0 to EF (R160). -/
def parseE (c : Ctx) (b : Byte) : Parse Instr :=
  let w := b.getLsbD 0
  match (b.extractLsb' 0 4).toNat with
  | 0 => Instr.loopnz <$> nextByte
  | 1 => Instr.loopz <$> nextByte
  | 2 => Instr.loop <$> nextByte
  | 3 => Instr.jcxz <$> nextByte
  | 4 => Instr.inPort w <$> nextByte
  | 5 => Instr.inPort w <$> nextByte
  | 6 => Instr.outPort w <$> nextByte
  | 7 => Instr.outPort w <$> nextByte
  | 8 => Instr.callNear <$> parseImm c.os true
  | 9 => Instr.jmpNear <$> parseImm c.os true
  | 10 => do
    let off ← parseOff c.os
    let sel ← nextWord
    pure (.jmpFar off sel)
  | 11 => Instr.jmpShort <$> nextByte
  | 12 => pure (.inDx w)
  | 13 => pure (.inDx w)
  | 14 => pure (.outDx w)
  | _ => pure (.outDx w)

/-- The groups F6 and F7; /1 is refused (R160, R165). -/
def parseF6 (c : Ctx) (w : Bool) : Parse Instr := do
  let (mid, rm) ← parseModRM c
  match mid.toNat with
  | 0 => Instr.testRmImm w rm <$> parseImm c.os w
  | 1 => throw .undocumented
  | 2 => pure (.notRm w rm)
  | 3 => pure (.neg w rm)
  | 4 => pure (.mul w rm)
  | 5 => pure (.imulAcc w rm)
  | 6 => pure (.div w rm)
  | _ => pure (.idiv w rm)

/-- The groups FE and FF (R160). -/
def parseFE (c : Ctx) (w : Bool) : Parse Instr := do
  let (mid, rm) ← parseModRM c
  match w, mid.toNat with
  | _, 0 => pure (.incRm w rm)
  | _, 1 => pure (.decRm w rm)
  | true, 2 => pure (.callRm rm)
  | true, 3 => needMem rm .callMemFar
  | true, 4 => pure (.jmpRm rm)
  | true, 5 => needMem rm .jmpMemFar
  | true, 6 => pure (.pushRm rm)
  | _, _ => throw .ud

/-- Opcodes F0 to FF (R160). -/
def parseF (c : Ctx) (b : Byte) : Parse Instr :=
  match (b.extractLsb' 0 4).toNat with
  | 0 => pure .lockPrefix
  | 1 => throw .undocumented
  | 2 => parseRep false
  | 3 => parseRep true
  | 4 => pure .hlt
  | 5 => pure .cmc
  | 6 => parseF6 c false
  | 7 => parseF6 c true
  | 8 => pure .clc
  | 9 => pure .stc
  | 10 => pure .cli
  | 11 => pure .sti
  | 12 => pure .cld
  | 13 => pure .std
  | 14 => parseFE c false
  | _ => parseFE c true

/-- The group 0F 00 (R161). -/
def parse0F00 (c : Ctx) : Parse Instr := do
  let (mid, rm) ← parseModRM c
  match mid.toNat with
  | 0 => pure (.sldt rm)
  | 1 => pure (.str rm)
  | 2 => pure (.lldt rm)
  | 3 => pure (.ltr rm)
  | 4 => pure (.verr rm)
  | 5 => pure (.verw rm)
  | _ => throw .ud

/-- The group 0F 01 (R161). -/
def parse0F01 (c : Ctx) : Parse Instr := do
  let (mid, rm) ← parseModRM c
  match mid.toNat with
  | 0 => needMem rm .sgdt
  | 1 => needMem rm .sidt
  | 2 => needMem rm .lgdt
  | 3 => needMem rm .lidt
  | 4 => pure (.smsw rm)
  | 6 => pure (.lmsw rm)
  | 7 => since486 c (needMem rm .invlpg)
  | _ => throw .ud

/-- Two-byte opcodes 0F 00 to 0F 0F (R161). 0F 04 and 0F 05 are refused on the 80286, 0F 07 on the 80386
(R165, log entry 37). -/
def parse0F0 (c : Ctx) (lo : Nat) : Parse Instr :=
  match lo with
  | 0 => parse0F00 c
  | 1 => parse0F01 c
  | 2 => regRM c .lar
  | 3 => regRM c .lsl
  | 4 => if c.cpu = .p286 then throw .undocumented else throw .ud
  | 5 => if c.cpu = .p286 then throw .undocumented else throw .ud
  | 6 => pure .clts
  | 7 => if c.cpu = .p386 then throw .undocumented else throw .ud
  | 8 => since486 c (pure .invd)
  | 9 => since486 c (pure .wbinvd)
  | _ => throw .ud

/-- The control register of a field eee (R156). -/
def parseCr (eee : BitVec 3) : Parse CrNum :=
  match eee.toNat with
  | 0 => pure .cr0
  | 2 => pure .cr2
  | 3 => pure .cr3
  | _ => throw .ud

/-- The debug register of a field eee (R156, R430). -/
def parseDr (eee : BitVec 3) : Parse DrNum :=
  match eee.toNat with
  | 0 => pure .dr0
  | 1 => pure .dr1
  | 2 => pure .dr2
  | 3 => pure .dr3
  | 6 => pure .dr6
  | 7 => pure .dr7
  | _ => throw .ud

/-- The test register of a field eee (R156). -/
def parseTr (eee : BitVec 3) : Parse TrNum :=
  match eee.toNat with
  | 6 => pure .tr6
  | 7 => pure .tr7
  | _ => throw .ud

/-- The third byte of the special-register moves: the processors ignore its mod bits (R168, R421, log entry 55). -/
def parseSpecial {α : Type} (num : BitVec 3 → Parse α) (f : α → RegNum → Instr) : Parse Instr := do
  let b ← nextByte
  let n ← num (b.extractLsb' 3 3)
  pure (f n (b.extractLsb' 0 3))

/-- Two-byte opcodes 0F 20 to 0F 2F (R161). -/
def parse0F2 (c : Ctx) (lo : Nat) : Parse Instr :=
  match lo with
  | 0 => since386 c (parseSpecial parseCr .movFromCr)
  | 1 => since386 c (parseSpecial parseDr .movFromDr)
  | 2 => since386 c (parseSpecial parseCr .movToCr)
  | 3 => since386 c (parseSpecial parseDr .movToDr)
  | 4 => since386 c (parseSpecial parseTr .movFromTr)
  | 6 => since386 c (parseSpecial parseTr .movToTr)
  | _ => throw .ud

/-- The conditional jumps with a full displacement, 0F 80 to 0F 8F (R161, R155). -/
def parse0F8 (c : Ctx) (lo : Nat) : Parse Instr := do
  let d ← parseImm c.os true
  pure (match lo with
    | 0 => .jO d
    | 1 => .jNo d
    | 2 => .jB d
    | 3 => .jNb d
    | 4 => .jE d
    | 5 => .jNe d
    | 6 => .jBe d
    | 7 => .jNbe d
    | 8 => .jS d
    | 9 => .jNs d
    | 10 => .jP d
    | 11 => .jNp d
    | 12 => .jL d
    | 13 => .jNl d
    | 14 => .jLe d
    | _ => .jNle d)

/-- SETcc, 0F 90 to 0F 9F; the middle field is ignored (R161, R700). -/
def parse0F9 (c : Ctx) (lo : Nat) : Parse Instr := do
  let (mid, rm) ← parseModRM c
  pure (match lo with
    | 0 => .setO mid rm
    | 1 => .setNo mid rm
    | 2 => .setB mid rm
    | 3 => .setNb mid rm
    | 4 => .setE mid rm
    | 5 => .setNe mid rm
    | 6 => .setBe mid rm
    | 7 => .setNbe mid rm
    | 8 => .setS mid rm
    | 9 => .setNs mid rm
    | 10 => .setP mid rm
    | 11 => .setNp mid rm
    | 12 => .setL mid rm
    | 13 => .setNl mid rm
    | 14 => .setLe mid rm
    | _ => .setNle mid rm)

/-- Two-byte opcodes 0F A0 to 0F AF (R161). 0F A2 is refused on the 80486, 0F A6 and 0F A7 on the 80386 and 80486
(R165, log entry 37). -/
def parse0FA (c : Ctx) (lo : Nat) : Parse Instr :=
  match lo with
  | 0 => pure .pushFs
  | 1 => pure .popFs
  | 2 => if c.cpu = .p486 then throw .undocumented else throw .ud
  | 3 => regRM c .btReg
  | 4 => do
    let (mid, rm) ← parseModRM c
    Instr.shldImm mid rm <$> nextByte
  | 5 => regRM c .shldCl
  | 6 => throw .undocumented
  | 7 => throw .undocumented
  | 8 => pure .pushGs
  | 9 => pure .popGs
  | 11 => regRM c .btsReg
  | 12 => do
    let (mid, rm) ← parseModRM c
    Instr.shrdImm mid rm <$> nextByte
  | 13 => regRM c .shrdCl
  | 15 => regRM c .imulRegRm
  | _ => throw .ud

/-- The group 0F BA (R161). -/
def parse0FBA (c : Ctx) : Parse Instr := do
  let (mid, rm) ← parseModRM c
  match mid.toNat with
  | 4 => Instr.btImm rm <$> nextByte
  | 5 => Instr.btsImm rm <$> nextByte
  | 6 => Instr.btrImm rm <$> nextByte
  | 7 => Instr.btcImm rm <$> nextByte
  | _ => throw .ud

/-- Two-byte opcodes 0F B0 to 0F BF (R161). -/
def parse0FB (c : Ctx) (lo : Nat) : Parse Instr :=
  match lo with
  | 0 => since486 c (regRM c (.cmpxchg false))
  | 1 => since486 c (regRM c (.cmpxchg true))
  | 2 => regMem c .lss
  | 3 => regRM c .btrReg
  | 4 => regMem c .lfs
  | 5 => regMem c .lgs
  | 6 => regRM c (.movzx false)
  | 7 => regRM c (.movzx true)
  | 10 => parse0FBA c
  | 11 => regRM c .btcReg
  | 12 => regRM c .bsf
  | 13 => regRM c .bsr
  | 14 => regRM c (.movsx false)
  | 15 => regRM c (.movsx true)
  | _ => throw .ud

/-- Two-byte opcodes 0F C0 to 0F CF, on the 80486 (R161). -/
def parse0FC (c : Ctx) (b : Byte) : Parse Instr :=
  match (b.extractLsb' 0 4).toNat with
  | 0 => regRM c (.xadd false)
  | 1 => regRM c (.xadd true)
  | 2 => throw .ud
  | 3 => throw .ud
  | 4 => throw .ud
  | 5 => throw .ud
  | 6 => throw .ud
  | 7 => throw .ud
  | _ => pure (.bswap (b.extractLsb' 0 3))

/-- Two-byte opcodes (R161, R165). 0F 10 to 0F 13 are refused on the 80386 (R165, log entry 37). -/
def parseTwo (c : Ctx) : Parse Instr := do
  let b ← nextByte
  let lo := (b.extractLsb' 0 4).toNat
  match (b.extractLsb' 4 4).toNat with
  | 0 => parse0F0 c lo
  | 1 => if c.cpu = .p386 ∧ lo < 4 then throw .undocumented else throw .ud
  | 2 => parse0F2 c lo
  | 8 => since386 c (parse0F8 c lo)
  | 9 => since386 c (parse0F9 c lo)
  | 10 => since386 c (parse0FA c lo)
  | 11 => since386 c (parse0FB c lo)
  | 12 => since486 c (parse0FC c b)
  | _ => throw .ud

/-- One instruction from the front of the bytes (R130, R160). -/
def parseInstr (c : Ctx) : Parse Instr := do
  let b ← nextByte
  match (b.extractLsb' 4 4).toNat with
  | 0 => parse0to3 c b (parseTwo c)
  | 1 => parse0to3 c b (parseTwo c)
  | 2 => parse0to3 c b (parseTwo c)
  | 3 => parse0to3 c b (parseTwo c)
  | 4 => pure (if b.getLsbD 3 then .decReg (b.extractLsb' 0 3) else .incReg (b.extractLsb' 0 3))
  | 5 => pure (if b.getLsbD 3 then .popReg (b.extractLsb' 0 3) else .pushReg (b.extractLsb' 0 3))
  | 6 => parse6 c b
  | 7 => parse7 b
  | 8 => parse8 c b
  | 9 => parse9 c b
  | 10 => parseA c b
  | 11 => Instr.movRegImm (b.getLsbD 3) (b.extractLsb' 0 3) <$> parseImm c.os (b.getLsbD 3)
  | 12 => parseC c b
  | 13 => parseD c b
  | 14 => parseE c b
  | _ => parseF c b

/-- What decoding some bytes gives: an instruction and its length in bytes, or the reason there is none. -/
inductive Decoded where
  | instr (i : Instr) (len : Nat)
  | stop (e : DecErr)
deriving DecidableEq, Repr

/-- Decode the instruction at the front of the bytes. -/
def decode (c : Ctx) (bs : List Byte) : Decoded :=
  match parseInstr c bs with
  | .ok i rest => .instr i (bs.length - rest.length)
  | .error e _ => .stop e

/-! The encoder, from the same encodings of the table. -/

/-- A 16-bit value in instruction order (R76). -/
def encWord (v : BitVec 16) : List Byte := [v.extractLsb' 0 8, v.extractLsb' 8 8]

/-- A 32-bit value in instruction order (R76). -/
def encDword (v : BitVec 32) : List Byte := encWord (v.extractLsb' 0 16) ++ encWord (v.extractLsb' 16 16)

/-- An immediate or displacement (R158). -/
def encImm : Imm → List Byte
  | .i8 v => [v]
  | .i16 v => encWord v
  | .i32 v => encDword v

/-- A direct address or far-pointer offset (R158). -/
def encOff : Off → List Byte
  | .o16 v => encWord v
  | .o32 v => encDword v

/-- The mod field a displacement stands for (R142, R143). -/
def dispMod : Disp → BitVec 2
  | .none => 0#2
  | .d8 _ => 1#2
  | .d16 _ => 2#2
  | .d32 _ => 2#2

/-- The displacement's bytes. -/
def encDisp : Disp → List Byte
  | .none => []
  | .d8 v => [v]
  | .d16 v => encWord v
  | .d32 v => encDword v

/-- A memory operand under a middle field (R140 to R144). -/
def encMem (mid : BitVec 3) : MemOp → List Byte
  | .a16 rm disp => (dispMod disp ++ mid ++ rm) :: encDisp disp
  | .direct16 a => (0#2 ++ mid ++ 6#3) :: encWord a
  | .a32 base disp => (dispMod disp ++ mid ++ base) :: encDisp disp
  | .direct32 a => (0#2 ++ mid ++ 5#3) :: encDword a
  | .sib ss index base disp => (dispMod disp ++ mid ++ 4#3) :: (ss ++ index ++ base) :: encDisp disp
  | .sibNoBase ss index d => (0#2 ++ mid ++ 4#3) :: (ss ++ index ++ 5#3) :: encDword d

/-- A mod r/m byte with what follows it (R140, R141). -/
def encRM (mid : BitVec 3) : RM → List Byte
  | .reg r => [3#2 ++ mid ++ r]
  | .mem m => encMem mid m

/-- The field sreg2 (R152); FS and GS have none. -/
def sreg2Code : SReg → BitVec 2
  | .es => 0#2
  | .cs => 1#2
  | .ss => 2#2
  | .ds => 3#2
  | .fs => 0#2
  | .gs => 1#2

/-- The field sreg3 (R152). -/
def sreg3Code : SReg → BitVec 3
  | .es => 0#3
  | .cs => 1#3
  | .ss => 2#3
  | .ds => 3#3
  | .fs => 4#3
  | .gs => 5#3

/-- The field eee of a control register (R156). -/
def crCode : CrNum → BitVec 3
  | .cr0 => 0#3
  | .cr2 => 2#3
  | .cr3 => 3#3

/-- The field eee of a debug register (R156). -/
def drCode : DrNum → BitVec 3
  | .dr0 => 0#3
  | .dr1 => 1#3
  | .dr2 => 2#3
  | .dr3 => 3#3
  | .dr6 => 6#3
  | .dr7 => 7#3

/-- The field eee of a test register (R156). -/
def trCode : TrNum → BitVec 3
  | .tr6 => 6#3
  | .tr7 => 7#3

/-- The bytes of an instruction, each row's encoding in the table. -/
def encode : Instr → List Byte
  | .lockPrefix => [0xF0#8]
  | .repnePrefix => [0xF2#8]
  | .repPrefix => [0xF3#8]
  | .esPrefix => [0x26#8]
  | .csPrefix => [0x2E#8]
  | .ssPrefix => [0x36#8]
  | .dsPrefix => [0x3E#8]
  | .fsPrefix => [0x64#8]
  | .gsPrefix => [0x65#8]
  | .opSizePrefix => [0x66#8]
  | .addrSizePrefix => [0x67#8]
  | .movRmReg w reg rm => (68#7 ++ BitVec.ofBool w) :: encRM reg rm
  | .movRegRm w reg rm => (69#7 ++ BitVec.ofBool w) :: encRM reg rm
  | .movRmImm w rm imm => (99#7 ++ BitVec.ofBool w) :: (encRM 0#3 rm ++ encImm imm)
  | .movRegImm w reg imm => (11#4 ++ BitVec.ofBool w ++ reg) :: encImm imm
  | .movAccMem w addr => (80#7 ++ BitVec.ofBool w) :: encOff addr
  | .movMemAcc w addr => (81#7 ++ BitVec.ofBool w) :: encOff addr
  | .movSregRm sreg rm => 0x8E#8 :: encRM (sreg3Code sreg) rm
  | .movRmSreg sreg rm => 0x8C#8 :: encRM (sreg3Code sreg) rm
  | .movsx w reg rm => 0x0F#8 :: (95#7 ++ BitVec.ofBool w) :: encRM reg rm
  | .movzx w reg rm => 0x0F#8 :: (91#7 ++ BitVec.ofBool w) :: encRM reg rm
  | .pushRm rm => 0xFF#8 :: encRM 6#3 rm
  | .pushReg reg => [(10#5 ++ reg)]
  | .pushSreg sreg => [(0#3 ++ sreg2Code sreg ++ 6#3)]
  | .pushFs => [0x0F#8, 0xA0#8]
  | .pushGs => [0x0F#8, 0xA8#8]
  | .pushImm s imm => (26#6 ++ BitVec.ofBool s ++ 0#1) :: encImm imm
  | .pusha => [0x60#8]
  | .popRm rm => 0x8F#8 :: encRM 0#3 rm
  | .popReg reg => [(11#5 ++ reg)]
  | .popEs => [0x07#8]
  | .popSs => [0x17#8]
  | .popDs => [0x1F#8]
  | .popFs => [0x0F#8, 0xA1#8]
  | .popGs => [0x0F#8, 0xA9#8]
  | .popa => [0x61#8]
  | .xchgRmReg w reg rm => (67#7 ++ BitVec.ofBool w) :: encRM reg rm
  | .xchgAcc reg => [(18#5 ++ reg)]
  | .inPort w port => [(114#7 ++ BitVec.ofBool w), port]
  | .inDx w => [(118#7 ++ BitVec.ofBool w)]
  | .outPort w port => [(115#7 ++ BitVec.ofBool w), port]
  | .outDx w => [(119#7 ++ BitVec.ofBool w)]
  | .lea reg mem => 0x8D#8 :: encMem reg mem
  | .lds reg mem => 0xC5#8 :: encMem reg mem
  | .les reg mem => 0xC4#8 :: encMem reg mem
  | .lfs reg mem => 0x0F#8 :: 0xB4#8 :: encMem reg mem
  | .lgs reg mem => 0x0F#8 :: 0xB5#8 :: encMem reg mem
  | .lss reg mem => 0x0F#8 :: 0xB2#8 :: encMem reg mem
  | .clc => [0xF8#8]
  | .cld => [0xFC#8]
  | .cli => [0xFA#8]
  | .clts => [0x0F#8, 0x06#8]
  | .cmc => [0xF5#8]
  | .lahf => [0x9F#8]
  | .popf => [0x9D#8]
  | .pushf => [0x9C#8]
  | .sahf => [0x9E#8]
  | .stc => [0xF9#8]
  | .std => [0xFD#8]
  | .sti => [0xFB#8]
  | .addRmReg d w reg rm => (0#6 ++ BitVec.ofBool d ++ BitVec.ofBool w) :: encRM reg rm
  | .addRmImm s w rm imm => (32#6 ++ BitVec.ofBool s ++ BitVec.ofBool w) :: (encRM 0#3 rm ++ encImm imm)
  | .addAccImm w imm => (2#7 ++ BitVec.ofBool w) :: encImm imm
  | .orRmReg d w reg rm => (2#6 ++ BitVec.ofBool d ++ BitVec.ofBool w) :: encRM reg rm
  | .orRmImm s w rm imm => (32#6 ++ BitVec.ofBool s ++ BitVec.ofBool w) :: (encRM 1#3 rm ++ encImm imm)
  | .orAccImm w imm => (6#7 ++ BitVec.ofBool w) :: encImm imm
  | .adcRmReg d w reg rm => (4#6 ++ BitVec.ofBool d ++ BitVec.ofBool w) :: encRM reg rm
  | .adcRmImm s w rm imm => (32#6 ++ BitVec.ofBool s ++ BitVec.ofBool w) :: (encRM 2#3 rm ++ encImm imm)
  | .adcAccImm w imm => (10#7 ++ BitVec.ofBool w) :: encImm imm
  | .sbbRmReg d w reg rm => (6#6 ++ BitVec.ofBool d ++ BitVec.ofBool w) :: encRM reg rm
  | .sbbRmImm s w rm imm => (32#6 ++ BitVec.ofBool s ++ BitVec.ofBool w) :: (encRM 3#3 rm ++ encImm imm)
  | .sbbAccImm w imm => (14#7 ++ BitVec.ofBool w) :: encImm imm
  | .andRmReg d w reg rm => (8#6 ++ BitVec.ofBool d ++ BitVec.ofBool w) :: encRM reg rm
  | .andRmImm s w rm imm => (32#6 ++ BitVec.ofBool s ++ BitVec.ofBool w) :: (encRM 4#3 rm ++ encImm imm)
  | .andAccImm w imm => (18#7 ++ BitVec.ofBool w) :: encImm imm
  | .subRmReg d w reg rm => (10#6 ++ BitVec.ofBool d ++ BitVec.ofBool w) :: encRM reg rm
  | .subRmImm s w rm imm => (32#6 ++ BitVec.ofBool s ++ BitVec.ofBool w) :: (encRM 5#3 rm ++ encImm imm)
  | .subAccImm w imm => (22#7 ++ BitVec.ofBool w) :: encImm imm
  | .xorRmReg d w reg rm => (12#6 ++ BitVec.ofBool d ++ BitVec.ofBool w) :: encRM reg rm
  | .xorRmImm s w rm imm => (32#6 ++ BitVec.ofBool s ++ BitVec.ofBool w) :: (encRM 6#3 rm ++ encImm imm)
  | .xorAccImm w imm => (26#7 ++ BitVec.ofBool w) :: encImm imm
  | .cmpRmReg d w reg rm => (14#6 ++ BitVec.ofBool d ++ BitVec.ofBool w) :: encRM reg rm
  | .cmpRmImm s w rm imm => (32#6 ++ BitVec.ofBool s ++ BitVec.ofBool w) :: (encRM 7#3 rm ++ encImm imm)
  | .cmpAccImm w imm => (30#7 ++ BitVec.ofBool w) :: encImm imm
  | .incRm w rm => (127#7 ++ BitVec.ofBool w) :: encRM 0#3 rm
  | .incReg reg => [(8#5 ++ reg)]
  | .decRm w rm => (127#7 ++ BitVec.ofBool w) :: encRM 1#3 rm
  | .decReg reg => [(9#5 ++ reg)]
  | .neg w rm => (123#7 ++ BitVec.ofBool w) :: encRM 3#3 rm
  | .aaa => [0x37#8]
  | .aas => [0x3F#8]
  | .daa => [0x27#8]
  | .das => [0x2F#8]
  | .mul w rm => (123#7 ++ BitVec.ofBool w) :: encRM 4#3 rm
  | .imulAcc w rm => (123#7 ++ BitVec.ofBool w) :: encRM 5#3 rm
  | .imulRegRm reg rm => 0x0F#8 :: 0xAF#8 :: encRM reg rm
  | .imulRegRmImm s reg rm imm => (26#6 ++ BitVec.ofBool s ++ 1#1) :: (encRM reg rm ++ encImm imm)
  | .div w rm => (123#7 ++ BitVec.ofBool w) :: encRM 6#3 rm
  | .idiv w rm => (123#7 ++ BitVec.ofBool w) :: encRM 7#3 rm
  | .aad => [0xD5#8, 0x0A#8]
  | .aam => [0xD4#8, 0x0A#8]
  | .cbw => [0x98#8]
  | .cwd => [0x99#8]
  | .rol w rm .one => (104#7 ++ BitVec.ofBool w) :: encRM 0#3 rm
  | .rol w rm .cl => (105#7 ++ BitVec.ofBool w) :: encRM 0#3 rm
  | .rol w rm (.imm v) => (96#7 ++ BitVec.ofBool w) :: (encRM 0#3 rm ++ [v])
  | .ror w rm .one => (104#7 ++ BitVec.ofBool w) :: encRM 1#3 rm
  | .ror w rm .cl => (105#7 ++ BitVec.ofBool w) :: encRM 1#3 rm
  | .ror w rm (.imm v) => (96#7 ++ BitVec.ofBool w) :: (encRM 1#3 rm ++ [v])
  | .rcl w rm .one => (104#7 ++ BitVec.ofBool w) :: encRM 2#3 rm
  | .rcl w rm .cl => (105#7 ++ BitVec.ofBool w) :: encRM 2#3 rm
  | .rcl w rm (.imm v) => (96#7 ++ BitVec.ofBool w) :: (encRM 2#3 rm ++ [v])
  | .rcr w rm .one => (104#7 ++ BitVec.ofBool w) :: encRM 3#3 rm
  | .rcr w rm .cl => (105#7 ++ BitVec.ofBool w) :: encRM 3#3 rm
  | .rcr w rm (.imm v) => (96#7 ++ BitVec.ofBool w) :: (encRM 3#3 rm ++ [v])
  | .shl w rm .one => (104#7 ++ BitVec.ofBool w) :: encRM 4#3 rm
  | .shl w rm .cl => (105#7 ++ BitVec.ofBool w) :: encRM 4#3 rm
  | .shl w rm (.imm v) => (96#7 ++ BitVec.ofBool w) :: (encRM 4#3 rm ++ [v])
  | .shr w rm .one => (104#7 ++ BitVec.ofBool w) :: encRM 5#3 rm
  | .shr w rm .cl => (105#7 ++ BitVec.ofBool w) :: encRM 5#3 rm
  | .shr w rm (.imm v) => (96#7 ++ BitVec.ofBool w) :: (encRM 5#3 rm ++ [v])
  | .sar w rm .one => (104#7 ++ BitVec.ofBool w) :: encRM 7#3 rm
  | .sar w rm .cl => (105#7 ++ BitVec.ofBool w) :: encRM 7#3 rm
  | .sar w rm (.imm v) => (96#7 ++ BitVec.ofBool w) :: (encRM 7#3 rm ++ [v])
  | .shldImm reg rm count => 0x0F#8 :: 0xA4#8 :: (encRM reg rm ++ [count])
  | .shldCl reg rm => 0x0F#8 :: 0xA5#8 :: encRM reg rm
  | .shrdImm reg rm count => 0x0F#8 :: 0xAC#8 :: (encRM reg rm ++ [count])
  | .shrdCl reg rm => 0x0F#8 :: 0xAD#8 :: encRM reg rm
  | .testRmReg w reg rm => (66#7 ++ BitVec.ofBool w) :: encRM reg rm
  | .testRmImm w rm imm => (123#7 ++ BitVec.ofBool w) :: (encRM 0#3 rm ++ encImm imm)
  | .testAccImm w imm => (84#7 ++ BitVec.ofBool w) :: encImm imm
  | .notRm w rm => (123#7 ++ BitVec.ofBool w) :: encRM 2#3 rm
  | .cmps w => [(83#7 ++ BitVec.ofBool w)]
  | .ins w => [(54#7 ++ BitVec.ofBool w)]
  | .lods w => [(86#7 ++ BitVec.ofBool w)]
  | .movs w => [(82#7 ++ BitVec.ofBool w)]
  | .outs w => [(55#7 ++ BitVec.ofBool w)]
  | .scas w => [(87#7 ++ BitVec.ofBool w)]
  | .stos w => [(85#7 ++ BitVec.ofBool w)]
  | .xlat => [0xD7#8]
  | .repeCmps w => [0xF3#8, (83#7 ++ BitVec.ofBool w)]
  | .repneCmps w => [0xF2#8, (83#7 ++ BitVec.ofBool w)]
  | .repIns w => [0xF3#8, (54#7 ++ BitVec.ofBool w)]
  | .repLods w => [0xF3#8, (86#7 ++ BitVec.ofBool w)]
  | .repMovs w => [0xF3#8, (82#7 ++ BitVec.ofBool w)]
  | .repOuts w => [0xF3#8, (55#7 ++ BitVec.ofBool w)]
  | .repeScas w => [0xF3#8, (87#7 ++ BitVec.ofBool w)]
  | .repneScas w => [0xF2#8, (87#7 ++ BitVec.ofBool w)]
  | .repStos w => [0xF3#8, (85#7 ++ BitVec.ofBool w)]
  | .bsf reg rm => 0x0F#8 :: 0xBC#8 :: encRM reg rm
  | .bsr reg rm => 0x0F#8 :: 0xBD#8 :: encRM reg rm
  | .btImm rm bit => 0x0F#8 :: 0xBA#8 :: (encRM 4#3 rm ++ [bit])
  | .btReg reg rm => 0x0F#8 :: 0xA3#8 :: encRM reg rm
  | .btcImm rm bit => 0x0F#8 :: 0xBA#8 :: (encRM 7#3 rm ++ [bit])
  | .btcReg reg rm => 0x0F#8 :: 0xBB#8 :: encRM reg rm
  | .btrImm rm bit => 0x0F#8 :: 0xBA#8 :: (encRM 6#3 rm ++ [bit])
  | .btrReg reg rm => 0x0F#8 :: 0xB3#8 :: encRM reg rm
  | .btsImm rm bit => 0x0F#8 :: 0xBA#8 :: (encRM 5#3 rm ++ [bit])
  | .btsReg reg rm => 0x0F#8 :: 0xAB#8 :: encRM reg rm
  | .callNear disp => 0xE8#8 :: encImm disp
  | .callRm rm => 0xFF#8 :: encRM 2#3 rm
  | .callFar off sel => 0x9A#8 :: (encOff off ++ encWord sel)
  | .callMemFar mem => 0xFF#8 :: encMem 3#3 mem
  | .jmpShort disp => [0xEB#8, disp]
  | .jmpNear disp => 0xE9#8 :: encImm disp
  | .jmpRm rm => 0xFF#8 :: encRM 4#3 rm
  | .jmpFar off sel => 0xEA#8 :: (encOff off ++ encWord sel)
  | .jmpMemFar mem => 0xFF#8 :: encMem 5#3 mem
  | .retNear => [0xC3#8]
  | .retNearImm count => 0xC2#8 :: encWord count
  | .retFar => [0xCB#8]
  | .retFarImm count => 0xCA#8 :: encWord count
  | .jO (.i8 v) => [0x70#8, v]
  | .jO (.i16 v) => 0x0F#8 :: 0x80#8 :: encWord v
  | .jO (.i32 v) => 0x0F#8 :: 0x80#8 :: encDword v
  | .jNo (.i8 v) => [0x71#8, v]
  | .jNo (.i16 v) => 0x0F#8 :: 0x81#8 :: encWord v
  | .jNo (.i32 v) => 0x0F#8 :: 0x81#8 :: encDword v
  | .jB (.i8 v) => [0x72#8, v]
  | .jB (.i16 v) => 0x0F#8 :: 0x82#8 :: encWord v
  | .jB (.i32 v) => 0x0F#8 :: 0x82#8 :: encDword v
  | .jNb (.i8 v) => [0x73#8, v]
  | .jNb (.i16 v) => 0x0F#8 :: 0x83#8 :: encWord v
  | .jNb (.i32 v) => 0x0F#8 :: 0x83#8 :: encDword v
  | .jE (.i8 v) => [0x74#8, v]
  | .jE (.i16 v) => 0x0F#8 :: 0x84#8 :: encWord v
  | .jE (.i32 v) => 0x0F#8 :: 0x84#8 :: encDword v
  | .jNe (.i8 v) => [0x75#8, v]
  | .jNe (.i16 v) => 0x0F#8 :: 0x85#8 :: encWord v
  | .jNe (.i32 v) => 0x0F#8 :: 0x85#8 :: encDword v
  | .jBe (.i8 v) => [0x76#8, v]
  | .jBe (.i16 v) => 0x0F#8 :: 0x86#8 :: encWord v
  | .jBe (.i32 v) => 0x0F#8 :: 0x86#8 :: encDword v
  | .jNbe (.i8 v) => [0x77#8, v]
  | .jNbe (.i16 v) => 0x0F#8 :: 0x87#8 :: encWord v
  | .jNbe (.i32 v) => 0x0F#8 :: 0x87#8 :: encDword v
  | .jS (.i8 v) => [0x78#8, v]
  | .jS (.i16 v) => 0x0F#8 :: 0x88#8 :: encWord v
  | .jS (.i32 v) => 0x0F#8 :: 0x88#8 :: encDword v
  | .jNs (.i8 v) => [0x79#8, v]
  | .jNs (.i16 v) => 0x0F#8 :: 0x89#8 :: encWord v
  | .jNs (.i32 v) => 0x0F#8 :: 0x89#8 :: encDword v
  | .jP (.i8 v) => [0x7A#8, v]
  | .jP (.i16 v) => 0x0F#8 :: 0x8A#8 :: encWord v
  | .jP (.i32 v) => 0x0F#8 :: 0x8A#8 :: encDword v
  | .jNp (.i8 v) => [0x7B#8, v]
  | .jNp (.i16 v) => 0x0F#8 :: 0x8B#8 :: encWord v
  | .jNp (.i32 v) => 0x0F#8 :: 0x8B#8 :: encDword v
  | .jL (.i8 v) => [0x7C#8, v]
  | .jL (.i16 v) => 0x0F#8 :: 0x8C#8 :: encWord v
  | .jL (.i32 v) => 0x0F#8 :: 0x8C#8 :: encDword v
  | .jNl (.i8 v) => [0x7D#8, v]
  | .jNl (.i16 v) => 0x0F#8 :: 0x8D#8 :: encWord v
  | .jNl (.i32 v) => 0x0F#8 :: 0x8D#8 :: encDword v
  | .jLe (.i8 v) => [0x7E#8, v]
  | .jLe (.i16 v) => 0x0F#8 :: 0x8E#8 :: encWord v
  | .jLe (.i32 v) => 0x0F#8 :: 0x8E#8 :: encDword v
  | .jNle (.i8 v) => [0x7F#8, v]
  | .jNle (.i16 v) => 0x0F#8 :: 0x8F#8 :: encWord v
  | .jNle (.i32 v) => 0x0F#8 :: 0x8F#8 :: encDword v
  | .jcxz disp => [0xE3#8, disp]
  | .loop disp => [0xE2#8, disp]
  | .loopz disp => [0xE1#8, disp]
  | .loopnz disp => [0xE0#8, disp]
  | .setO mid rm => 0x0F#8 :: 0x90#8 :: encRM mid rm
  | .setNo mid rm => 0x0F#8 :: 0x91#8 :: encRM mid rm
  | .setB mid rm => 0x0F#8 :: 0x92#8 :: encRM mid rm
  | .setNb mid rm => 0x0F#8 :: 0x93#8 :: encRM mid rm
  | .setE mid rm => 0x0F#8 :: 0x94#8 :: encRM mid rm
  | .setNe mid rm => 0x0F#8 :: 0x95#8 :: encRM mid rm
  | .setBe mid rm => 0x0F#8 :: 0x96#8 :: encRM mid rm
  | .setNbe mid rm => 0x0F#8 :: 0x97#8 :: encRM mid rm
  | .setS mid rm => 0x0F#8 :: 0x98#8 :: encRM mid rm
  | .setNs mid rm => 0x0F#8 :: 0x99#8 :: encRM mid rm
  | .setP mid rm => 0x0F#8 :: 0x9A#8 :: encRM mid rm
  | .setNp mid rm => 0x0F#8 :: 0x9B#8 :: encRM mid rm
  | .setL mid rm => 0x0F#8 :: 0x9C#8 :: encRM mid rm
  | .setNl mid rm => 0x0F#8 :: 0x9D#8 :: encRM mid rm
  | .setLe mid rm => 0x0F#8 :: 0x9E#8 :: encRM mid rm
  | .setNle mid rm => 0x0F#8 :: 0x9F#8 :: encRM mid rm
  | .enter frame level => 0xC8#8 :: (encWord frame ++ [level])
  | .leave => [0xC9#8]
  | .intN typ => [0xCD#8, typ]
  | .int3 => [0xCC#8]
  | .into => [0xCE#8]
  | .bound reg mem => 0x62#8 :: encMem reg mem
  | .iret => [0xCF#8]
  | .hlt => [0xF4#8]
  | .movToCr cr reg => [0x0F#8, 0x22#8, (3#2 ++ crCode cr ++ reg)]
  | .movFromCr cr reg => [0x0F#8, 0x20#8, (3#2 ++ crCode cr ++ reg)]
  | .movToDr dr reg => [0x0F#8, 0x23#8, (3#2 ++ drCode dr ++ reg)]
  | .movFromDr dr reg => [0x0F#8, 0x21#8, (3#2 ++ drCode dr ++ reg)]
  | .movToTr tr reg => [0x0F#8, 0x26#8, (3#2 ++ trCode tr ++ reg)]
  | .movFromTr tr reg => [0x0F#8, 0x24#8, (3#2 ++ trCode tr ++ reg)]
  | .nop => [0x90#8]
  | .wait => [0x9B#8]
  | .esc ttt lll rm => (27#5 ++ ttt) :: encRM lll rm
  | .arpl reg rm => 0x63#8 :: encRM reg rm
  | .lar reg rm => 0x0F#8 :: 0x02#8 :: encRM reg rm
  | .lgdt mem => 0x0F#8 :: 0x01#8 :: encMem 2#3 mem
  | .lidt mem => 0x0F#8 :: 0x01#8 :: encMem 3#3 mem
  | .lldt rm => 0x0F#8 :: 0x00#8 :: encRM 2#3 rm
  | .lmsw rm => 0x0F#8 :: 0x01#8 :: encRM 6#3 rm
  | .lsl reg rm => 0x0F#8 :: 0x03#8 :: encRM reg rm
  | .ltr rm => 0x0F#8 :: 0x00#8 :: encRM 3#3 rm
  | .sgdt mem => 0x0F#8 :: 0x01#8 :: encMem 0#3 mem
  | .sidt mem => 0x0F#8 :: 0x01#8 :: encMem 1#3 mem
  | .sldt rm => 0x0F#8 :: 0x00#8 :: encRM 0#3 rm
  | .smsw rm => 0x0F#8 :: 0x01#8 :: encRM 4#3 rm
  | .str rm => 0x0F#8 :: 0x00#8 :: encRM 1#3 rm
  | .verr rm => 0x0F#8 :: 0x00#8 :: encRM 4#3 rm
  | .verw rm => 0x0F#8 :: 0x00#8 :: encRM 5#3 rm
  | .bswap reg => [0x0F#8, (25#5 ++ reg)]
  | .cmpxchg w reg rm => 0x0F#8 :: (88#7 ++ BitVec.ofBool w) :: encRM reg rm
  | .xadd w reg rm => 0x0F#8 :: (96#7 ++ BitVec.ofBool w) :: encRM reg rm
  | .invd => [0x0F#8, 0x08#8]
  | .wbinvd => [0x0F#8, 0x09#8]
  | .invlpg mem => 0x0F#8 :: 0x01#8 :: encMem 7#3 mem
  | .fldMem dbl mem => (if dbl then 0xDD#8 else 0xD9#8) :: encMem 0#3 mem
  | .fild word mem => (if word then 0xDF#8 else 0xDB#8) :: encMem 0#3 mem
  | .fildM64 mem => 0xDF#8 :: encMem 5#3 mem
  | .fldM80 mem => 0xDB#8 :: encMem 5#3 mem
  | .fbld mem => 0xDF#8 :: encMem 4#3 mem
  | .fldSt i => [0xD9#8, (24#5 ++ i)]
  | .fstMem dbl mem => (if dbl then 0xDD#8 else 0xD9#8) :: encMem 2#3 mem
  | .fist word mem => (if word then 0xDF#8 else 0xDB#8) :: encMem 2#3 mem
  | .fstSt i => [0xDD#8, (26#5 ++ i)]
  | .fstpMem dbl mem => (if dbl then 0xDD#8 else 0xD9#8) :: encMem 3#3 mem
  | .fistp word mem => (if word then 0xDF#8 else 0xDB#8) :: encMem 3#3 mem
  | .fistpM64 mem => 0xDF#8 :: encMem 7#3 mem
  | .fstpM80 mem => 0xDB#8 :: encMem 7#3 mem
  | .fbstp mem => 0xDF#8 :: encMem 6#3 mem
  | .fstpSt i => [0xDD#8, (27#5 ++ i)]
  | .fxch i => [0xD9#8, (25#5 ++ i)]
  | .fcomMem dbl mem => (if dbl then 0xDC#8 else 0xD8#8) :: encMem 2#3 mem
  | .ficom word mem => (if word then 0xDE#8 else 0xDA#8) :: encMem 2#3 mem
  | .fcomSt i => [0xD8#8, (26#5 ++ i)]
  | .fcompMem dbl mem => (if dbl then 0xDC#8 else 0xD8#8) :: encMem 3#3 mem
  | .ficomp word mem => (if word then 0xDE#8 else 0xDA#8) :: encMem 3#3 mem
  | .fcompSt i => [0xD8#8, (27#5 ++ i)]
  | .fcompp => [0xDE#8, 0xD9#8]
  | .fucom i => [0xDD#8, (28#5 ++ i)]
  | .fucomp i => [0xDD#8, (29#5 ++ i)]
  | .fucompp => [0xDA#8, 0xE9#8]
  | .ftst => [0xD9#8, 0xE4#8]
  | .fxam => [0xD9#8, 0xE5#8]
  | .fldz => [0xD9#8, 0xEE#8]
  | .fld1 => [0xD9#8, 0xE8#8]
  | .fldpi => [0xD9#8, 0xEB#8]
  | .fldl2t => [0xD9#8, 0xE9#8]
  | .fldl2e => [0xD9#8, 0xEA#8]
  | .fldlg2 => [0xD9#8, 0xEC#8]
  | .fldln2 => [0xD9#8, 0xED#8]
  | .faddMem dbl mem => (if dbl then 0xDC#8 else 0xD8#8) :: encMem 0#3 mem
  | .fiadd word mem => (if word then 0xDE#8 else 0xDA#8) :: encMem 0#3 mem
  | .faddSt d i => if d then [0xDC#8, (24#5 ++ i)] else [0xD8#8, (24#5 ++ i)]
  | .faddp i => [0xDE#8, (24#5 ++ i)]
  | .fsubMem dbl mem => (if dbl then 0xDC#8 else 0xD8#8) :: encMem 4#3 mem
  | .fsubrMem dbl mem => (if dbl then 0xDC#8 else 0xD8#8) :: encMem 5#3 mem
  | .fisub word mem => (if word then 0xDE#8 else 0xDA#8) :: encMem 4#3 mem
  | .fisubr word mem => (if word then 0xDE#8 else 0xDA#8) :: encMem 5#3 mem
  | .fsubSt d i => if d then [0xDC#8, (29#5 ++ i)] else [0xD8#8, (28#5 ++ i)]
  | .fsubrSt d i => if d then [0xDC#8, (28#5 ++ i)] else [0xD8#8, (29#5 ++ i)]
  | .fsubrp i => [0xDE#8, (28#5 ++ i)]
  | .fsubp i => [0xDE#8, (29#5 ++ i)]
  | .fmulMem dbl mem => (if dbl then 0xDC#8 else 0xD8#8) :: encMem 1#3 mem
  | .fimul word mem => (if word then 0xDE#8 else 0xDA#8) :: encMem 1#3 mem
  | .fmulSt d i => if d then [0xDC#8, (25#5 ++ i)] else [0xD8#8, (25#5 ++ i)]
  | .fmulp i => [0xDE#8, (25#5 ++ i)]
  | .fdivMem dbl mem => (if dbl then 0xDC#8 else 0xD8#8) :: encMem 6#3 mem
  | .fdivrMem dbl mem => (if dbl then 0xDC#8 else 0xD8#8) :: encMem 7#3 mem
  | .fidiv word mem => (if word then 0xDE#8 else 0xDA#8) :: encMem 6#3 mem
  | .fidivr word mem => (if word then 0xDE#8 else 0xDA#8) :: encMem 7#3 mem
  | .fdivSt d i => if d then [0xDC#8, (31#5 ++ i)] else [0xD8#8, (30#5 ++ i)]
  | .fdivrSt d i => if d then [0xDC#8, (30#5 ++ i)] else [0xD8#8, (31#5 ++ i)]
  | .fdivrp i => [0xDE#8, (30#5 ++ i)]
  | .fdivp i => [0xDE#8, (31#5 ++ i)]
  | .fsqrt => [0xD9#8, 0xFA#8]
  | .fscale => [0xD9#8, 0xFD#8]
  | .fprem => [0xD9#8, 0xF8#8]
  | .fprem1 => [0xD9#8, 0xF5#8]
  | .frndint => [0xD9#8, 0xFC#8]
  | .fxtract => [0xD9#8, 0xF4#8]
  | .fabs => [0xD9#8, 0xE1#8]
  | .fchs => [0xD9#8, 0xE0#8]
  | .fptan => [0xD9#8, 0xF2#8]
  | .fpatan => [0xD9#8, 0xF3#8]
  | .fsin => [0xD9#8, 0xFE#8]
  | .fcos => [0xD9#8, 0xFF#8]
  | .fsincos => [0xD9#8, 0xFB#8]
  | .f2xm1 => [0xD9#8, 0xF0#8]
  | .fyl2x => [0xD9#8, 0xF1#8]
  | .fyl2xp1 => [0xD9#8, 0xF9#8]
  | .fsetpm => [0xDB#8, 0xE4#8]
  | .finit => [0xDB#8, 0xE3#8]
  | .fstswAx => [0xDF#8, 0xE0#8]
  | .fldcw mem => 0xD9#8 :: encMem 5#3 mem
  | .fstcw mem => 0xD9#8 :: encMem 7#3 mem
  | .fstsw mem => 0xDD#8 :: encMem 7#3 mem
  | .fclex => [0xDB#8, 0xE2#8]
  | .fstenv mem => 0xD9#8 :: encMem 6#3 mem
  | .fldenv mem => 0xD9#8 :: encMem 4#3 mem
  | .fsave mem => 0xDD#8 :: encMem 6#3 mem
  | .frstor mem => 0xDD#8 :: encMem 4#3 mem
  | .fincstp => [0xD9#8, 0xF7#8]
  | .fdecstp => [0xD9#8, 0xF6#8]
  | .ffree i => [0xDD#8, (24#5 ++ i)]
  | .fnop => [0xD9#8, 0xD0#8]

/-- The bytes of an instruction whose bits are `w` as the opcode table numbers them: bit 0 is the least significant
bit of the first byte; the bits above `nbits` are 0. -/
def tableBytes (nbits w : Nat) : List Byte :=
  (List.range 16).map (fun k => BitVec.ofNat 8 ((w % 2 ^ nbits) >>> (8 * k)))

/-- The context of the reset state: an 80486 in real-address mode (R136, R137). -/
def tableCtx : Ctx := ⟨.p486, .integrated, .s16, .s16, none⟩

/-- The context for the one row that only an 80287 has (FSETPM, R171). -/
def tableCtx287 : Ctx := ⟨.p286, .n287, .s16, .s16, none⟩

/-- The instruction the decoder reads from a word of the opcode table. -/
def decodeTableWord (nbits w : Nat) : Option Instr :=
  match decode tableCtx (tableBytes nbits w) with
  | .instr (.esc ttt lll rm) _ =>
    match decode tableCtx287 (tableBytes nbits w) with
    | .instr i _ => some i
    | .stop _ => some (.esc ttt lll rm)
  | .instr i _ => some i
  | .stop _ => none

end Sys2Proof
end

