-- ==== Sys2Proof/Machine/Float.lean ====
section
/-! DEFINITION. The arithmetic of the coprocessor (48_x87.md R470 to R477), as pure functions: formats, classes,
exact values, rounding, and what each operation gives. A magnitude is a pair (m, x) that stands for m * 2^x. -/

namespace Sys2Proof.Machine

/-- A temporary real (R472). -/
abbrev Temp := BitVec 80

/-! Formats (R472). -/

/-- The sign `s`. -/
def tSign (v : Temp) : Bool := bitOf v 79
/-- The biased exponent `e`. -/
def tExp (v : Temp) : Nat := (v.extractLsb' 64 15).toNat
/-- The significand: `j` and `f`. -/
def tSig (v : Temp) : Nat := (v.extractLsb' 0 64).toNat

/-- A temporary real from its fields. -/
def mkTemp (neg : Bool) (e sig : Nat) : Temp := BitVec.ofBool neg ++ BitVec.ofNat 15 e ++ BitVec.ofNat 64 sig

/-- The classes of R472: a pseudo-denormal counts as a denormal, `pseudo` is a pseudo-infinity or pseudo-NaN. -/
inductive Class where
  | zero | denormal | normal | unnormal | infinity | quiet | signaling | pseudo
deriving DecidableEq, Repr

/-- The class of a temporary real (R472). -/
def tClass (v : Temp) : Class :=
  let j := bitOf v 63
  let f := tSig v % 2 ^ 63
  if tExp v = 0 then (if tSig v = 0 then .zero else .denormal)
  else if tExp v = 32767 then
    if !j then .pseudo
    else if f = 0 then .infinity
    else if bitOf v 62 then .quiet
    else .signaling
  else if j then .normal
  else .unnormal

def tIsZero (v : Temp) : Bool := tClass v == .zero
def tIsDenormal (v : Temp) : Bool := tClass v == .denormal
def tIsInf (v : Temp) : Bool := tClass v == .infinity
def tIsNan (v : Temp) : Bool := tClass v == .quiet || tClass v == .signaling
def tIsSignaling (v : Temp) : Bool := tClass v == .signaling
/-- Unsupported on the 80387 and 80486, pre-standard on the 80287 (R472, R474). -/
def tUnsupported (v : Temp) : Bool := tClass v == .unnormal || tClass v == .pseudo

/-- The real indefinite (R472). -/
def realIndefinite : Temp := mkTemp true 32767 0xC000000000000000
def tZero (neg : Bool) : Temp := mkTemp neg 0 0
def tInf (neg : Bool) : Temp := mkTemp neg 32767 0x8000000000000000
def tOne : Temp := mkTemp false 16383 0x8000000000000000
/-- The quiet form of a NaN (R476): bit 62 set. -/
def tQuiet (v : Temp) : Temp := v ||| place 80 true 62
/-- The sign bit inverted (R529). -/
def tNeg (v : Temp) : Temp := v ^^^ place 80 true 79

/-- The tag that follows a value (R473). -/
def tTag (v : Temp) : Tag :=
  match tClass v with
  | .zero => .zero
  | .normal => .valid
  | .denormal => .special
  | .unnormal => .special
  | .infinity => .special
  | .quiet => .special
  | .signaling => .special
  | .pseudo => .special

/-- The exponent of the least significant bit of a finite value (R472). -/
def tLsb (v : Temp) : Int := (if tExp v = 0 then -16382 else (tExp v : Int) - 16383) - 63

/-- The number of significant bits. -/
def bitLen (n : Nat) : Nat := if n = 0 then 0 else n.log2 + 1

/-- The temporary real that is exactly `m * 2^x`; a value below the least normal becomes a denormal (R472). -/
def packTemp (neg : Bool) (m : Nat) (x : Int) : Temp :=
  let len := bitLen m
  let e := x + len - 1
  if m = 0 then tZero neg
  else if e < -16382 then mkTemp neg 0 (m * 2 ^ (x + 16445).toNat)
  else mkTemp neg (e + 16383).toNat (if len ≤ 64 then m * 2 ^ (64 - len) else m / 2 ^ (len - 64))

/-! Rounding (R475). -/

/-- The rounding control RC (R42, R475). -/
inductive Rc where
  | nearest | down | up | chop
deriving DecidableEq, Repr

/-- RC of a control word (R42). -/
def cwRc (cw : BitVec 16) : Rc :=
  match (cw.extractLsb' 10 2).toNat with
  | 0 => .nearest
  | 1 => .down
  | 2 => .up
  | _ => .chop

/-- The precision PC of a control word (R42, R475); 01 is reserved. -/
def cwPc (cw : BitVec 16) : Option Nat :=
  match (cw.extractLsb' 8 2).toNat with
  | 0 => some 24
  | 1 => none
  | 2 => some 53
  | _ => some 64

/-- A mask bit of the control word (R42): 0 invalid, 1 denormal, 2 zero-divide, 3 overflow, 4 underflow,
5 precision. -/
def cwMask (cw : BitVec 16) (i : Nat) : Bool := bitOf cw i

/-- A rounded magnitude, whether it differs from the exact one, and whether it is larger. -/
structure Rounded where
  m : Nat
  inexact : Bool
  up : Bool
deriving DecidableEq, Repr

/-- Whether a rest `r` out of `whole` is rounded away from zero (R475): ties to even. -/
def roundsUp (rc : Rc) (neg odd : Bool) (r whole : Nat) : Bool :=
  match rc with
  | .nearest => decide (whole < 2 * r) || (decide (2 * r = whole) && odd)
  | .down => neg && decide (r ≠ 0)
  | .up => !neg && decide (r ≠ 0)
  | .chop => false

/-- `m * 2^x` rounded to a multiple of `2^q`. -/
def roundAt (rc : Rc) (neg : Bool) (m : Nat) (x q : Int) : Rounded :=
  if q ≤ x then ⟨m * 2 ^ (x - q).toNat, false, false⟩
  else
    let whole := 2 ^ (q - x).toNat
    let r := m % whole
    let up := roundsUp rc neg (m / whole % 2 == 1) r whole
    ⟨m / whole + (if up then 1 else 0), r != 0, up⟩

/-- A binary format: significand bits, least and greatest normal exponent (R471, R472). -/
structure Format where
  p : Nat
  emin : Int
  emax : Int
deriving DecidableEq, Repr

def tempFormat (p : Nat) : Format := ⟨p, -16382, 16383⟩
def shortFormat : Format := ⟨24, -126, 127⟩
def longFormat : Format := ⟨53, -1022, 1023⟩

/-- A magnitude rounded to a format under the masks (R475, R477). `none` for a result that the destination does not
get; `big` for infinity. -/
structure Narrow where
  big : Bool
  m : Nat
  x : Int
  oe : Bool
  ue : Bool
  pe : Bool
  up : Bool
deriving DecidableEq, Repr

/-- A masked overflow gives infinity, or the largest finite number of the precision when RC points toward zero
(R477, log entry 41). -/
def overflowed (f : Format) (rc : Rc) (neg : Bool) : Narrow :=
  let inf : Narrow := ⟨true, 0, 0, true, false, true, true⟩
  let top : Narrow := ⟨false, 2 ^ f.p - 1, f.emax - f.p + 1, true, false, true, false⟩
  match rc with
  | .nearest => inf
  | .down => if neg then inf else top
  | .up => if neg then top else inf
  | .chop => top

/-- Round a non-zero magnitude to a format (R475, R477). An unmasked overflow or underflow moves the exponent by
24576; a memory destination does not use that value. Tininess is judged after rounding (log entry 30). -/
def narrow (f : Format) (cw : BitVec 16) (neg : Bool) (m : Nat) (x : Int) : Narrow :=
  let rc := cwRc cw
  let q := x + bitLen m - f.p
  let r := roundAt rc neg m x q
  let e := q + bitLen r.m - 1
  if f.emax < e then
    if cwMask cw 3 then overflowed f rc neg
    else ⟨false, r.m, q - 24576, true, false, r.inexact, r.up⟩
  else if e < f.emin then
    if cwMask cw 4 then
      let q1 := f.emin - f.p + 1
      let r1 := roundAt rc neg m x q1
      ⟨false, r1.m, q1, false, r1.inexact, r1.inexact, r1.up⟩
    else ⟨false, r.m, q + 24576, false, true, r.inexact, r.up⟩
  else ⟨false, r.m, q, false, false, r.inexact, r.up⟩

/-- What an operation gives for a register destination (R476, R477): an invalid operation or a zero-divide with its
masked response; a value with the exceptions it raises; a value no rule states; everything free, for a pre-standard
operand of the 80287 (R474, log entry 52). -/
inductive Res where
  | invalid (masked : Temp)
  | zeroDivide (masked : Temp)
  | value (v : Temp) (oe ue pe up : Bool)
  | unstated (oe ue pe up : Bool)
  | preStandard
deriving DecidableEq, Repr

/-- A value without exception. -/
def Res.exact (v : Temp) : Res := .value v false false false false

/-- A result the spec leaves to a function without a body (R478, log entries 32, 52, 53). -/
def Res.ofNpx (r : Config.NpxResult) : Res := .value r.value r.oe r.ue r.pe r.up

/-- Round a magnitude for a register at precision `p` (R475); without a precision, a free value (log entry 53). A result whose moved exponent does not fit either has no
stated value (log entry 40). -/
def roundTemp (cw : BitVec 16) (p : Option Nat) (neg : Bool) (m : Nat) (x : Int) : Res :=
  if m = 0 then .exact (tZero neg)
  else
    match p with
    | none => .ofNpx (Config.npxReservedRound neg m x cw)
    | some p =>
      let n := narrow (tempFormat p) cw neg m x
      let e := n.x + bitLen n.m - 1
      if n.big then .value (tInf neg) n.oe n.ue n.pe n.up
      else if 16383 < e ∨ (n.ue ∧ !cwMask cw 4 ∧ e < -16382) then .unstated n.oe n.ue n.pe n.up
      else .value (packTemp neg n.m n.x) n.oe n.ue n.pe n.up

/-! NaNs and unsupported operands (R476). -/

/-- Of two NaNs the one with the larger significand; of equal ones the first (log entry 31). -/
def pickNan (a b : Temp) : Temp :=
  if tIsNan a then (if tIsNan b ∧ tSig a < tSig b then tQuiet b else tQuiet a)
  else if tIsNan b then tQuiet b
  else realIndefinite

/-- The operand checks of R476: unsupported and signaling operands are invalid, on the 80287 every NaN; a quiet NaN
is the result. A pre-standard operand of the 80287 leaves everything free (R474, log entry 52). -/
def nanCase (n287 : Bool) (a b : Temp) : Option Res :=
  let nan := tIsNan a || tIsNan b
  if n287 && (tUnsupported a || tUnsupported b) then some .preStandard
  else if tUnsupported a || tUnsupported b || tIsSignaling a || tIsSignaling b || (n287 && nan) then
    some (.invalid (pickNan a b))
  else if nan then some (.exact (pickNan a b))
  else none

/-- The 80287's projective infinity: IC = 0 (R474 (a), R42). -/
def projective (n287 : Bool) (cw : BitVec 16) : Bool := n287 && !bitOf cw 12

/-! The four operations (48_x87.md section 7, `arith`). -/

inductive ArOp where
  | add | sub | mul | div
deriving DecidableEq, Repr

/-- The signed integer `v / 2^lo` of a finite value, `lo` not above its least bit. -/
def tScaled (v : Temp) (lo : Int) : Int :=
  let n : Int := (tSig v * 2 ^ (tLsb v - lo).toNat : Nat)
  if tSign v then -n else n

/-- Round an exact sum `n * 2^x`; an exact zero is +0, or -0 when RC = down, but two zeros of one sign keep it. -/
def roundSum (cw : BitVec 16) (p : Option Nat) (sa sb : Bool) (n : Int) (x : Int) : Res :=
  if n = 0 then .exact (tZero (if sa = sb then sa else cwRc cw = .down))
  else roundTemp cw p (n < 0) n.natAbs x

/-- a + b. -/
def addRes (n287 : Bool) (cw : BitVec 16) (p : Option Nat) (a b : Temp) : Res :=
  if tIsInf a && tIsInf b then
    if tSign a != tSign b || projective n287 cw then .invalid realIndefinite else .exact a
  else if tIsInf a then .exact a
  else if tIsInf b then .exact b
  else
    let lo := min (tLsb a) (tLsb b)
    roundSum cw p (tSign a) (tSign b) (tScaled a lo + tScaled b lo) lo

/-- a * b: the sign is the exclusive-or (R518). -/
def mulRes (cw : BitVec 16) (p : Option Nat) (a b : Temp) : Res :=
  let neg := tSign a ^^ tSign b
  if (tIsInf a && tIsZero b) || (tIsZero a && tIsInf b) then .invalid realIndefinite
  else if tIsInf a || tIsInf b then .exact (tInf neg)
  else roundTemp cw p neg (tSig a * tSig b) (tLsb a + tLsb b)

/-- a quotient of magnitudes with enough bits and a last bit that is 1 when bits are missing. -/
def divMag (ma mb : Nat) : Nat :=
  let n := ma * 2 ^ 130
  2 * (n / mb) + (if n % mb = 0 then 0 else 1)

/-- a / b (R520). -/
def divRes (cw : BitVec 16) (p : Option Nat) (a b : Temp) : Res :=
  let neg := tSign a ^^ tSign b
  if (tIsInf a && tIsInf b) || (tIsZero a && tIsZero b) then .invalid realIndefinite
  else if tIsInf a then .exact (tInf neg)
  else if tIsInf b then .exact (tZero neg)
  else if tIsZero b then .zeroDivide (tInf neg)
  else roundTemp cw p neg (divMag (tSig a) (tSig b)) (tLsb a - tLsb b - 131)

/-- `arith(op, a, b)` (48_x87.md section 7). -/
def arith (n287 : Bool) (cw : BitVec 16) (op : ArOp) (a b : Temp) : Res :=
  match nanCase n287 a b with
  | some r => r
  | none =>
    let p := cwPc cw
    match op with
    | .add => addRes n287 cw p a b
    | .sub => addRes n287 cw p a (tNeg b)
    | .mul => mulRes cw p a b
    | .div => divRes cw p a b

/-- The integer square root of a number below `4^k`. -/
def isqrt : (k : Nat) → Nat → Nat
  | 0, _ => 0
  | k + 1, n =>
    let r := 2 * isqrt k (n / 4)
    if (r + 1) * (r + 1) ≤ n then r + 1 else r

/-- FSQRT (R522). -/
def sqrtRes (n287 : Bool) (cw : BitVec 16) (a : Temp) : Res :=
  match nanCase n287 a a with
  | some r => r
  | none =>
    if tIsZero a then .exact a
    else if tSign a then .invalid realIndefinite
    else if tIsInf a then .exact a
    else
      let s : Nat := if tLsb a % 2 = 0 then 140 else 141
      let m := tSig a * 2 ^ s
      let r := isqrt 110 m
      roundTemp cw (cwPc cw) false (2 * r + (if r * r = m then 0 else 1)) ((tLsb a - s) / 2 - 1)

/-! Integers (R488, R526). -/

/-- A finite value rounded to an integer magnitude. -/
def roundToInt (rc : Rc) (v : Temp) : Rounded := roundAt rc (tSign v) (tSig v) (tLsb v) 0

/-- A finite value truncated to an integer, cut to a range that is beyond every exponent (R523). -/
def truncSmall (v : Temp) : Int :=
  if 16383 + 20 ≤ tExp v then (if tSign v then -1000000 else 1000000)
  else
    let n : Int := (roundToInt .chop v).m
    if tSign v then -n else n

/-- FRNDINT (R526). -/
def rndintRes (n287 : Bool) (cw : BitVec 16) (a : Temp) : Res :=
  match nanCase n287 a a with
  | some r => r
  | none =>
    if tIsInf a || tIsZero a || decide (16383 + 63 ≤ tExp a) then .exact a
    else
      let r := roundToInt (cwRc cw) a
      .value (packTemp (tSign a) r.m 0) false false r.inexact r.up

/-- A finite value is an integer. -/
def tIsInteger (v : Temp) : Bool := !(roundToInt .chop v).inexact

/-- The scale the 80287 accepts: an integer below 2^15 in magnitude (R523). -/
def scaleOk287 (b : Temp) : Bool :=
  !tIsNan b && !tIsInf b && tIsInteger b && decide ((truncSmall b).natAbs < 32768)

/-- FSCALE (R523). On the 80287 the scale must be an integer below 2^15; else the result is a free value (U15, log
entry 52). -/
def scaleRes (n287 : Bool) (cw : BitVec 16) (a b : Temp) : Res :=
  match nanCase n287 a b with
  | some r => r
  | none =>
    if n287 && !scaleOk287 b then .ofNpx (Config.npx287Scale a b cw)
    else if tIsInf b then
      if tSign b then (if tIsInf a then .invalid realIndefinite else .exact (tZero (tSign a)))
      else (if tIsZero a then .invalid realIndefinite else .exact (tInf (tSign a)))
    else if tIsInf a || tIsZero a then .exact a
    else roundTemp cw (some 64) (tSign a) (tSig a) (tLsb a + truncSmall b)

/-! FPREM and FPREM1 (R524, R525). -/

/-- The result of a partial remainder: the value, and the quotient when the reduction is complete. -/
structure Prem where
  r : Res
  quotient : Option Nat
deriving DecidableEq, Repr

/-- The remainder with a quotient rounded to the nearest integer, ties to even: the magnitude, whether the sign is
turned, and the quotient. -/
def nearestRem (n d : Nat) : Nat × Bool × Nat :=
  let q := n / d
  let r := n % d
  if d < 2 * r ∨ (2 * r = d ∧ q % 2 = 1) then (d - r, true, q + 1) else (r, false, q)

/-- The two magnitudes over their common least bit. -/
def premMags (a b : Temp) : Nat × Nat × Int :=
  let lo := min (tLsb a) (tLsb b)
  (tSig a * 2 ^ (tLsb a - lo).toNat, tSig b * 2 ^ (tLsb b - lo).toNat, lo)

/-- The exponent difference D (R524). -/
def premD (a b : Temp) : Int := (tLsb a + bitLen (tSig a)) - (tLsb b + bitLen (tSig b))

/-- FPREM and FPREM1 of finite operands, the divisor not zero. `step` is the N of an incomplete reduction. -/
def premFinite (cw : BitVec 16) (ieee : Bool) (step : Nat) (a b : Temp) : Prem :=
  let (n, d, lo) := premMags a b
  if tIsZero a then ⟨.exact a, some 0⟩
  else if premD a b < 64 then
    if ieee then
      let (r, turned, q) := nearestRem n d
      ⟨roundTemp cw (some 64) (if r = 0 then tSign a else tSign a ^^ turned) r lo, some q⟩
    else ⟨roundTemp cw (some 64) (tSign a) (n % d) lo, some (n / d)⟩
  else
    let k := (premD a b - step).toNat
    ⟨roundTemp cw (some 64) (tSign a) (n % (d * 2 ^ k)) lo, none⟩

/-- FPREM (R524), FPREM1 (R525). -/
def premRes (n287 : Bool) (cw : BitVec 16) (ieee : Bool) (step : Nat) (a b : Temp) : Prem :=
  match nanCase n287 a b with
  | some r => ⟨r, none⟩
  | none =>
    if tIsInf a || tIsZero b then ⟨.invalid realIndefinite, none⟩
    else if tIsInf b then ⟨.exact a, some 0⟩
    else premFinite cw ieee step a b

/-! Comparison (R479, R496). -/

/-- The outcome of a comparison of ST(0) with a source. -/
inductive Cmp where
  | greater | less | equal | unordered
deriving DecidableEq, Repr

/-- Compare two values that are no NaN. -/
def cmpValues (a b : Temp) : Cmp :=
  if tIsInf a || tIsInf b then
    let rank (v : Temp) : Int := if tIsInf v then (if tSign v then -1 else 1) else 0
    if rank b < rank a then .greater else if rank a < rank b then .less else .equal
  else
    let lo := min (tLsb a) (tLsb b)
    let x := tScaled a lo
    let y := tScaled b lo
    if y < x then .greater else if x < y then .less else .equal

/-- The comparison and whether it is an invalid operation: a NaN or an unsupported operand, but a quiet NaN is none
for the unordered compares (R501); on the 80287 also a projective infinity (R474 (a)). -/
def compareRes (n287 : Bool) (cw : BitVec 16) (quietOk : Bool) (a b : Temp) : Cmp × Bool :=
  let bad := tUnsupported a || tUnsupported b || tIsSignaling a || tIsSignaling b
  if bad then (.unordered, true)
  else if tIsNan a || tIsNan b then (.unordered, !quietOk || n287)
  else if projective n287 cw && (tIsInf a || tIsInf b) then (.unordered, true)
  else (cmpValues a b, false)

/-! Memory formats (R471). -/

/-- The number formats of the memory operands (R471) but temporary real and packed decimal. -/
inductive NumFmt where
  | real32 | real64 | int16 | int32 | int64
deriving DecidableEq, Repr

/-- Its size in bytes. -/
def NumFmt.bytes : NumFmt → Nat
  | .real32 => 4
  | .real64 => 8
  | .int16 => 2
  | .int32 => 4
  | .int64 => 8

/-- A real format: significand bits, exponent bits. -/
structure RealFmt where
  p : Nat
  ebits : Nat
deriving DecidableEq, Repr

def RealFmt.short : RealFmt := ⟨24, 8⟩
def RealFmt.long : RealFmt := ⟨53, 11⟩
def RealFmt.bias (f : RealFmt) : Nat := 2 ^ (f.ebits - 1) - 1
/-- All ones in the exponent. -/
def RealFmt.top (f : RealFmt) : Nat := 2 ^ f.ebits - 1

/-- A real of a memory format, exactly, as a temporary real; whether it is a denormal (R471, R483). A denormal is
normalised, or on the 80287 made an unnormal (R474 (d)) where `keep` says so. -/
def ofReal (f : RealFmt) (keep : Bool) (v : Nat) : Temp × Bool :=
  let frac := v % 2 ^ (f.p - 1)
  let e := v / 2 ^ (f.p - 1) % 2 ^ f.ebits
  let neg := v / 2 ^ (f.p - 1 + f.ebits) % 2 = 1
  if e = f.top then (mkTemp neg 32767 (2 ^ 63 + frac * 2 ^ (64 - f.p)), false)
  else if e = 0 then
    if frac = 0 then (tZero neg, false)
    else if keep then (mkTemp neg (16384 - f.bias) (frac * 2 ^ (64 - f.p)), true)
    else (packTemp neg frac (1 - (f.bias : Int) - (f.p - 1 : Nat)), true)
  else (packTemp neg (2 ^ (f.p - 1) + frac) ((e : Int) - f.bias - (f.p - 1 : Nat)), false)

/-- An integer as a temporary real, exactly (R483). -/
def ofInt (n : Int) : Temp := packTemp (n < 0) n.natAbs 0

/-- A memory operand as a temporary real, and whether it is a denormal (R483, R496). -/
def NumFmt.load (f : NumFmt) (keep : Bool) (v : Nat) : Temp × Bool :=
  match f with
  | .real32 => ofReal .short keep v
  | .real64 => ofReal .long keep v
  | .int16 => (ofInt (BitVec.ofNat 16 v).toInt, false)
  | .int32 => (ofInt (BitVec.ofNat 32 v).toInt, false)
  | .int64 => (ofInt (BitVec.ofNat 64 v).toInt, false)

/-- What a store to memory gives (R488): an invalid operation with its masked response, or a number with the
exceptions it raises. -/
inductive StoreRes where
  | invalid (masked : Nat)
  | value (v : Nat) (oe ue pe up : Bool)
deriving DecidableEq, Repr

/-- The bits of a real of a memory format. -/
def packReal (f : RealFmt) (neg : Bool) (e frac : Nat) : Nat :=
  ((if neg then 2 ^ f.ebits else 0) + e) * 2 ^ (f.p - 1) + frac % 2 ^ (f.p - 1)

/-- The bits of the real that is exactly `m * 2^x`. -/
def realBits (f : RealFmt) (neg : Bool) (m : Nat) (x : Int) : Nat :=
  let len := bitLen m
  let e := x + len - 1
  let emin : Int := 1 - f.bias
  if m = 0 then packReal f neg 0 0
  else if e < emin then packReal f neg 0 (m * 2 ^ (x - (emin - f.p + 1)).toNat)
  else packReal f neg (e + f.bias).toNat (if len ≤ f.p then m * 2 ^ (f.p - len) else m / 2 ^ (len - f.p))

/-- The format as a range of exponents. -/
def RealFmt.format (f : RealFmt) : Format := ⟨f.p, 1 - f.bias, f.bias⟩

/-- Store a temporary real as a real of a memory format (R488): a NaN's fraction is cut on the right. -/
def storeReal (n287 : Bool) (cw : BitVec 16) (f : RealFmt) (v : Temp) : StoreRes :=
  let nan (q : Temp) : Nat := packReal f (tSign q) f.top (tSig q % 2 ^ 63 / 2 ^ (64 - f.p))
  if tUnsupported v then .invalid (nan realIndefinite)
  else if tIsNan v then
    if tIsSignaling v || n287 then .invalid (nan (tQuiet v)) else .value (nan v) false false false false
  else if tIsInf v then .value (packReal f (tSign v) f.top 0) false false false false
  else if tIsZero v then .value (packReal f (tSign v) 0 0) false false false false
  else
    let n := narrow f.format cw (tSign v) (tSig v) (tLsb v)
    if n.big then .value (packReal f (tSign v) f.top 0) n.oe n.ue n.pe n.up
    else .value (realBits f (tSign v) n.m n.x) n.oe n.ue n.pe n.up

/-- Store a temporary real as a two's complement integer of `n` bits (R488). -/
def storeInt (cw : BitVec 16) (n : Nat) (v : Temp) : StoreRes :=
  let indefinite := 2 ^ (n - 1)
  if tUnsupported v || tIsNan v || tIsInf v then .invalid indefinite
  else
    let r := roundToInt (cwRc cw) v
    if r.m ≤ (if tSign v then 2 ^ (n - 1) else 2 ^ (n - 1) - 1) then
      .value (if tSign v then (2 ^ n - r.m) % 2 ^ n else r.m) false false r.inexact r.up
    else .invalid indefinite

/-- Store to a memory format (R488). -/
def NumFmt.store (f : NumFmt) (n287 : Bool) (cw : BitVec 16) (v : Temp) : StoreRes :=
  match f with
  | .real32 => storeReal n287 cw .short v
  | .real64 => storeReal n287 cw .long v
  | .int16 => storeInt cw 16 v
  | .int32 => storeInt cw 32 v
  | .int64 => storeInt cw 64 v

/-- The format holds reals. -/
def NumFmt.isReal : NumFmt → Bool
  | .real32 => true
  | .real64 => true
  | .int16 => false
  | .int32 => false
  | .int64 => false

/-- What a masked stack underflow stores: the indefinite of the format (R476). -/
def NumFmt.indefinite (f : NumFmt) : Nat :=
  match f with
  | .real32 => 0xFFC00000
  | .real64 => 0xFFF8000000000000
  | .int16 => 0x8000
  | .int32 => 0x80000000
  | .int64 => 0x8000000000000000

/-! Packed decimal (R471). -/

/-- The number some BCD bytes stand for, if every digit is below 10. -/
def bcdVal : List Byte → Option Nat
  | [] => some 0
  | b :: rest =>
    let lo := b.toNat % 16
    let hi := b.toNat / 16
    match bcdVal rest with
    | some r => if lo < 10 ∧ hi < 10 then some (lo + 10 * hi + 100 * r) else none
    | none => none

/-- The BCD bytes of a number. -/
def bcdBytes : (n : Nat) → Nat → List Byte
  | 0, _ => []
  | n + 1, v => BitVec.ofNat 8 (v % 10 + 16 * (v / 10 % 10)) :: bcdBytes n (v / 100)

/-- The decimal indefinite (R476). -/
def bcdIndefinite : List Byte :=
  [0#8, 0#8, 0#8, 0#8, 0#8, 0#8, 0#8, 0xC0#8, 0xFF#8, 0xFF#8]

/-- FBSTP's digits (R493): the magnitude if it fits in 18 digits. -/
def storeBcd (cw : BitVec 16) (v : Temp) : Option Rounded :=
  if tUnsupported v || tIsNan v || tIsInf v then none
  else
    let r := roundToInt (cwRc cw) v
    if r.m < 10 ^ 18 then some r else none

/-! Constants (R506 to R513) and the domains of the transcendental instructions (R530 to R537). -/

/-- The constants that are rounded by RC. -/
inductive NpxConst where
  | pi | l2t | l2e | lg2 | ln2
deriving DecidableEq, Repr

/-- Its value to nearest (R509 to R513). -/
def NpxConst.nearest : NpxConst → Temp
  | .pi => mkTemp false 0x4000 0xC90FDAA22168C235
  | .l2t => mkTemp false 0x4000 0xD49A784BCD1B8AFE
  | .l2e => mkTemp false 0x3FFF 0xB8AA3B295C17F0BC
  | .lg2 => mkTemp false 0x3FFD 0x9A209A84FBCFF799
  | .ln2 => mkTemp false 0x3FFE 0xB17217F7D1CF79AC

/-- Its value rounded by RC (R506): the nearest values lie above but for log2 10. -/
def NpxConst.rounded (k : NpxConst) (rc : Rc) : Temp :=
  match k, rc with
  | .l2t, .up => k.nearest + 1
  | .l2t, .nearest => k.nearest
  | .l2t, .down => k.nearest
  | .l2t, .chop => k.nearest
  | _, .nearest => k.nearest
  | _, .up => k.nearest
  | _, .down => k.nearest - 1
  | _, .chop => k.nearest - 1

/-- The index of a constant of the 80287 in `npx287Other`. -/
def NpxConst.index : NpxConst → Nat
  | .pi => 0
  | .l2t => 1
  | .l2e => 2
  | .lg2 => 3
  | .ln2 => 4

/-- The constant as the 80287 loads it (R506): one of the two neighbours. -/
def NpxConst.on287 (k : NpxConst) (other : Bool) : Temp :=
  match k, other with
  | _, false => k.nearest
  | .l2t, true => k.nearest + 1
  | _, true => k.nearest - 1

/-- |v| < 2^63 for a finite value (R530). -/
def trigInRange (v : Temp) : Bool := decide (tExp v < 16383 + 63)

/-- |v| <= 1 for a finite value (R535). -/
def atMostOne (v : Temp) : Bool := decide (tExp v < 16383) || (tExp v == 16383 && tSig v == 2 ^ 63)

/-- 0 <= v <= 0.5 for a finite value (R535, the 80287). -/
def atMostHalf (v : Temp) : Bool :=
  (!tSign v || tIsZero v) && (decide (tExp v < 16382) || (tExp v == 16382 && tSig v == 2 ^ 63))

/-- A positive power of two (R536): its exponent. -/
def log2Exact (v : Temp) : Option Int :=
  if tSign v || tIsInf v || tIsZero v then none
  else
    let n := tSig v
    if n = 2 ^ n.log2 then some (tLsb v + n.log2) else none

end Sys2Proof.Machine
end

