-- ==== Sys2Proof/Machine/Fpu.lean ====
section
/-! DEFINITION. The coprocessor's stack, exceptions and error reporting (R40 to R46, R476, R477, R640 to R642), and
what every coprocessor instruction does around its own effect (R424, R482). -/

namespace Sys2Proof.Machine

/-! The register stack (R40). -/

/-- The physical number of ST(i). -/
def Fpu.phys (f : Fpu) (i : BitVec 3) : BitVec 3 := f.status.top + i
def Fpu.st (f : Fpu) (i : BitVec 3) : Temp := f.regs.get (f.phys i)
def Fpu.tag (f : Fpu) (i : BitVec 3) : Tag := f.tags.get (f.phys i)
def Fpu.isEmpty (f : Fpu) (i : BitVec 3) : Bool := f.tag i == .empty

/-- Write ST(i) with the tag that follows the value (R473). -/
def Fpu.setSt (f : Fpu) (i : BitVec 3) (v : Temp) : Fpu :=
  { f with regs := f.regs.set (f.phys i) v, tags := f.tags.set (f.phys i) (tTag v) }

/-- Move TOP. -/
def Fpu.moveTop (f : Fpu) (d : BitVec 3) : Fpu := { f with status := { f.status with top := f.status.top + d } }

/-- `pop()` (48_x87.md section 4). -/
def Fpu.pop (f : Fpu) : Fpu := { f with tags := f.tags.set (f.phys 0#3) .empty }.moveTop 1#3

/-- `TOP <- TOP - 1; ST(0) <- v`. -/
def Fpu.pushRaw (f : Fpu) (v : Temp) : Fpu := (f.moveTop 7#3).setSt 0#3 v

/-- The register that a push would take is not empty. -/
def Fpu.full (f : Fpu) : Bool := !f.isEmpty 7#3

/-! Exceptions (R41, R477). -/

/-- Some exception bit is set whose mask bit is clear (R477). -/
def Fpu.unmasked (f : Fpu) : Bool :=
  (f.status.ie && !cwMask f.cw 0) || (f.status.de && !cwMask f.cw 1) || (f.status.ze && !cwMask f.cw 2) ||
  (f.status.oe && !cwMask f.cw 3) || (f.status.ue && !cwMask f.cw 4) || (f.status.pe && !cwMask f.cw 5)

/-- Change the coprocessor by a function of it. -/
def updFpu (g : Fpu → Fpu) : M Unit := updS (fun s => s.setFpu (g s.fpu))

/-- Change the status word by a function of it. -/
def updStatus (g : FpuStatus → FpuStatus) : M Unit := updFpu (fun f => { f with status := g f.status })

/-- The coprocessor is an 80287. -/
def State.n287 (s : State) : Bool := s.cfg.npx == .n287

/-- Whether an exception is masked (R42). -/
def State.npxMask (s : State) (i : Nat) : Bool := cwMask s.fpu.cw i

def raiseIe : M Unit := updStatus (fun t => { t with ie := true })
def raiseDeBit : M Unit := updStatus (fun t => { t with de := true })
def raiseZe : M Unit := updStatus (fun t => { t with ze := true })

/-- Overflow, underflow and precision as a computation reports them. -/
def raiseRounding (oe ue pe : Bool) : M Unit :=
  updStatus (fun t => { t with oe := t.oe || oe, ue := t.ue || ue, pe := t.pe || pe })

/-- The coprocessor with ES as given, which is the 'error' signal (R640, R641). -/
def State.signal (s : State) (es : Bool) : State :=
  s.withFpu { s.fpu with status := { s.fpu.status with es := es } }

/-- ES after an instruction that can only add exceptions (R477). -/
def settle : M Unit := updS (fun s => s.signal (s.fpu.status.es || s.fpu.unmasked))

/-- ES after an instruction that loads the control or status word (R541, R546, R640). -/
def resettle : M Unit := updS (fun s => s.signal s.fpu.unmasked)

/-! Condition codes (R479). -/

/-- What an instruction does with a condition code: leaves it, sets it, or leaves it undefined. -/
inductive Code where
  | keep
  | val (b : Bool)
  | undef
deriving DecidableEq, Repr

/-- The four condition codes. -/
structure Codes where
  c3 : Code
  c2 : Code
  c1 : Code
  c0 : Code
deriving DecidableEq, Repr

/-- The new value of one condition code. -/
def Code.next (old : Bool) : Code → M Bool
  | .keep => pure old
  | .val b => pure b
  | .undef => drawBit

/-- Set the condition codes. -/
def setCodes (c : Codes) : M Unit := do
  let s ← getS
  let b3 ← c.c3.next s.fpu.status.c3
  let b2 ← c.c2.next s.fpu.status.c2
  let b1 ← c.c1.next s.fpu.status.c1
  let b0 ← c.c0.next s.fpu.status.c0
  updStatus (fun t => { t with c3 := b3, c2 := b2, c1 := b1, c0 := b0 })

/-- C1 as the 80387 and 80486 define it; on the 80287 it is undefined (R474 (c), R479). -/
def State.c1 (s : State) (b : Bool) : Code := if s.n287 then .undef else .val b

/-- All codes undefined but C1 (R479). -/
def onlyC1 (c : Code) : Codes := ⟨.undef, .undef, c, .undef⟩

/-- No code stated. -/
def noCodes : Codes := onlyC1 .undef

/-- C1 after rounding (R475): whether the magnitude was rounded up, if the result is inexact. -/
def State.roundC1 (s : State) (pe up : Bool) : Code := if pe then s.c1 up else .undef

/-! Stack faults (R476). -/

/-- A stack fault: IE, SF (80387, 80486), also for FXCH and FST (log entry 64), and C1 as given: 1 for overflow and 0
for underflow. -/
def stackFault (c1 : Code) (c : Codes) : M Unit := do
  let s ← getS
  updStatus (fun t => { t with ie := true, sf := t.sf || !s.n287 })
  setCodes { c with c1 := c1 }

/-- Some of the registers is empty: a stack underflow. -/
def State.anyEmpty (s : State) (is : List (BitVec 3)) : Bool := is.any s.fpu.isEmpty

/-- The operands of a list of registers that are there. -/
def State.operands (s : State) (is : List (BitVec 3)) : List Temp :=
  (is.filter (fun i => !s.fpu.isEmpty i)).map s.fpu.st

/-! The delivery of a result to a register (R477). -/

/-- Store a value in ST(i), then pop if the instruction pops. -/
def putSt (i : BitVec 3) (pops : Bool) (v : Temp) : M Unit :=
  updFpu (fun f => if pops then (f.setSt i v).pop else f.setSt i v)

/-- The denormal-operand exception (R477): whether the instruction goes on. -/
def denormalCheck (den : Bool) : M Bool := do
  let s ← getS
  if den then do
    raiseDeBit
    pure (s.npxMask 1)
  else pure true

/-- What follows an invalid operation (R476, R477): not masked, nothing; masked, the detection of a denormal operand
(log entry 51), then the masked response. -/
def afterInvalid (den : Bool) (masked : M Unit) : M Unit := do
  let s ← getS
  if s.npxMask 0 then do
    let go ← denormalCheck den
    (if go then masked else pure ())
  else pure ()

/-- An invalid operation (R476, R477). -/
def invalidOp (den : Bool) (masked : M Unit) : M Unit := do
  raiseIe
  setCodes noCodes
  afterInvalid den masked

/-- A value pushed with the overflow check (`push(v)`): the masked response is the real indefinite (R476). -/
def pushTemp (v : Temp) (den : Bool) (c : Codes) : M Unit := do
  let s ← getS
  if s.fpu.full then do
    stackFault (s.c1 true) noCodes
    afterInvalid den (updFpu (fun f => f.pushRaw realIndefinite))
  else do
    updFpu (fun f => f.pushRaw v)
    setCodes c

/-- A zero-divide, then a denormal operand: the masked response (R477). -/
def zeroDivideOp (den : Bool) (masked : M Unit) : M Unit := do
  let s ← getS
  raiseZe
  setCodes noCodes
  (if s.npxMask 2 then do
    let go ← denormalCheck den
    (if go then masked else pure ())
  else pure ())

/-- The value of a result with the exceptions it raises, after the denormal check. -/
def valueOp (den : Bool) (v : M Temp) (oe ue pe up : Bool) (c : Code → Codes) (put : Temp → M Unit) :
    M Unit := do
  let go ← denormalCheck den
  if go then do
    let s ← getS
    let t ← v
    raiseRounding oe ue pe
    setCodes (c (s.roundC1 pe up))
    put t
  else setCodes noCodes

/-- The 80287 with a pre-standard operand (R474, U21): which exceptions it raises and what it gives are free (log
entry 52). -/
def preStandardOp (c : Code → Codes) (put : Temp → M Unit) : M Unit := do
  let ie ← drawBit
  let de ← drawBit
  if ie then
    invalidOp de (do
      let v ← drawTemp
      put v)
  else
    let ze ← drawBit
    if ze then
      zeroDivideOp de (do
        let v ← drawTemp
        put v)
    else
      let oe ← drawBit
      let ue ← drawBit
      let pe ← drawBit
      valueOp de drawTemp oe ue pe false c put

/-- Deliver a result (R476, R477). `den`: an operand is a denormal; `c`: the condition codes the instruction sets with
its value, from C1 as rounding leaves it; `put` writes the destination and pops. -/
def deliverRes (den : Bool) (r : Res) (c : Code → Codes) (put : Temp → M Unit) : M Unit :=
  match r with
  | .invalid v => invalidOp den (put v)
  | .zeroDivide v => zeroDivideOp den (put v)
  | .value v oe ue pe up => valueOp den (pure v) oe ue pe up c put
  | .unstated oe ue pe up => valueOp den drawTemp oe ue pe up c put
  | .preStandard => preStandardOp c put

/-- An operand of the 80287 in one of its pre-standard formats (R474, U21). -/
def State.preStandard (s : State) (vs : List Temp) : Bool := s.n287 && vs.any tUnsupported

/-- C1 of a stack underflow: 0; undefined where the instruction also pushes and the register it would take is not
empty, for which no rule gives the combined response (log entry 65). -/
def State.underflowC1 (s : State) (pushes : Bool) : Code := if pushes && s.fpu.full then .undef else s.c1 false

/-- The masked response of an invalid operation with the operands that are there: the real indefinite, or the quiet
form of the operand that is a NaN (R476, log entry 62); of a pre-standard operand of the 80287 a free value (log
entry 52). -/
def maskedOf (vs : List Temp) (put : Temp → M Unit) : M Unit := do
  let s ← getS
  if s.preStandard vs then do
    let v ← drawTemp
    put v
  else
    match vs with
    | [] => put realIndefinite
    | a :: _ => put (pickNan a a)

/-- A stack underflow of an instruction with a register destination (R476): `vs` are the operands that are there, `den`
whether one of them is a denormal, `pushes` whether the instruction also pushes. -/
def underflowTo (pushes : Bool) (vs : List Temp) (den : Bool) (put : Temp → M Unit) : M Unit := do
  let s ← getS
  stackFault (s.underflowC1 pushes) noCodes
  afterInvalid den (maskedOf vs put)

/-! What stands around every coprocessor instruction (R424, R482, R642). -/

/-- `#NM` (R424, R642). -/
def npxGate : M Unit := do
  let s ← getS
  if s.sys.cr0.em || s.sys.cr0.ts then raiseNM else pure ()

/-- No coprocessor is fitted: the instruction is a no-operation with undefined coprocessor data (R424, U13, log
entry 56). `noNpx` says what becomes of the data a coprocessor would have given. -/
def whenFitted (noNpx m : M Unit) : M Unit := do
  npxGate
  let s ← getS
  if s.cfg.npx = .absent then noNpx else m

/-- `n` undefined bytes. -/
def drawBytes : (n : Nat) → M (List Byte)
  | 0 => pure []
  | n + 1 => do
    let b ← drawByte
    let bs ← drawBytes n
    pure (b :: bs)

/-- Report a pending error, or wait while 'busy' is held (R641). Which of the two goes by CR0.NE as it is now: with NE = 1
the latch is not looked at (log entry 79). -/
def npxPending : M Unit := do
  let s ← getS
  if s.nativeErrors then (if s.fpu.status.es then raiseMF else pure ())
  else if s.link.busyLatch then throw .waiting
  else pure ()

/-- The checks of a coprocessor operand of `n` bytes (R424, R121): on the 80286 and 80386 an operand that runs past
the limit after its first word raises vector 9 (R600, R603, log entry 35). -/
def npxProbe (m : MemOp) (n al : Nat) (write : Bool) : M Unit := do
  let s ← getS
  let k := s.memSeg m
  let off := s.ea m
  let lin ← segCheck k off (if s.has486 then n else min n 2) write
  if !segHolds (s.segs.get k) off n then raiseOverrun
  else
    let _ ← pageCheck lin n write al
    pure ()

/-- A memory form without a coprocessor: a load does nothing, a store stores undefined bytes (U13, log entry 56). -/
def noNpxData (m : MemOp) (n al : Nat) (write : Bool) : M Unit :=
  if write then do
    npxProbe m n al true
    let bs ← drawBytes n
    writeMemBytes m bs al
  else pure ()

/-- The pointers record the linear address in real-address and virtual-8086 mode (R44, log entry 33). -/
def State.npxPtr (s : State) (sel : BitVec 16) (off : BitVec 32) : FarPtr :=
  if s.protMode then ⟨sel, off⟩ else ⟨0#16, (sel.setWidth 32 <<< 4) + off⟩

/-- The opcode bits: the low three of the first byte, and the second byte (R44). -/
def fopOf (bs : List Byte) : BitVec 11 :=
  match bs with
  | a :: b :: _ => a.extractLsb' 0 3 ++ b
  | _ => 0#11

/-- The offset FIP takes: the first prefix, but on the 80287 in real-address mode the opcode itself (R44, log
entry 34). -/
def State.fipOffset (s : State) (i : Instr) : BitVec 32 :=
  if s.n287 && !s.protMode then s.nextIP - BitVec.ofNat 32 (encode i).length else s.eip

/-- Record FIP, FDP and FOP (R44, R482). -/
def npxRecord (i : Instr) (m : Option MemOp) : M Unit := updS (fun s =>
  s.setFpu { s.fpu with
    fip := s.npxPtr s.segs.cs.sel (s.fipOffset i)
    fop := fopOf (encode i)
    fdp := match m with
      | some o => s.npxPtr (s.segs.get (s.memSeg o)).sel (s.ea o)
      | none => s.fpu.fdp })

/-- An instruction without memory operand that waits for pending errors and records its address (R424, R482). -/
def npxReg (i : Instr) (m : M Unit) (s : State) : Host.Outcome State Fault Refusal :=
  complete (whenFitted (pure ()) (do
    npxRecord i none
    npxPending
    m
    settle)) s

/-- An instruction with a memory operand of `n` bytes (R424, R482). -/
def npxMem (i : Instr) (o : MemOp) (n al : Nat) (write : Bool) (m : M Unit) (s : State) :
    Host.Outcome State Fault Refusal :=
  complete (whenFitted (noNpxData o n al write) (do
    npxProbe o n al write
    npxRecord i (some o)
    npxPending
    m
    settle)) s

end Sys2Proof.Machine
end

