-- ==== Sys2Proof/Machine/Processor.lean ====
section
/-! DEFINITION. Processor control (47_processor_protection.md): HLT, NOP, WAIT and the moves to and from the control,
debug and test registers. -/

namespace Sys2Proof.Machine

/-- HLT (R420): the interrupt that ends the halt saves the offset of the next instruction. -/
def execHlt (s : State) : Host.Outcome State Fault Refusal :=
  complete (do
    privileged
    updCtl (fun c => { c with activity := .halted })) s

/-- NOP (R422). -/
def execNop (s : State) : Host.Outcome State Fault Refusal := complete (pure ()) s

/-- WAIT (R423, R642): `#NM` with MP and TS; then it waits for 'busy' and reports a pending error (R641). -/
def execWait (s : State) : Host.Outcome State Fault Refusal :=
  complete (if s.sys.cr0.mp && s.sys.cr0.ts then raiseNM else npxPending) s

/-- The moves of special registers end with the six status flags undefined (R421). -/
def specialMove (m : M Unit) (s : State) : Host.Outcome State Fault Refusal :=
  complete (do
    privileged
    m
    undefStatus) s

/-- A value whose reserved bits are undefined on reading (U8, log entry 28): `defined` marks the others. -/
def withReserved (defined v : BitVec 32) : M (BitVec 32) := do
  let u ← drawDword
  pure ((v &&& defined) ||| (u &&& ~~~defined))

/-- The defined bits of CR0 (R31): NE, WP, AM, NW, CD on the 80486. -/
def cr0Defined (has486 : Bool) : BitVec 32 := if has486 then 0xE005003F#32 else 0x8000001F#32

/-- The bits of CR3 that are no base: PWT and PCD on the 80486 (R34). -/
def Config.cr3Bits (c : Config) : BitVec 32 :=
  if c.cpu = .p486 then place 32 true c.pwtBit ||| place 32 true c.pcdBit else 0#32

/-- The defined bits of CR3 (R34). -/
def State.cr3Defined (s : State) : BitVec 32 := 0xFFFFF000#32 ||| Config.cr3Bits s.cfg

/-- The defined bits of DR6 and DR7 (R36). -/
def dr6Defined : BitVec 32 := 0x0000E00F#32
def dr7Defined : BitVec 32 := 0xFFFF23FF#32

/-- CR0 as an instruction reads it (R429, U8); the machine status word is its low half. -/
def readCr0 : M (BitVec 32) := do
  let s ← getS
  withReserved (cr0Defined s.has486) s.sys.cr0.word

/-- The CR0 a written value gives (R428): on the 80386 only PE, MP, EM, TS, ET and PG; on the 80486 ET stays 1. -/
def State.cr0From (s : State) (v : BitVec 32) : Cr0 :=
  let c := s.sys.cr0
  if s.has486 then
    { pe := bitOf v 0, mp := bitOf v 1, em := bitOf v 2, ts := bitOf v 3, et := true, ne := bitOf v 5
      wp := bitOf v 16, am := bitOf v 18, nw := bitOf v 29, cd := bitOf v 30, pg := bitOf v 31 }
  else
    { c with
      pe := bitOf v 0, mp := bitOf v 1, em := bitOf v 2, ts := bitOf v 3, et := bitOf v 4, pg := bitOf v 31 }

/-- Replace CR0: a change of PG, PE or (80486) WP empties the translation buffer (R106, R428); entering protected mode
starts at level 0. -/
def State.setCr0 (s : State) (n : Cr0) : State :=
  let c := s.sys.cr0
  let t := s.setSys { s.sys with cr0 := n, cpl := if n.pe && !c.pe then 0#2 else s.sys.cpl }
  if n.pg != c.pg || n.pe != c.pe || n.wp != c.wp then t.setTlb [] else t

/-- MOV to CR0 (R428, R32): PG without PE, and on the 80486 NW without CD, is `#GP(0)`; setting CD and NW together is
refused (D20). -/
def writeCr0 (v : BitVec 32) : M Unit := do
  let s ← getS
  let n := s.cr0From v
  if n.pg && !n.pe then raiseGP 0#16
  else if s.has486 && !n.cd && n.nw then raiseGP 0#16
  else if s.has486 && n.cd && n.nw && !(s.sys.cr0.cd && s.sys.cr0.nw) then refuse .cacheWriteThroughOff
  else updS (fun t => t.setCr0 n)

/-- MOV to CR3 (R428): the whole translation buffer is emptied. -/
def writeCr3 (v : BitVec 32) : M Unit :=
  updS (fun s => (s.setSys { s.sys with cr3 := v &&& s.cr3Defined }).setTlb [])

/-- MOV to a control register (R428). -/
def execMovToCr (cr : CrNum) (reg : RegNum) (s : State) : Host.Outcome State Fault Refusal :=
  let v := s.reg .w32 reg
  specialMove (match cr with
    | .cr0 => writeCr0 v
    | .cr2 => updSys (fun y => { y with cr2 := v })
    | .cr3 => writeCr3 v) s

/-- MOV from a control register (R429). -/
def execMovFromCr (cr : CrNum) (reg : RegNum) (s : State) : Host.Outcome State Fault Refusal :=
  specialMove (do
    let v ← (match cr with
      | .cr0 => readCr0
      | .cr2 => pure s.sys.cr2
      | .cr3 => withReserved s.cr3Defined s.sys.cr3)
    setReg .w32 reg v) s

/-- An access to a debug register while DR7.GD = 1 raises the debug exception instead (R430), after the privilege check
(log entry 26). -/
def debugGuard : M Unit := do
  let s ← getS
  if bitOf s.sys.dr7 13 then raiseExc 1#8 none else pure ()

/-- The debug registers after a write of one of them (R36, R430). -/
def Sys.setDr (y : Sys) (dr : DrNum) (v : BitVec 32) : Sys :=
  match dr with
  | .dr0 => { y with dr0 := v }
  | .dr1 => { y with dr1 := v }
  | .dr2 => { y with dr2 := v }
  | .dr3 => { y with dr3 := v }
  | .dr6 => { y with dr6 := v &&& dr6Defined }
  | .dr7 => { y with dr7 := v &&& dr7Defined }

/-- MOV to a debug register (R430): a value that arms a breakpoint is refused (D16). -/
def execMovToDr (dr : DrNum) (reg : RegNum) (s : State) : Host.Outcome State Fault Refusal :=
  let v := s.reg .w32 reg
  specialMove (do
    debugGuard
    if dr = .dr7 ∧ v.extractLsb' 0 8 ≠ 0#8 then refuse .armBreakpoint
    else updSys (fun y => y.setDr dr v)) s

/-- The debug register that an instruction reads (R431); reserved bits of DR6 and DR7 are undefined (U8). -/
def readDr (dr : DrNum) (y : Sys) : M (BitVec 32) :=
  match dr with
  | .dr0 => pure y.dr0
  | .dr1 => pure y.dr1
  | .dr2 => pure y.dr2
  | .dr3 => pure y.dr3
  | .dr6 => withReserved dr6Defined y.dr6
  | .dr7 => withReserved dr7Defined y.dr7

/-- MOV from a debug register (R431). -/
def execMovFromDr (dr : DrNum) (reg : RegNum) (s : State) : Host.Outcome State Fault Refusal :=
  specialMove (do
    debugGuard
    let v ← readDr dr s.sys
    setReg .w32 reg v) s

/-- MOV to a test register (R432): kept, and without effect (D16, log entry 27). -/
def execMovToTr (tr : TrNum) (reg : RegNum) (s : State) : Host.Outcome State Fault Refusal :=
  let v := s.reg .w32 reg
  specialMove (updSys (fun y =>
    match tr with
    | .tr6 => { y with tr6 := v }
    | .tr7 => { y with tr7 := v })) s

/-- MOV from a test register (R433): the value read is undefined (D16). -/
def execMovFromTr (_tr : TrNum) (reg : RegNum) (s : State) : Host.Outcome State Fault Refusal :=
  specialMove (do
    let u ← drawDword
    setReg .w32 reg u) s

end Sys2Proof.Machine
end

