-- ==== Sys2Proof/Machine/Protection.lean ====
section
/-! DEFINITION. Protection control (47_processor_protection.md R435 to R450). -/

namespace Sys2Proof.Machine

/-- Set ZF. -/
def setZf (z : Bool) : M Unit := updFlags (fun f => { f with zf := z })

/-- ARPL (R436): the requested privilege level of the destination is raised to the source's. -/
def execArpl (reg : RegNum) (rm : RM) (s : State) : Host.Outcome State Fault Refusal :=
  complete (do
    protectedOnly
    let d ← readRM .w16 rm
    let v : BitVec 16 := s.reg .w16 reg
    if (selRpl d).toNat < (selRpl v).toNat then do
      writeRM .w16 rm (selErr d ||| (selRpl v).setWidth 16)
      setZf true
    else setZf false) s

/-- The descriptor of a selector that is not null and within its table (`DescOK`, R435). -/
def descIfOk (sel : BitVec 16) : M (Option Desc) := do
  let s ← getS
  if selNull sel then pure none
  else
    match s.descAddr sel with
    | none => pure none
    | some a => do
      let d ← descAt a
      pure (some d)

/-- DPL >= CPL and DPL >= RPL, but for a conforming code segment (R437). -/
def visible (cpl : BitVec 2) (sel : BitVec 16) (d : Desc) : Bool :=
  arConforming d.access ||
    (decide (cpl.toNat ≤ (arDpl d.access).toNat) && decide ((selRpl sel).toNat ≤ (arDpl d.access).toNat))

/-- The descriptor types LAR accepts (R437); types above 7 are not the 80286's. -/
def larType (is386 : Bool) (a : BitVec 8) : Bool :=
  let t := arType a
  arSegment a || t == 1 || t == 2 || t == 3 || t == 4 || t == 5 || (is386 && (t == 9 || t == 11 || t == 12))

/-- The descriptor types LSL accepts (R442). -/
def lslType (is386 : Bool) (a : BitVec 8) : Bool :=
  let t := arType a
  arSegment a || t == 1 || t == 2 || t == 3 || (is386 && (t == 9 || t == 11))

/-- An instruction that looks at a descriptor (R437, R442, R449): with a descriptor that passes ZF is 1 and `f`
follows, else ZF is 0 and nothing else changes. -/
def lookAt (rm : RM) (ok : State → Desc → Bool) (f : Desc → M Unit) (s : State) :
    Host.Outcome State Fault Refusal :=
  complete (do
    protectedOnly
    let sel : BitVec 16 ← readRM .w16 rm
    let d? ← descIfOk sel
    match d? with
    | none => setZf false
    | some d =>
      if ok s d && visible s.cpl sel d then do
        setZf true
        f d
      else setZf false) s

/-- The access rights LAR gives (R437). -/
def larRights (os : Size) (d : Desc) : BitVec 32 :=
  match os with
  | .s16 => d.hi &&& 0xFF00#32
  | .s32 => d.hi &&& 0x00F0FF00#32

/-- LAR (R437). -/
def execLar (reg : RegNum) (rm : RM) (s : State) : Host.Outcome State Fault Refusal :=
  lookAt rm (fun t d => larType t.has386 d.access)
    (fun d => setReg s.os.width reg ((larRights s.os d).setWidth s.os.width.bits)) s

/-- LSL (R442): the byte-granular limit. -/
def execLsl (reg : RegNum) (rm : RM) (s : State) : Host.Outcome State Fault Refusal :=
  lookAt rm (fun t d => lslType t.has386 d.access)
    (fun d => setReg s.os.width reg (d.limit.setWidth s.os.width.bits)) s

/-- VERR (R449). -/
def execVerr (rm : RM) (s : State) : Host.Outcome State Fault Refusal :=
  lookAt rm (fun _ d => arReadable d.access) (fun _ => pure ()) s

/-- VERW (R450). -/
def execVerw (rm : RM) (s : State) : Host.Outcome State Fault Refusal :=
  lookAt rm (fun _ d => arWritable d.access) (fun _ => pure ()) s

/-- The table register that six bytes of memory hold (R438); the operand is never alignment-checked (R110), and the
offset of the base is formed in 32 bits (log entry 74). -/
def readTable (o : MemOp) : M TableReg := do
  let s ← getS
  let l ← segRead (s.memSeg o) (s.ea o) 2 1
  let b ← segRead (s.memSeg o) (s.ea o + 2#32) 4 1
  let base : BitVec 32 := leVal 32 b
  pure ⟨if s.os = .s32 ∧ s.has386 = true then base else base &&& 0x00FFFFFF#32, leVal 16 l⟩

/-- LGDT (R438). -/
def execLgdt (mem : MemOp) (s : State) : Host.Outcome State Fault Refusal :=
  complete (do
    privileged
    let t ← readTable mem
    updSys (fun y => { y with gdtr := t })) s

/-- LIDT (R439). -/
def execLidt (mem : MemOp) (s : State) : Host.Outcome State Fault Refusal :=
  complete (do
    privileged
    let t ← readTable mem
    updSys (fun y => { y with idtr := t })) s

/-- The base as SGDT and SIDT store it (R444). -/
def State.storedBase (s : State) (base : BitVec 32) : BitVec 32 :=
  match s.cfg.cpu with
  | .p486 => base
  | .p386 => if s.os = .s32 then base else base &&& 0x00FFFFFF#32
  | .p286 => 0xFF000000#32 ||| base

/-- Store a table register (R444); both parts are checked before the first is written (R606), and the offset of the base
is formed in 32 bits (log entry 74). -/
def writeTable (o : MemOp) (t : TableReg) : M Unit := do
  let s ← getS
  probeWrite (s.memSeg o) (s.ea o) 2 1
  probeWrite (s.memSeg o) (s.ea o + 2#32) 4 1
  segWrite (s.memSeg o) (s.ea o) (leBytes 2 t.limit.toNat) 1
  segWrite (s.memSeg o) (s.ea o + 2#32) (leBytes 4 (s.storedBase t.base).toNat) 1

/-- SGDT (R444). -/
def execSgdt (mem : MemOp) (s : State) : Host.Outcome State Fault Refusal :=
  complete (writeTable mem s.sys.gdtr) s

/-- SIDT (R445). -/
def execSidt (mem : MemOp) (s : State) : Host.Outcome State Fault Refusal :=
  complete (writeTable mem s.sys.idtr) s

/-- A system segment register loaded from a descriptor (R440, R443). -/
def Desc.toSystem (d : Desc) (sel : BitVec 16) (access : BitVec 8) : SegReg :=
  { sel := sel, base := d.base, limit := d.limit, access := access, db := d.db, g := d.g, usable := true }

/-- The descriptor in the global table that LLDT and LTR name; beyond it, or in the local table, `#GP(sel)`. -/
def globalDesc (sel : BitVec 16) : M Desc :=
  if selLocal sel then raiseGP (selErr sel) else readDesc sel (raiseGP (selErr sel))

/-- LLDT (R440). -/
def execLldt (rm : RM) (s : State) : Host.Outcome State Fault Refusal :=
  complete (do
    protectedOnly
    privileged
    let sel : BitVec 16 ← readRM .w16 rm
    if selNull sel then updSys (fun y => { y with ldtr := y.ldtr.toNull sel })
    else
      let d ← globalDesc sel
      if arSegment d.access || arType d.access != 2 then raiseGP (selErr sel)
      else if !arPresent d.access then raiseNP (selErr sel)
      else updSys (fun y => { y with ldtr := d.toSystem sel d.access })) s

/-- An available task state segment: type 1, or 9 on the 80386 and 80486 (R443). -/
def availableTss (is386 : Bool) (a : BitVec 8) : Bool :=
  !arSegment a && (arType a == 1 || (is386 && arType a == 9))

/-- LTR (R443): the descriptor is marked busy in memory; no task switch. -/
def execLtr (rm : RM) (s : State) : Host.Outcome State Fault Refusal :=
  complete (do
    protectedOnly
    privileged
    let sel : BitVec 16 ← readRM .w16 rm
    if selNull sel then raiseGP 0#16
    else
      let d ← globalDesc sel
      if !availableTss s.has386 d.access then raiseGP (selErr sel)
      else if !arPresent d.access then raiseNP (selErr sel)
      else
        let busy := d.access ||| 2#8
        sysWrite (d.addr + 5#32) [busy]
        updSys (fun y => { y with tr := d.toSystem sel busy })) s

/-- LMSW (R441): MP, EM, TS, and PE which it can only set. -/
def execLmsw (rm : RM) (s : State) : Host.Outcome State Fault Refusal :=
  complete (do
    privileged
    let v : BitVec 16 ← readRM .w16 rm
    updS (fun t =>
      let c := t.sys.cr0
      t.setCr0 { c with mp := bitOf v 1, em := bitOf v 2, ts := bitOf v 3, pe := c.pe || bitOf v 0 })) s

/-- Store a selector to a register, whose upper half becomes undefined with OS = 32, or to 16 bits of memory
(R446). -/
def storeSel (rm : RM) (sel : BitVec 16) : M Unit := do
  let s ← getS
  match rm with
  | .reg r => do
    let v ← selItem s.os.width sel
    setReg s.os.width r v
  | .mem m => writeRM .w16 (.mem m) sel

/-- SLDT (R446). -/
def execSldt (rm : RM) (s : State) : Host.Outcome State Fault Refusal :=
  complete (do
    protectedOnly
    storeSel rm s.sys.ldtr.sel) s

/-- STR (R448). -/
def execStr (rm : RM) (s : State) : Host.Outcome State Fault Refusal :=
  complete (do
    protectedOnly
    storeSel rm s.sys.tr.sel) s

/-- The machine status word as SMSW reads it (R447, R31): on the 80286 bits 15:4 are 1. -/
def readMsw : M (BitVec 32) := do
  let s ← getS
  if s.has386 then readCr0 else pure (0xFFF0#32 ||| s.sys.cr0.word)

/-- SMSW (R447): the 80486 stores all of CR0 to a 32-bit register. -/
def execSmsw (rm : RM) (s : State) : Host.Outcome State Fault Refusal :=
  complete (do
    let v ← readMsw
    match rm with
    | .reg r =>
      if s.has486 && s.os == .s32 then setReg .w32 r v else storeSel (.reg r) (v.extractLsb' 0 16)
    | .mem m => writeRM .w16 (.mem m) (v.extractLsb' 0 16)) s

end Sys2Proof.Machine
end

