-- ==== Sys2Proof/Machine/X87Data.lean ====
section
/-! DEFINITION. The coprocessor's data transfer, constant and comparison instructions (48_x87.md sections 4 to 6). -/

namespace Sys2Proof.Machine

/-- MF of the real forms (R470). -/
def realFmt (dbl : Bool) : NumFmt := if dbl then .real64 else .real32

/-- MF of the integer forms (R470). -/
def intFmt (word : Bool) : NumFmt := if word then .int16 else .int32

/-- An instruction whose memory operand is a number (R470, R471). -/
def npxNum (i : Instr) (f : NumFmt) (o : MemOp) (write : Bool) (m : M Unit) (s : State) :
    Host.Outcome State Fault Refusal :=
  npxMem i o f.bytes f.bytes write m s

/-- Read a number from memory as a temporary real, and whether it is a denormal (R483, R496); `keep`: a denormal is made
an unnormal, which only a load on the 80287 does (R474 (d), log entry 75). -/
def readNum (f : NumFmt) (o : MemOp) (keep : Bool) : M (Temp × Bool) := do
  let bs ← readMemBytes o f.bytes f.bytes
  pure (f.load keep (leNat bs))

/-- FLD, FILD (R483, R484): a signaling NaN is invalid, on the 80287 every NaN (R474 (b)); a denormal real is
normalised, on the 80287 made an unnormal (R474 (d)). -/
def loadNum (f : NumFmt) (o : MemOp) : M Unit := do
  let s ← getS
  let (v, den) ← readNum f o s.n287
  if s.fpu.full then pushTemp v den noCodes
  else if tIsSignaling v || (s.n287 && tIsNan v) then invalidOp false (updFpu (fun f => f.pushRaw (tQuiet v)))
  else
    let go ← denormalCheck den
    setCodes noCodes
    (if go then updFpu (fun f => f.pushRaw v) else pure ())

/-- Store a number and pop if the instruction pops. -/
def putNum (f : NumFmt) (o : MemOp) (pops : Bool) (v : Nat) : M Unit := do
  writeMemBytes o (leBytes f.bytes v) f.bytes
  (if pops then updFpu Fpu.pop else pure ())

/-- What a store of a pre-standard value of the 80287 gives: free (R474, log entry 52). -/
def drawStore : M StoreRes := do
  let ie ← drawBit
  let v ← drawTemp
  if ie then pure (.invalid v.toNat)
  else do
    let oe ← drawBit
    let ue ← drawBit
    let pe ← drawBit
    pure (.value v.toNat oe ue pe false)

/-- FST, FIST and their popping forms (R488, R490, R491): an unmasked overflow or underflow stores and pops nothing
(R477) and sets no PE (log entry 70); DE on the 80287 real forms. -/
def storeNum (f : NumFmt) (o : MemOp) (pops : Bool) : M Unit := do
  let s ← getS
  let v := s.fpu.st 0#3
  if s.fpu.isEmpty 0#3 then
    stackFault (s.c1 false) noCodes
    afterInvalid false (putNum f o pops f.indefinite)
  else
    let r ← if s.preStandard [v] then drawStore else pure (f.store s.n287 s.fpu.cw v)
    let den ← if s.preStandard [v] then drawBit else pure (s.n287 && f.isReal && tIsDenormal v)
    match r with
    | .invalid w => invalidOp den (putNum f o pops w)
    | .value w oe ue pe up =>
      let go ← denormalCheck den
      if !go then setCodes noCodes
      else if (oe && !s.npxMask 3) || (ue && !s.npxMask 4) then
        raiseRounding oe ue false
        setCodes noCodes
      else
        raiseRounding oe ue pe
        setCodes (onlyC1 (s.roundC1 pe up))
        putNum f o pops w

/-- FLD of a temporary real (R485): the pattern unchanged, of a pre-standard value of the 80287 too (log entry 76). -/
def loadTemp (o : MemOp) : M Unit := do
  let bs ← readMemBytes o 10 8
  pushTemp (leVal 80 bs) false noCodes

/-- FSTP of a temporary real (R492): the bits as they are (log entry 76). -/
def storeTemp (o : MemOp) : M Unit := do
  let s ← getS
  let put (v : Temp) : M Unit := do
    writeMemBytes o (leBytes 10 v.toNat) 8
    updFpu Fpu.pop
  if s.fpu.isEmpty 0#3 then underflowTo false [] false put
  else
    setCodes noCodes
    put (s.fpu.st 0#3)

/-- FBLD (R486): a digit above 9 gives an undefined value; minus zero stays. -/
def loadBcd (o : MemOp) : M Unit := do
  let bs ← readMemBytes o 10 8
  match bcdVal (bs.take 9) with
  | some n => pushTemp (packTemp (decide (128 ≤ leNat (bs.drop 9))) n 0) false noCodes
  | none => do
    let u ← drawTemp
    pushTemp u false noCodes

/-- FBSTP of a pre-standard value of the 80287: free (R474, log entry 52). -/
def preStandardBcd (put : List Byte → M Unit) : M Unit := do
  let ie ← drawBit
  let v ← drawTemp
  if ie then invalidOp false (put (leBytes 10 v.toNat))
  else
    let pe ← drawBit
    raiseRounding false false pe
    setCodes noCodes
    put (leBytes 10 v.toNat)

/-- FBSTP (R493). -/
def storeBcdOp (o : MemOp) : M Unit := do
  let s ← getS
  let v := s.fpu.st 0#3
  let put (bs : List Byte) : M Unit := do
    writeMemBytes o bs 8
    updFpu Fpu.pop
  if s.fpu.isEmpty 0#3 then
    stackFault (s.c1 false) noCodes
    afterInvalid false (put bcdIndefinite)
  else if s.preStandard [v] then preStandardBcd put
  else
    match storeBcd s.fpu.cw v with
    | none => invalidOp false (put bcdIndefinite)
    | some r =>
      raiseRounding false false r.inexact
      setCodes (onlyC1 (s.roundC1 r.inexact r.up))
      put (bcdBytes 9 r.m ++ [if tSign v then 0x80#8 else 0#8])

/-- FLD ST(i) (R487): the register is read before TOP moves, and its bits are copied whatever they are (log entry 76). -/
def loadSt (i : BitVec 3) : M Unit := do
  let s ← getS
  if s.fpu.isEmpty i then underflowTo true [] false (fun v => updFpu (fun f => f.pushRaw v))
  else pushTemp (s.fpu.st i) false noCodes

/-- FST ST(i), FSTP ST(i) (R489, R494): the bits as they are, those of a pre-standard value of the 80287 too (R474 names
none of these forms; log entry 76). -/
def storeSt (i : BitVec 3) (pops : Bool) : M Unit := do
  let s ← getS
  if s.fpu.isEmpty 0#3 then underflowTo false [] false (putSt i pops)
  else
    setCodes noCodes
    putSt i pops (s.fpu.st 0#3)

/-- A register that is empty is first given the real indefinite (R495). -/
def Fpu.fill (f : Fpu) (i : BitVec 3) : Fpu := if f.isEmpty i then f.setSt i realIndefinite else f

/-- Swap two registers with their tags (R495). -/
def Fpu.swap (f : Fpu) (i : BitVec 3) : Fpu :=
  { f with
    regs := (f.regs.set (f.phys 0#3) (f.st i)).set (f.phys i) (f.st 0#3)
    tags := (f.tags.set (f.phys 0#3) (f.tag i)).set (f.phys i) (f.tag 0#3) }

/-- FXCH (R495): the bits as they are (log entry 76). -/
def exchange (i : BitVec 3) : M Unit := do
  let s ← getS
  if s.anyEmpty [0#3, i] then
    stackFault (s.c1 false) noCodes
    afterInvalid false (updFpu (fun f => ((f.fill 0#3).fill i).swap i))
  else
    setCodes (onlyC1 (s.c1 false))
    updFpu (fun f => f.swap i)

/-! Comparison (section 5). -/

/-- C3, C2, C0 of a comparison (R479). -/
def Cmp.codes (c1 : Code) : Cmp → Codes
  | .greater => ⟨.val false, .val false, c1, .val false⟩
  | .less => ⟨.val false, .val false, c1, .val true⟩
  | .equal => ⟨.val true, .val false, c1, .val false⟩
  | .unordered => ⟨.val true, .val true, c1, .val true⟩

/-- The codes other than C1 not changed (R496). -/
def keepCodes (c1 : Code) : Codes := ⟨.keep, .keep, c1, .keep⟩

/-- Pop so many times. -/
def popTimes : (n : Nat) → M Unit
  | 0 => pure ()
  | n + 1 => do
    updFpu Fpu.pop
    popTimes n

/-- An empty operand of a comparison: masked, the codes are 'unordered' (R497). `den`: the other operand is a
denormal. -/
def compareEmpty (den : Bool) (pops : Nat) : M Unit := do
  let s ← getS
  stackFault (s.c1 false) (if s.npxMask 0 then Cmp.unordered.codes .undef else keepCodes .undef)
  afterInvalid den (popTimes pops)

/-- Compare ST(0) with a source (R496, R497, R501): not popped on an unmasked exception. An invalid operation that is not
masked leaves the codes; after a denormal operand that is not masked no rule states them, and they are undefined (log
entry 29). With a pre-standard operand of the 80287 the codes and the exceptions are free (R474, log entry 52). -/
def compareWith (quietOk : Bool) (b : Temp) (den : Bool) (pops : Nat) : M Unit := do
  let s ← getS
  let a := s.fpu.st 0#3
  let pre := s.preStandard [a, b]
  let (r, invalid) := compareRes s.n287 s.fpu.cw quietOk a b
  let bad ← if pre then drawBit else pure invalid
  let denFree ← if pre then drawBit else pure false
  (if bad then raiseIe else pure ())
  if bad && !s.npxMask 0 then setCodes (keepCodes (s.c1 false))
  else
    let go ← denormalCheck (den || tIsDenormal a || denFree)
    setCodes (if pre || (!go && !bad) then ⟨.undef, .undef, s.c1 false, .undef⟩ else r.codes (s.c1 false))
    (if go then popTimes pops else pure ())

/-- FCOM and FCOMP with memory (R496, R498). A denormal real operand is normalised on the 80287 too, where a load makes
it an unnormal (R474 (d), log entry 75). -/
def compareNum (f : NumFmt) (o : MemOp) (pops : Nat) : M Unit := do
  let s ← getS
  let (v, den) ← readNum f o false
  if s.fpu.isEmpty 0#3 then compareEmpty den pops else compareWith false v den pops

/-- FCOM, FUCOM and their popping forms with a register (R497, R501). -/
def compareSt (quietOk : Bool) (i : BitVec 3) (pops : Nat) : M Unit := do
  let s ← getS
  if s.anyEmpty [0#3, i] then compareEmpty ((s.operands [0#3, i]).any tIsDenormal) pops
  else compareWith quietOk (s.fpu.st i) (tIsDenormal (s.fpu.st i)) pops

/-- FTST (R504): with +0.0. -/
def testZero : M Unit := do
  let s ← getS
  if s.fpu.isEmpty 0#3 then compareEmpty false 0 else compareWith false (tZero false) false 0

/-- C3, C2, C0 of FXAM (R505). -/
def classCodes : Class → Bool × Bool × Bool
  | .unnormal => (false, false, false)
  | .pseudo => (false, false, false)
  | .quiet => (false, false, true)
  | .signaling => (false, false, true)
  | .normal => (false, true, false)
  | .infinity => (false, true, true)
  | .zero => (true, false, false)
  | .denormal => (true, true, false)

/-- FXAM (R505): on the 80287 an empty register gives 1 0 1 or 1 1 1, and a pseudo-NaN or pseudo-infinity free
codes (R474, log entry 52). -/
def examine : M Unit := do
  let s ← getS
  let v := s.fpu.st 0#3
  let c1 : Code := .val (tSign v)
  if s.fpu.isEmpty 0#3 then
    setCodes ⟨.val true, if s.n287 then .undef else .val false, c1, .val true⟩
  else if s.n287 && tClass v == .pseudo then setCodes ⟨.undef, .undef, c1, .undef⟩
  else
    let (c3, c2, c0) := classCodes (tClass v)
    setCodes ⟨.val c3, .val c2, c1, .val c0⟩

/-- A load-constant instruction (R506): by RC on the 80387 and 80486; on the 80287 which neighbour is not known. -/
def loadConst (k : NpxConst) : M Unit := do
  let s ← getS
  let v := if s.n287 then k.on287 (Config.npx287Other k.index) else k.rounded (cwRc s.fpu.cw)
  pushTemp v false (onlyC1 (s.c1 false))

/-- FLDZ and FLD1 (R507, R508). -/
def loadExact (v : Temp) : M Unit := do
  let s ← getS
  pushTemp v false (onlyC1 (s.c1 false))

/-- FLD of a real (R483). -/
def execFldMem (dbl : Bool) (mem : MemOp) (s : State) : Host.Outcome State Fault Refusal :=
  npxNum (.fldMem dbl mem) (realFmt dbl) mem false (loadNum (realFmt dbl) mem) s

/-- FILD of a 16- or 32-bit integer (R483). -/
def execFild (word : Bool) (mem : MemOp) (s : State) : Host.Outcome State Fault Refusal :=
  npxNum (.fild word mem) (intFmt word) mem false (loadNum (intFmt word) mem) s

/-- FILD of a 64-bit integer (R484). -/
def execFildM64 (mem : MemOp) (s : State) : Host.Outcome State Fault Refusal :=
  npxNum (.fildM64 mem) .int64 mem false (loadNum .int64 mem) s

/-- FLD of a temporary real (R485). -/
def execFldM80 (mem : MemOp) (s : State) : Host.Outcome State Fault Refusal :=
  npxMem (.fldM80 mem) mem 10 8 false (loadTemp mem) s

/-- FBLD (R486). -/
def execFbld (mem : MemOp) (s : State) : Host.Outcome State Fault Refusal :=
  npxMem (.fbld mem) mem 10 8 false (loadBcd mem) s

/-- FLD ST(i) (R487). -/
def execFldSt (i : BitVec 3) (s : State) : Host.Outcome State Fault Refusal :=
  npxReg (.fldSt i) (loadSt i) s

/-- FST to a real (R488). -/
def execFstMem (dbl : Bool) (mem : MemOp) (s : State) : Host.Outcome State Fault Refusal :=
  npxNum (.fstMem dbl mem) (realFmt dbl) mem true (storeNum (realFmt dbl) mem false) s

/-- FIST to a 16- or 32-bit integer (R488). -/
def execFist (word : Bool) (mem : MemOp) (s : State) : Host.Outcome State Fault Refusal :=
  npxNum (.fist word mem) (intFmt word) mem true (storeNum (intFmt word) mem false) s

/-- FST ST(i) (R489). -/
def execFstSt (i : BitVec 3) (s : State) : Host.Outcome State Fault Refusal :=
  npxReg (.fstSt i) (storeSt i false) s

/-- FSTP to a real (R490). -/
def execFstpMem (dbl : Bool) (mem : MemOp) (s : State) : Host.Outcome State Fault Refusal :=
  npxNum (.fstpMem dbl mem) (realFmt dbl) mem true (storeNum (realFmt dbl) mem true) s

/-- FISTP to a 16- or 32-bit integer (R490). -/
def execFistp (word : Bool) (mem : MemOp) (s : State) : Host.Outcome State Fault Refusal :=
  npxNum (.fistp word mem) (intFmt word) mem true (storeNum (intFmt word) mem true) s

/-- FISTP to a 64-bit integer (R491). -/
def execFistpM64 (mem : MemOp) (s : State) : Host.Outcome State Fault Refusal :=
  npxNum (.fistpM64 mem) .int64 mem true (storeNum .int64 mem true) s

/-- FSTP to a temporary real (R492). -/
def execFstpM80 (mem : MemOp) (s : State) : Host.Outcome State Fault Refusal :=
  npxMem (.fstpM80 mem) mem 10 8 true (storeTemp mem) s

/-- FBSTP (R493). -/
def execFbstp (mem : MemOp) (s : State) : Host.Outcome State Fault Refusal :=
  npxMem (.fbstp mem) mem 10 8 true (storeBcdOp mem) s

/-- FSTP ST(i) (R494). -/
def execFstpSt (i : BitVec 3) (s : State) : Host.Outcome State Fault Refusal :=
  npxReg (.fstpSt i) (storeSt i true) s

/-- FXCH (R495). -/
def execFxch (i : BitVec 3) (s : State) : Host.Outcome State Fault Refusal :=
  npxReg (.fxch i) (exchange i) s

/-- FCOM with a real (R496). -/
def execFcomMem (dbl : Bool) (mem : MemOp) (s : State) : Host.Outcome State Fault Refusal :=
  npxNum (.fcomMem dbl mem) (realFmt dbl) mem false (compareNum (realFmt dbl) mem 0) s

/-- FICOM (R496). -/
def execFicom (word : Bool) (mem : MemOp) (s : State) : Host.Outcome State Fault Refusal :=
  npxNum (.ficom word mem) (intFmt word) mem false (compareNum (intFmt word) mem 0) s

/-- FCOM ST(i) (R497). -/
def execFcomSt (i : BitVec 3) (s : State) : Host.Outcome State Fault Refusal :=
  npxReg (.fcomSt i) (compareSt false i 0) s

/-- FCOMP with a real (R498). -/
def execFcompMem (dbl : Bool) (mem : MemOp) (s : State) : Host.Outcome State Fault Refusal :=
  npxNum (.fcompMem dbl mem) (realFmt dbl) mem false (compareNum (realFmt dbl) mem 1) s

/-- FICOMP (R498). -/
def execFicomp (word : Bool) (mem : MemOp) (s : State) : Host.Outcome State Fault Refusal :=
  npxNum (.ficomp word mem) (intFmt word) mem false (compareNum (intFmt word) mem 1) s

/-- FCOMP ST(i) (R499). -/
def execFcompSt (i : BitVec 3) (s : State) : Host.Outcome State Fault Refusal :=
  npxReg (.fcompSt i) (compareSt false i 1) s

/-- FCOMPP (R500). -/
def execFcompp (s : State) : Host.Outcome State Fault Refusal :=
  npxReg .fcompp (compareSt false 1#3 2) s

/-- FUCOM ST(i) (R501). -/
def execFucom (i : BitVec 3) (s : State) : Host.Outcome State Fault Refusal :=
  npxReg (.fucom i) (compareSt true i 0) s

/-- FUCOMP ST(i) (R502). -/
def execFucomp (i : BitVec 3) (s : State) : Host.Outcome State Fault Refusal :=
  npxReg (.fucomp i) (compareSt true i 1) s

/-- FUCOMPP (R503). -/
def execFucompp (s : State) : Host.Outcome State Fault Refusal :=
  npxReg .fucompp (compareSt true 1#3 2) s

/-- FTST (R504). -/
def execFtst (s : State) : Host.Outcome State Fault Refusal :=
  npxReg .ftst testZero s

/-- FXAM (R505). -/
def execFxam (s : State) : Host.Outcome State Fault Refusal :=
  npxReg .fxam examine s

/-- FLDZ (R507). -/
def execFldz (s : State) : Host.Outcome State Fault Refusal :=
  npxReg .fldz (loadExact (tZero false)) s

/-- FLD1 (R508). -/
def execFld1 (s : State) : Host.Outcome State Fault Refusal :=
  npxReg .fld1 (loadExact tOne) s

/-- FLDPI (R509). -/
def execFldpi (s : State) : Host.Outcome State Fault Refusal :=
  npxReg .fldpi (loadConst .pi) s

/-- FLDL2T (R510). -/
def execFldl2t (s : State) : Host.Outcome State Fault Refusal :=
  npxReg .fldl2t (loadConst .l2t) s

/-- FLDL2E (R511). -/
def execFldl2e (s : State) : Host.Outcome State Fault Refusal :=
  npxReg .fldl2e (loadConst .l2e) s

/-- FLDLG2 (R512). -/
def execFldlg2 (s : State) : Host.Outcome State Fault Refusal :=
  npxReg .fldlg2 (loadConst .lg2) s

/-- FLDLN2 (R513). -/
def execFldln2 (s : State) : Host.Outcome State Fault Refusal :=
  npxReg .fldln2 (loadConst .ln2) s

end Sys2Proof.Machine
end

