-- ==== Sys2Proof/Machine/X87Arith.lean ====
section
/-! DEFINITION. The coprocessor's arithmetic instructions (48_x87.md section 7, rule R481). -/

namespace Sys2Proof.Machine

/-- An operation on two operands in the order of the instruction: `rev` exchanges them (R481). -/
def operate (op : ArOp) (rev : Bool) (dst src : Temp) (s : State) : Res :=
  if rev then arith s.n287 s.fpu.cw op src dst else arith s.n287 s.fpu.cw op dst src

/-- The memory forms (R514, R516, R518, R520): the destination is ST(0). The integer forms never raise DE (section 7). A
denormal real operand is normalised on the 80287 too (log entry 75). -/
def arithNum (op : ArOp) (rev : Bool) (f : NumFmt) (o : MemOp) : M Unit := do
  let s ← getS
  let (b, den) ← readNum f o false
  if s.fpu.isEmpty 0#3 then underflowTo false [b] den (putSt 0#3 false)
  else
    let a := s.fpu.st 0#3
    deliverRes (f.isReal && (den || tIsDenormal a)) (operate op rev a b s) onlyC1 (putSt 0#3 false)

/-- A stack underflow of an instruction with two register operands (R476). -/
def underflowPair (i j : BitVec 3) (put : Temp → M Unit) : M Unit := do
  let s ← getS
  let vs := s.operands [i, j]
  underflowTo false vs (vs.any tIsDenormal) put

/-- The register forms (R515, R517, R519, R521): destination ST(0) with source ST(i), or for d = 1 destination ST(i)
with source ST(0). -/
def arithSt (op : ArOp) (rev d : Bool) (i : BitVec 3) (pops : Bool) : M Unit := do
  let s ← getS
  let dst := if d then i else 0#3
  let src := if d then 0#3 else i
  if s.anyEmpty [dst, src] then underflowPair dst src (putSt dst pops)
  else
    let a := s.fpu.st dst
    let b := s.fpu.st src
    deliverRes (tIsDenormal a || tIsDenormal b) (operate op rev a b s) onlyC1 (putSt dst pops)

/-- An operation on ST(0) alone. -/
def unary (f : State → Temp → Res) : M Unit := do
  let s ← getS
  if s.fpu.isEmpty 0#3 then underflowTo false [] false (putSt 0#3 false)
  else
    let a := s.fpu.st 0#3
    deliverRes (tIsDenormal a) (f s a) onlyC1 (putSt 0#3 false)

/-- FSCALE (R523). -/
def scaleOp : M Unit := do
  let s ← getS
  if s.anyEmpty [0#3, 1#3] then underflowPair 0#3 1#3 (putSt 0#3 false)
  else
    let a := s.fpu.st 0#3
    let b := s.fpu.st 1#3
    deliverRes (tIsDenormal a || tIsDenormal b) (scaleRes s.n287 s.fpu.cw a b) onlyC1 (putSt 0#3 false)

/-- The condition codes of FPREM (R524): C0, C3, C1 take the quotient's low bits; an incomplete reduction sets C2. With a
pre-standard operand all are free. -/
def premCodes (q : Option Nat) (pre nan : Bool) (c1 : Code) : Codes :=
  if pre then ⟨.undef, .undef, .undef, .undef⟩ else
  match q with
  | some n => ⟨.val (n.testBit 1), .val false, .val (n.testBit 0), .val (n.testBit 2)⟩
  | none => if nan then onlyC1 c1 else ⟨.undef, .val true, .undef, .undef⟩

/-- FPREM and FPREM1 (R524, R525); the size of an incomplete step: log entry 47. -/
def premOp (ieee : Bool) : M Unit := do
  let s ← getS
  if s.anyEmpty [0#3, 1#3] then underflowPair 0#3 1#3 (putSt 0#3 false)
  else
    let a := s.fpu.st 0#3
    let b := s.fpu.st 1#3
    let r := premRes s.n287 s.fpu.cw ieee (32 + Config.npxPremStep a b % 32) a b
    deliverRes (tIsDenormal a || tIsDenormal b) r.r (premCodes r.quotient (s.preStandard [a, b]) (tIsNan a || tIsNan b)) (putSt 0#3 false)

/-- A result in ST(0) and the same pushed on it. -/
def putTwice (v : Temp) : M Unit := updFpu (fun f => (f.setSt 0#3 v).pushRaw v)

/-- An invalid operation. -/
def Res.isInvalid : Res → Bool
  | .value _ _ _ _ _ => false
  | .invalid _ => true
  | .zeroDivide _ => false
  | .unstated _ _ _ _ => false
  | .preStandard => false

/-- A result of the operand `a` in ST(0) and a second one pushed on it; what an invalid operation or a NaN operand gives
stands in both (log entry 31). The push needs an empty register: its masked response gives the registers alone (R476),
and C2 of FPTAN and FSINCOS is undefined after it (log entry 29). -/
def withPush (a : Temp) (r : Res) (second : Temp) (c : Code → Codes) : M Unit := do
  let s ← getS
  let den := tIsDenormal a
  if s.fpu.full then
    stackFault (s.c1 true) noCodes
    afterInvalid den (putTwice realIndefinite)
  else deliverRes den r c (if r.isInvalid || tIsNan a then putTwice
    else fun v => updFpu (fun f => (f.setSt 0#3 v).pushRaw second))

/-- The exponent and the significand of a finite non-zero value (R527). -/
def extractParts (a : Temp) : Temp × Temp :=
  let len := bitLen (tSig a)
  (ofInt (tLsb a + len - 1), packTemp (tSign a) (tSig a) (1 - (len : Int)))

/-- What FXTRACT puts in ST(1), and in ST(0) (R527). -/
def extractRes (n287 : Bool) (a : Temp) : Res × Temp :=
  match nanCase n287 a a with
  | some r => (r, a)
  | none =>
    if tIsZero a then ((if n287 then .exact a else .zeroDivide (tInf true)), a)
    else if tIsInf a then (.exact (tInf false), a)
    else
      let (e, m) := extractParts a
      (.exact e, m)

/-- The stack underflow of an instruction that replaces ST(0) and pushes: both registers take the masked response. -/
def underflowBoth : M Unit := underflowTo true [] false putTwice

/-- FXTRACT (R527). -/
def extractOp : M Unit := do
  let s ← getS
  if s.fpu.isEmpty 0#3 then underflowBoth
  else
    let a := s.fpu.st 0#3
    let (r, part) := extractRes s.n287 a
    let m ← if s.preStandard [a] then drawTemp else pure part
    withPush a r m onlyC1

/-- FABS and FCHS (R528, R529): the sign bit alone, of a pre-standard value of the 80287 too (log entry 76);
C1 <- 0. -/
def signOp (f : Temp → Temp) : M Unit := do
  let s ← getS
  if s.fpu.isEmpty 0#3 then underflowTo false [] false (putSt 0#3 false)
  else
    setCodes (onlyC1 (.val false))
    putSt 0#3 false (f (s.fpu.st 0#3))

/-- The value with sign bit 0. -/
def tAbs (v : Temp) : Temp := v &&& ~~~(place 80 true 79)

/-- FADD with a real (R514). -/
def execFaddMem (dbl : Bool) (mem : MemOp) (s : State) : Host.Outcome State Fault Refusal :=
  npxNum (.faddMem dbl mem) (realFmt dbl) mem false (arithNum .add false (realFmt dbl) mem) s

/-- FIADD (R514). -/
def execFiadd (word : Bool) (mem : MemOp) (s : State) : Host.Outcome State Fault Refusal :=
  npxNum (.fiadd word mem) (intFmt word) mem false (arithNum .add false (intFmt word) mem) s

/-- FADD of ST(0) and ST(i) (R515, R481). -/
def execFaddSt (d : Bool) (i : BitVec 3) (s : State) : Host.Outcome State Fault Refusal :=
  npxReg (.faddSt d i) (arithSt .add false d i false) s

/-- FADDP (R515, R481). -/
def execFaddp (i : BitVec 3) (s : State) : Host.Outcome State Fault Refusal :=
  npxReg (.faddp i) (arithSt .add false true i true) s

/-- FSUB with a real (R516). -/
def execFsubMem (dbl : Bool) (mem : MemOp) (s : State) : Host.Outcome State Fault Refusal :=
  npxNum (.fsubMem dbl mem) (realFmt dbl) mem false (arithNum .sub false (realFmt dbl) mem) s

/-- FISUB (R516). -/
def execFisub (word : Bool) (mem : MemOp) (s : State) : Host.Outcome State Fault Refusal :=
  npxNum (.fisub word mem) (intFmt word) mem false (arithNum .sub false (intFmt word) mem) s

/-- FSUB of ST(0) and ST(i) (R517, R481). -/
def execFsubSt (d : Bool) (i : BitVec 3) (s : State) : Host.Outcome State Fault Refusal :=
  npxReg (.fsubSt d i) (arithSt .sub false d i false) s

/-- FSUBP (R517, R481). -/
def execFsubp (i : BitVec 3) (s : State) : Host.Outcome State Fault Refusal :=
  npxReg (.fsubp i) (arithSt .sub false true i true) s

/-- FSUBR with a real (R516). -/
def execFsubrMem (dbl : Bool) (mem : MemOp) (s : State) : Host.Outcome State Fault Refusal :=
  npxNum (.fsubrMem dbl mem) (realFmt dbl) mem false (arithNum .sub true (realFmt dbl) mem) s

/-- FISUBR (R516). -/
def execFisubr (word : Bool) (mem : MemOp) (s : State) : Host.Outcome State Fault Refusal :=
  npxNum (.fisubr word mem) (intFmt word) mem false (arithNum .sub true (intFmt word) mem) s

/-- FSUBR of ST(0) and ST(i) (R517, R481). -/
def execFsubrSt (d : Bool) (i : BitVec 3) (s : State) : Host.Outcome State Fault Refusal :=
  npxReg (.fsubrSt d i) (arithSt .sub true d i false) s

/-- FSUBRP (R517, R481). -/
def execFsubrp (i : BitVec 3) (s : State) : Host.Outcome State Fault Refusal :=
  npxReg (.fsubrp i) (arithSt .sub true true i true) s

/-- FMUL with a real (R518). -/
def execFmulMem (dbl : Bool) (mem : MemOp) (s : State) : Host.Outcome State Fault Refusal :=
  npxNum (.fmulMem dbl mem) (realFmt dbl) mem false (arithNum .mul false (realFmt dbl) mem) s

/-- FIMUL (R518). -/
def execFimul (word : Bool) (mem : MemOp) (s : State) : Host.Outcome State Fault Refusal :=
  npxNum (.fimul word mem) (intFmt word) mem false (arithNum .mul false (intFmt word) mem) s

/-- FMUL of ST(0) and ST(i) (R519, R481). -/
def execFmulSt (d : Bool) (i : BitVec 3) (s : State) : Host.Outcome State Fault Refusal :=
  npxReg (.fmulSt d i) (arithSt .mul false d i false) s

/-- FMULP (R519, R481). -/
def execFmulp (i : BitVec 3) (s : State) : Host.Outcome State Fault Refusal :=
  npxReg (.fmulp i) (arithSt .mul false true i true) s

/-- FDIV with a real (R520). -/
def execFdivMem (dbl : Bool) (mem : MemOp) (s : State) : Host.Outcome State Fault Refusal :=
  npxNum (.fdivMem dbl mem) (realFmt dbl) mem false (arithNum .div false (realFmt dbl) mem) s

/-- FIDIV (R520). -/
def execFidiv (word : Bool) (mem : MemOp) (s : State) : Host.Outcome State Fault Refusal :=
  npxNum (.fidiv word mem) (intFmt word) mem false (arithNum .div false (intFmt word) mem) s

/-- FDIV of ST(0) and ST(i) (R521, R481). -/
def execFdivSt (d : Bool) (i : BitVec 3) (s : State) : Host.Outcome State Fault Refusal :=
  npxReg (.fdivSt d i) (arithSt .div false d i false) s

/-- FDIVP (R521, R481). -/
def execFdivp (i : BitVec 3) (s : State) : Host.Outcome State Fault Refusal :=
  npxReg (.fdivp i) (arithSt .div false true i true) s

/-- FDIVR with a real (R520). -/
def execFdivrMem (dbl : Bool) (mem : MemOp) (s : State) : Host.Outcome State Fault Refusal :=
  npxNum (.fdivrMem dbl mem) (realFmt dbl) mem false (arithNum .div true (realFmt dbl) mem) s

/-- FIDIVR (R520). -/
def execFidivr (word : Bool) (mem : MemOp) (s : State) : Host.Outcome State Fault Refusal :=
  npxNum (.fidivr word mem) (intFmt word) mem false (arithNum .div true (intFmt word) mem) s

/-- FDIVR of ST(0) and ST(i) (R521, R481). -/
def execFdivrSt (d : Bool) (i : BitVec 3) (s : State) : Host.Outcome State Fault Refusal :=
  npxReg (.fdivrSt d i) (arithSt .div true d i false) s

/-- FDIVRP (R521, R481). -/
def execFdivrp (i : BitVec 3) (s : State) : Host.Outcome State Fault Refusal :=
  npxReg (.fdivrp i) (arithSt .div true true i true) s

/-- FSQRT (R522). -/
def execFsqrt (s : State) : Host.Outcome State Fault Refusal :=
  npxReg .fsqrt (unary (fun t a => sqrtRes t.n287 t.fpu.cw a)) s

/-- FSCALE (R523). -/
def execFscale (s : State) : Host.Outcome State Fault Refusal :=
  npxReg .fscale scaleOp s

/-- FPREM (R524). -/
def execFprem (s : State) : Host.Outcome State Fault Refusal :=
  npxReg .fprem (premOp false) s

/-- FPREM1 (R525). -/
def execFprem1 (s : State) : Host.Outcome State Fault Refusal :=
  npxReg .fprem1 (premOp true) s

/-- FRNDINT (R526). -/
def execFrndint (s : State) : Host.Outcome State Fault Refusal :=
  npxReg .frndint (unary (fun t a => rndintRes t.n287 t.fpu.cw a)) s

/-- FXTRACT (R527). -/
def execFxtract (s : State) : Host.Outcome State Fault Refusal :=
  npxReg .fxtract extractOp s

/-- FABS (R528). -/
def execFabs (s : State) : Host.Outcome State Fault Refusal :=
  npxReg .fabs (signOp tAbs) s

/-- FCHS (R529). -/
def execFchs (s : State) : Host.Outcome State Fault Refusal :=
  npxReg .fchs (signOp tNeg) s

end Sys2Proof.Machine
end

