-- ==== Sys2Proof/Machine/X87Control.lean ====
section
/-! DEFINITION. The coprocessor's control instructions and the images they store and load (48_x87.md sections 9
and 10), and ESC itself (R424, R552). -/

namespace Sys2Proof.Machine

/-- A control instruction without memory operand: no pending-error check, no pointer update (R482). -/
def npxCtl (m : M Unit) (s : State) : Host.Outcome State Fault Refusal :=
  complete (whenFitted (pure ()) m) s

/-- A control instruction with a memory operand of `n` bytes; `waits` for FLDCW, FLDENV and FRSTOR (R482). -/
def npxCtlMem (waits : Bool) (o : MemOp) (n al : Nat) (write : Bool) (m : M Unit) (s : State) :
    Host.Outcome State Fault Refusal :=
  complete (whenFitted (noNpxData o n al write) (do
    npxProbe o n al write
    (if waits then npxPending else pure ())
    m)) s

/-- A register instruction that is no control instruction of R482: it waits and records its address. -/
def npxStack (i : Instr) (m : M Unit) (s : State) : Host.Outcome State Fault Refusal :=
  complete (whenFitted (pure ()) (do
    npxRecord i none
    npxPending
    m)) s

/-- FINIT (R539): the pointers become 0 but on the 80287; the error signal and IRQ 13 are dropped, the latch stays. -/
def initNpx : M Unit := updS (fun s =>
  let f := s.fpu
  let zero : FarPtr := ⟨0#16, 0#32⟩
  (s.setFpu { f with
    cw := 0x037F#16, status := FpuStatus.ofWord 0#16, tags := Oct.all .empty
    fip := if s.n287 then f.fip else zero
    fdp := if s.n287 then f.fdp else zero
    fop := if s.n287 then f.fop else 0#11 }).setLink { s.link with irq13 := false })

/-- The control word as it is stored (R542): bit 6 is 1, bits 15:13 and 7 are 0. -/
def Fpu.cwImage (f : Fpu) : BitVec 16 := (f.cw &&& 0x1F3F#16) ||| 0x40#16

/-- The status word as it is stored (R41): bit 15 is a copy of ES, on the 80287 too (log entry 42). -/
def State.swImage (s : State) : BitVec 16 := s.fpu.status.word s.fpu.status.es

/-- The tag word (R43). -/
def Fpu.tagWord (f : Fpu) : BitVec 16 :=
  f.tags.r7.code ++ f.tags.r6.code ++ f.tags.r5.code ++ f.tags.r4.code ++
  f.tags.r3.code ++ f.tags.r2.code ++ f.tags.r1.code ++ f.tags.r0.code

/-- The linear address of a pointer in the real-mode images (R560). -/
def FarPtr.lin (p : FarPtr) : BitVec 32 := (p.sel.setWidth 32 <<< 4) + p.off

/-- The images of real-address and virtual-8086 mode are used; on the 80287 its own mode bit decides (R560). -/
def State.realImage (s : State) : Bool := if s.n287 then !s.fpu.pm287 else !s.protMode

/-- The size and alignment of the environment image (R545, R110). -/
def State.envBytes (s : State) : Nat := if s.os = .s32 then 28 else 14
def State.envAlign (s : State) : Nat := if s.os = .s32 then 4 else 2

/-- The seven words of a 16-bit image (R560). -/
def State.env16 (s : State) : List (BitVec 16) :=
  let f := s.fpu
  let head := [f.cwImage, s.swImage, f.tagWord]
  if s.realImage then
    head ++ [f.fip.lin.extractLsb' 0 16, f.fip.lin.extractLsb' 16 4 ++ 0#1 ++ f.fop,
      f.fdp.lin.extractLsb' 0 16, f.fdp.lin.extractLsb' 16 4 ++ 0#12]
  else head ++ [f.fip.off.extractLsb' 0 16, f.fip.sel, f.fdp.off.extractLsb' 0 16, f.fdp.sel]

/-- A 16-bit value under an undefined upper half (R560, U18). -/
def underDraw (v : BitVec 16) : M (BitVec 32) := do
  let u ← drawWord
  pure (u ++ v)

/-- Four undefined bits. -/
def drawNibble : M (BitVec 4) := do
  let u ← drawByte
  pure (u.extractLsb' 0 4)

/-- The seven doublewords of a 32-bit image (R560). The unused bits 31:28 and 11 of the opcode doubleword are undefined
(U18, log entry 66). -/
def env32 : M (List (BitVec 32)) := do
  let s ← getS
  let f := s.fpu
  let c ← underDraw f.cwImage
  let t ← underDraw s.swImage
  let g ← underDraw f.tagWord
  if s.realImage then do
    let ip ← underDraw (f.fip.lin.extractLsb' 0 16)
    let hi ← drawNibble
    let b11 ← drawBit
    let dp ← underDraw (f.fdp.lin.extractLsb' 0 16)
    pure [c, t, g, ip, hi ++ f.fip.lin.extractLsb' 16 16 ++ BitVec.ofBool b11 ++ f.fop,
      dp, 0#4 ++ f.fdp.lin.extractLsb' 16 16 ++ 0#12]
  else do
    let hi ← drawNibble
    let ds ← underDraw f.fdp.sel
    pure [c, t, g, f.fip.off, hi ++ 0#1 ++ f.fop ++ f.fip.sel, f.fdp.off, ds]

/-- The bytes of the environment image (R560). -/
def envImage : M (List Byte) := do
  let s ← getS
  if s.os = .s32 then do
    let ws ← env32
    pure (ws.flatMap (fun w => leBytes 4 w.toNat))
  else pure (s.env16.flatMap (fun w => leBytes 2 w.toNat))

/-- Field `k` of `n` bytes of an image. -/
def field (bs : List Byte) (n k : Nat) : Nat := leNat ((bs.drop (n * k)).take n)

/-- The pointers of an image (R560): a real-mode image gives the linear address; the 16-bit protected image has no
opcode field, and FOP is the free value `u` after it (log entry 78). -/
def State.loadPointers (s : State) (u : BitVec 11) (bs : List Byte) : Fpu :=
  let f := s.fpu
  if s.os = .s32 then
    let w (k : Nat) : BitVec 32 := BitVec.ofNat 32 (field bs 4 k)
    if s.realImage then
      { f with
        fip := ⟨0#16, (w 4).extractLsb' 12 16 ++ (w 3).extractLsb' 0 16⟩
        fop := (w 4).extractLsb' 0 11
        fdp := ⟨0#16, (w 6).extractLsb' 12 16 ++ (w 5).extractLsb' 0 16⟩ }
    else
      { f with
        fip := ⟨(w 4).extractLsb' 0 16, w 3⟩
        fop := (w 4).extractLsb' 16 11
        fdp := ⟨(w 6).extractLsb' 0 16, w 5⟩ }
  else
    let w (k : Nat) : BitVec 16 := BitVec.ofNat 16 (field bs 2 k)
    if s.realImage then
      { f with
        fip := ⟨0#16, 0#12 ++ (w 4).extractLsb' 12 4 ++ w 3⟩
        fop := (w 4).extractLsb' 0 11
        fdp := ⟨0#16, 0#12 ++ (w 6).extractLsb' 12 4 ++ w 5⟩ }
    else { f with fip := ⟨w 4, (w 3).setWidth 32⟩, fop := u, fdp := ⟨w 6, (w 5).setWidth 32⟩ }

/-- A tag after a load (R473): from the register but for empty; on the 80287 the loaded tag. -/
def loadedTag (n287 : Bool) (tw : BitVec 16) (j : Nat) (v : Temp) : Tag :=
  let t := Tag.ofCode (tw.extractLsb' (2 * j) 2)
  if n287 || t == .empty then t else tTag v

/-- The tags after a load (R473). -/
def loadedTags (n287 : Bool) (tw : BitVec 16) (r : Oct Temp) : Oct Tag :=
  { r0 := loadedTag n287 tw 0 r.r0, r1 := loadedTag n287 tw 1 r.r1, r2 := loadedTag n287 tw 2 r.r2
    r3 := loadedTag n287 tw 3 r.r3, r4 := loadedTag n287 tw 4 r.r4, r5 := loadedTag n287 tw 5 r.r5
    r6 := loadedTag n287 tw 6 r.r6, r7 := loadedTag n287 tw 7 r.r7 }

/-- The eight registers of FRSTOR, ST(0) first, relative to TOP (R548, R561). -/
def loadRegs (top : BitVec 3) : (k : Nat) → List Byte → Oct Temp → Oct Temp
  | 0, _, r => r
  | k + 1, bs, r =>
    loadRegs top k (bs.drop 10) (r.set (top + BitVec.ofNat 3 (7 - k)) (leVal 80 (bs.take 10)))

/-- The coprocessor after FLDENV or FRSTOR of an image (R546, R548); `more` are FRSTOR's registers. ES keeps its old
value until the error signal is settled. The 80287 has no SF (R474 (c)). `u`: FOP where the image has none. -/
def State.loadImage (s : State) (u : BitVec 11) (env : List Byte) (more : Option (List Byte)) : Fpu :=
  let n := if s.os = .s32 then 4 else 2
  let sw : BitVec 16 := BitVec.ofNat 16 (field env n 1)
  let tw : BitVec 16 := BitVec.ofNat 16 (field env n 2)
  let t := FpuStatus.ofWord sw
  let regs := match more with
    | some bs => loadRegs t.top 8 bs s.fpu.regs
    | none => s.fpu.regs
  { s.loadPointers u env with
    cw := BitVec.ofNat 16 (field env n 0)
    status := { t with es := s.fpu.status.es, sf := t.sf && !s.n287 }
    regs := regs
    tags := loadedTags s.n287 tw regs }

/-- FSTENV (R545): the image, then all six masks set. -/
def storeEnv (o : MemOp) : M Unit := do
  let s ← getS
  let bs ← envImage
  writeMemBytes o bs s.envAlign
  updFpu (fun f => { f with cw := f.cw ||| 0x3F#16 })
  setCodes noCodes
  resettle

/-- FOP where the image that is loaded has no opcode field: free, for R560 does not state it (log entry 78). -/
def drawFop : M (BitVec 11) := do
  let u ← drawWord
  pure (u.extractLsb' 0 11)

/-- FLDENV (R546). -/
def loadEnv (o : MemOp) : M Unit := do
  let s ← getS
  let bs ← readMemBytes o s.envBytes s.envAlign
  let u ← drawFop
  updS (fun t => t.setFpu (t.loadImage u bs none))
  resettle

/-- The eight registers in stack order (R547, R561). -/
def Fpu.stackBytes (f : Fpu) : List Byte :=
  [0#3, 1#3, 2#3, 3#3, 4#3, 5#3, 6#3, 7#3].flatMap (fun i => leBytes 10 (f.st i).toNat)

/-- FSAVE (R547): the image, the registers, then FINIT. -/
def saveState (o : MemOp) : M Unit := do
  let s ← getS
  let bs ← envImage
  writeMemBytes o (bs ++ s.fpu.stackBytes) s.envAlign
  initNpx

/-- FRSTOR (R548). -/
def restoreState (o : MemOp) : M Unit := do
  let s ← getS
  let bs ← readMemBytes o (s.envBytes + 80) s.envAlign
  let u ← drawFop
  updS (fun t => t.setFpu (t.loadImage u (bs.take s.envBytes) (some (bs.drop s.envBytes))))
  resettle

/-- FLDCW (R541). -/
def loadCw (o : MemOp) : M Unit := do
  let bs ← readMemBytes o 2 2
  updFpu (fun f => { f with cw := leVal 16 bs })
  setCodes noCodes
  resettle

/-- Store a control or status word (R542, R543). -/
def storeWord (o : MemOp) (v : BitVec 16) : M Unit := do
  writeMemBytes o (leBytes 2 v.toNat) 2
  setCodes noCodes

/-- FSTSW AX (R540). -/
def storeSwAx : M Unit := do
  let s ← getS
  setReg .w16 rAX s.swImage
  setCodes noCodes

/-- FSTSW AX without a coprocessor: AX is undefined (U13, log entry 56). -/
def drawAx : M Unit := do
  let v ← drawWord
  setReg .w16 rAX v

/-- FCLEX (R544): the exception bits, SF, ES and B; the codes are undefined (U17). A request of IRQ 13 that was made
stands (log entry 13). -/
def clearExceptions : M Unit := do
  updStatus (fun t => { t with
    ie := false, de := false, ze := false, oe := false, ue := false, pe := false, sf := false, es := false })
  setCodes noCodes

/-- FSETPM (R538): the 80287 enters its protected mode; the 80387 ignores the encoding (R538, R552, log entry 55) and
neither reports a pending error nor records a pointer for it (log entry 77); on the 80486 it is unassigned (R552). -/
def setPm : M Unit := do
  let s ← getS
  if s.n287 then updFpu (fun f => { f with pm287 := true })
  else if s.cfg.npx = .integrated then raiseUD
  else pure ()

/-- FSETPM (R538). -/
def execFsetpm (s : State) : Host.Outcome State Fault Refusal :=
  npxCtl setPm s

/-- FINIT (R539). -/
def execFinit (s : State) : Host.Outcome State Fault Refusal :=
  npxCtl initNpx s

/-- FSTSW AX (R540): like FSTSW it records no pointer (R482, log entry 69). -/
def execFstswAx (s : State) : Host.Outcome State Fault Refusal :=
  complete (whenFitted drawAx storeSwAx) s

/-- FLDCW (R541). -/
def execFldcw (mem : MemOp) (s : State) : Host.Outcome State Fault Refusal :=
  npxCtlMem true mem 2 2 false (loadCw mem) s

/-- FSTCW (R542). -/
def execFstcw (mem : MemOp) (s : State) : Host.Outcome State Fault Refusal :=
  npxCtlMem false mem 2 2 true (storeWord mem s.fpu.cwImage) s

/-- FSTSW (R543). -/
def execFstsw (mem : MemOp) (s : State) : Host.Outcome State Fault Refusal :=
  npxCtlMem false mem 2 2 true (storeWord mem s.swImage) s

/-- FCLEX (R544). -/
def execFclex (s : State) : Host.Outcome State Fault Refusal :=
  npxCtl clearExceptions s

/-- FSTENV (R545). -/
def execFstenv (mem : MemOp) (s : State) : Host.Outcome State Fault Refusal :=
  npxCtlMem false mem s.envBytes s.envAlign true (storeEnv mem) s

/-- FLDENV (R546). -/
def execFldenv (mem : MemOp) (s : State) : Host.Outcome State Fault Refusal :=
  npxCtlMem true mem s.envBytes s.envAlign false (loadEnv mem) s

/-- FSAVE (R547). -/
def execFsave (mem : MemOp) (s : State) : Host.Outcome State Fault Refusal :=
  npxCtlMem false mem (s.envBytes + 80) s.envAlign true (saveState mem) s

/-- FRSTOR (R548). -/
def execFrstor (mem : MemOp) (s : State) : Host.Outcome State Fault Refusal :=
  npxCtlMem true mem (s.envBytes + 80) s.envAlign false (restoreState mem) s

/-- FINCSTP (R549): C1 <- 0. -/
def execFincstp (s : State) : Host.Outcome State Fault Refusal :=
  npxStack .fincstp (do
    updFpu (fun f => f.moveTop 1#3)
    setCodes (onlyC1 (.val false))) s

/-- FDECSTP (R550): C1 <- 0 and nothing else. -/
def execFdecstp (s : State) : Host.Outcome State Fault Refusal :=
  npxStack .fdecstp (do
    updFpu (fun f => f.moveTop 7#3)
    setCodes (keepCodes (.val false))) s

/-- FFREE (R551): the tag alone. -/
def execFfree (i : BitVec 3) (s : State) : Host.Outcome State Fault Refusal :=
  npxStack (.ffree i) (do
    updFpu (fun f => { f with tags := f.tags.set (f.phys i) .empty })
    setCodes noCodes) s

/-- FNOP (R553): the pending-error check and the pointer update. -/
def execFnop (s : State) : Host.Outcome State Fault Refusal :=
  npxStack .fnop (pure ()) s

/-- DB E0 and DB E1, which the coprocessors ignore, and DB E4, which the 80387 ignores (R552). -/
def escIgnored (ttt lll : BitVec 3) (rm : RM) : Bool :=
  ttt == 3#3 && lll == 4#3 && (rm == .reg 0#3 || rm == .reg 1#3 || rm == .reg 4#3)

/-- ESC with an encoding that no row assigns (R552, R424): #UD on the 80486 (log entry 36); an external coprocessor
ignores DB E0, DB E1 and DB E4 (log entry 55), with neither the check of a pending error nor the record of the pointers
that R424 gives every ESC (log entry 77), and the others are refused (D21). -/
def execEsc (ttt : BitVec 3) (lll : BitVec 3) (rm : RM) (s : State) : Host.Outcome State Fault Refusal :=
  complete (if s.cfg.npx = .integrated then raiseUD
    else whenFitted (pure ()) (if escIgnored ttt lll rm then pure () else refuse .unassignedEscape)) s

end Sys2Proof.Machine
end

