-- ==== Sys2Proof/Machine/X87Trans.lean ====
section
/-! DEFINITION. The transcendental instructions (48_x87.md section 8): the results are the uninterpreted `NPX_FUN`
(R478) but for the exact cases the rules state. Outside the domain a rule gives, the result is undefined (U15): there
too it is a value of a function without a body, and the instruction completes (log entry 52). -/

namespace Sys2Proof.Machine

/-- The functions that may overflow: FYL2X alone lists OE (R530 to R537). -/
def mayOverflow : Config.NpxFun → Bool
  | .yl2x => true
  | .f2xm1 => false
  | .yl2xp1 => false
  | .tan => false
  | .atan2 => false
  | .sin => false
  | .cos => false

/-- The functions that may underflow: all but the cosine (R533). -/
def mayUnderflow : Config.NpxFun → Bool
  | .cos => false
  | .yl2x => true
  | .f2xm1 => true
  | .yl2xp1 => true
  | .tan => true
  | .atan2 => true
  | .sin => true

/-- A result of `NPX_FUN` (R478, log entry 32) with the exceptions its rule lists. -/
def npxCall (k : Config.NpxFun) (a b : Temp) (cw : BitVec 16) : Res :=
  let r := Config.npxFun k a b cw
  .value r.value (mayOverflow k && r.oe) (mayUnderflow k && r.ue) r.pe r.up

/-- C2 = 0 beside the result of an operand below 2^63 (R530, R532); beside the quiet NaN of an operand that is one no rule
states C2, and it is undefined (R479, log entry 29). -/
def reduced (a : Temp) (c1 : Code) : Codes := ⟨.undef, if tIsNan a then .undef else .val false, c1, .undef⟩

/-- The operand of FPTAN or FSINCOS is not below 2^63: C2 = 1 and nothing else changes (R530, R534). -/
def outOfReach : M Unit := setCodes ⟨.keep, .val true, .keep, .keep⟩

/-- The operand of FSIN or FCOS is not below 2^63: C2 = 1 and ST(0) is unchanged; the other codes are not stated (R532,
R533, R479). -/
def outOfReach1 : M Unit := setCodes ⟨.undef, .val true, .undef, .undef⟩

/-- The result of a function of one operand that has an exact value at zero; infinity is invalid (R530, R532). -/
def trigRes (n287 : Bool) (cw : BitVec 16) (k : Config.NpxFun) (atZero : Temp) (a : Temp) : Res :=
  match nanCase n287 a a with
  | some r => r
  | none =>
    if tIsInf a then .invalid realIndefinite
    else if tIsZero a then .exact atZero
    else npxCall k a (tZero false) cw

/-- The operand is a finite number of at least 2^63. -/
def tooLarge (a : Temp) : Bool := !tIsNan a && !tIsInf a && !tUnsupported a && !trigInRange a

/-- FSIN, FCOS (R532, R533). -/
def trigOp (k : Config.NpxFun) (atZero : Temp → Temp) : M Unit := do
  let s ← getS
  if s.fpu.isEmpty 0#3 then underflowTo false [] false (putSt 0#3 false)
  else
    let a := s.fpu.st 0#3
    if tooLarge a then outOfReach1
    else deliverRes (tIsDenormal a) (trigRes s.n287 s.fpu.cw k (atZero a) a) (reduced a) (putSt 0#3 false)

/-- FPTAN on the 80287 (R530): the result is a ratio Y/X. -/
def tan287 (s : State) (a : Temp) : M Unit :=
  let yx := Config.npx287Tan a s.fpu.cw
  let r := Config.npxFun .tan a (tZero false) s.fpu.cw
  let y : Res :=
    match nanCase true a a with
    | some e => e
    | none =>
      if tIsInf a then .invalid realIndefinite
      else if tIsZero a then .exact a
      else .value yx.1 false r.ue r.pe r.up
  withPush a y yx.2 onlyC1

/-- FPTAN (R530). -/
def tanOp : M Unit := do
  let s ← getS
  if s.fpu.isEmpty 0#3 then underflowBoth
  else
    let a := s.fpu.st 0#3
    if s.n287 then tan287 s a
    else if tooLarge a then outOfReach
    else withPush a (trigRes false s.fpu.cw .tan a a) tOne (reduced a)

/-- The exceptions of two results together. -/
def Res.join : Res → Res → Res
  | .value v oe ue pe up, .value _ oe' ue' pe' _ => .value v (oe || oe') (ue || ue') (pe || pe') up
  | r, _ => r

/-- The value of a result, if it has one. -/
def Res.temp : Res → Temp
  | .value v _ _ _ _ => v
  | .invalid v => v
  | .zeroDivide v => v
  | .unstated _ _ _ _ => realIndefinite
  | .preStandard => realIndefinite

/-- FSINCOS (R534): ST(1) the sine, ST(0) the cosine. C1 follows two results and is left undefined. -/
def sincosOp : M Unit := do
  let s ← getS
  if s.fpu.isEmpty 0#3 then underflowBoth
  else
    let a := s.fpu.st 0#3
    if tooLarge a then outOfReach
    else
      let sine := trigRes s.n287 s.fpu.cw .sin a a
      let cosine := trigRes s.n287 s.fpu.cw .cos tOne a
      withPush a (sine.join cosine) cosine.temp (fun _ => reduced a .undef)

/-- A function of ST(1) and ST(0) that replaces ST(1) and pops. -/
def binaryOp (f : State → Temp → Temp → Res) : M Unit := do
  let s ← getS
  if s.anyEmpty [0#3, 1#3] then underflowPair 1#3 0#3 (putSt 1#3 true)
  else
    let x := s.fpu.st 0#3
    let y := s.fpu.st 1#3
    deliverRes (tIsDenormal x || tIsDenormal y) (f s x y) onlyC1 (putSt 1#3 true)

/-- 0 <= ST(1) < ST(0) < infinity on the 80287 (R531). -/
def atanDomain (s : State) (x y : Temp) : Bool :=
  !s.n287 || ((!tSign y || tIsZero y) && !tIsInf x && !tIsInf y && cmpValues y x == .less)

/-- A value with the sign of `y` and a magnitude up to `top`: `v` within that range is itself, another stands for the
bound. -/
def within (top : BitVec 79) (y v : Temp) : Temp :=
  let m : BitVec 79 := v.extractLsb' 0 79
  let number : Bool := tClass v == .zero || tClass v == .normal || (tClass v == .denormal && !bitOf v 63)
  BitVec.ofBool (tSign y) ++ (if number && decide (m.toNat ≤ top.toNat) then m else top)

/-- The greatest magnitude of an angle (R531), π; of one that an unmasked underflow delivers with its exponent raised by
24576 (R477), that of the least normal number so raised (log entry 32). -/
def angleTop (raised : Bool) : BitVec 79 :=
  if raised then 24577#15 ++ 0x8000000000000000#64 else NpxConst.pi.nearest.extractLsb' 0 79

/-- A result that is an angle, with the sign of ST(1) (R531), under a control word. -/
def Res.asAngle (cw : BitVec 16) (y : Temp) : Res → Res
  | .value v oe ue pe up => .value (within (angleTop (ue && !cwMask cw 4)) y v) oe ue pe up
  | r => r

/-- FPATAN (R531): inside the domain the angle of a point on the positive x axis is a zero with the sign of ST(1), and
any other lies in the range of R531. -/
def atanRes (s : State) (x y : Temp) : Res :=
  match nanCase s.n287 y x with
  | some r => r
  | none =>
    let r := npxCall .atan2 y x s.fpu.cw
    if !atanDomain s x y then r
    else if tIsZero y && !tIsZero x && !tSign x then .exact y
    else r.asAngle s.fpu.cw y

/-- FYL2X (R536); zero times an infinite logarithm, and infinity times a zero one, are invalid (R476). -/
def yl2xRes (s : State) (x y : Temp) : Res :=
  match nanCase s.n287 y x with
  | some r => r
  | none =>
    if tSign x && !tIsZero x then .invalid realIndefinite
    else if tIsZero x then
      if tIsZero y then .invalid realIndefinite
      else if tIsInf y then npxCall .yl2x y x s.fpu.cw
      else .zeroDivide (tInf (!tSign y))
    else if x = tOne then (if tIsInf y then .invalid realIndefinite else .exact (tZero (tSign y)))
    else if tIsInf x && tIsZero y then .invalid realIndefinite
    else
      match log2Exact x with
      | some k => if y = tOne then .exact (ofInt k) else npxCall .yl2x y x s.fpu.cw
      | none => npxCall .yl2x y x s.fpu.cw

/-- FYL2XP1 (R537), whose domain is |ST(0)| < 1 - sqrt(2)/2, on the 80287 not negative: at a zero ST(0) a zero, its sign the exclusive-or; infinity times zero is invalid (R476). -/
def yl2xp1Res (s : State) (x y : Temp) : Res :=
  match nanCase s.n287 y x with
  | some r => r
  | none =>
    if tIsZero x then
      (if tIsInf y then .invalid realIndefinite else .exact (tZero (tSign x ^^ tSign y)))
    else npxCall .yl2xp1 y x s.fpu.cw

/-- -1 to +1; on the 80287 0 to 0.5 (R535). -/
def exp2Domain (s : State) (a : Temp) : Bool :=
  !tIsInf a && (if s.n287 then atMostHalf a else atMostOne a)

/-- F2XM1 (R535): the exact values hold inside the domain. -/
def exp2Res (s : State) (a : Temp) : Res :=
  match nanCase s.n287 a a with
  | some r => r
  | none =>
    if tIsZero a then .exact a
    else if !exp2Domain s a then npxCall .f2xm1 a (tZero false) s.fpu.cw
    else if a = tOne then .exact tOne
    else if a = tNeg tOne then .exact (packTemp true 1 (-1))
    else npxCall .f2xm1 a (tZero false) s.fpu.cw

/-- F2XM1 (R535). -/
def exp2Op : M Unit := do
  let s ← getS
  if s.fpu.isEmpty 0#3 then underflowTo false [] false (putSt 0#3 false)
  else
    let a := s.fpu.st 0#3
    deliverRes (tIsDenormal a) (exp2Res s a) onlyC1 (putSt 0#3 false)

/-- FPTAN (R530). -/
def execFptan (s : State) : Host.Outcome State Fault Refusal :=
  npxReg .fptan tanOp s

/-- FPATAN (R531). -/
def execFpatan (s : State) : Host.Outcome State Fault Refusal :=
  npxReg .fpatan (binaryOp atanRes) s

/-- FSIN (R532): sin(+-0) = +-0. -/
def execFsin (s : State) : Host.Outcome State Fault Refusal :=
  npxReg .fsin (trigOp .sin (fun a => a)) s

/-- FCOS (R533): cos(+-0) = 1. -/
def execFcos (s : State) : Host.Outcome State Fault Refusal :=
  npxReg .fcos (trigOp .cos (fun _ => tOne)) s

/-- FSINCOS (R534). -/
def execFsincos (s : State) : Host.Outcome State Fault Refusal :=
  npxReg .fsincos sincosOp s

/-- F2XM1 (R535). -/
def execF2xm1 (s : State) : Host.Outcome State Fault Refusal :=
  npxReg .f2xm1 exp2Op s

/-- FYL2X (R536). -/
def execFyl2x (s : State) : Host.Outcome State Fault Refusal :=
  npxReg .fyl2x (binaryOp yl2xRes) s

/-- FYL2XP1 (R537). -/
def execFyl2xp1 (s : State) : Host.Outcome State Fault Refusal :=
  npxReg .fyl2xp1 (binaryOp yl2xp1Res) s

end Sys2Proof.Machine
end

