-- ==== Sys2Proof/Machine/Dispatch.lean ====
section
/-! DEFINITION. The meaning of every instruction: one direct call an arm. -/

namespace Sys2Proof.Machine

def exec (i : Instr) (s : State) : Host.Outcome State Fault Refusal :=
  match i with
  | .movRmReg w reg rm => Sys2Proof.Machine.execMovRmReg w reg rm s
  | .movRegRm w reg rm => Sys2Proof.Machine.execMovRegRm w reg rm s
  | .movRmImm w rm imm => Sys2Proof.Machine.execMovRmImm w rm imm s
  | .movRegImm w reg imm => Sys2Proof.Machine.execMovRegImm w reg imm s
  | .movAccMem w addr => Sys2Proof.Machine.execMovAccMem w addr s
  | .movMemAcc w addr => Sys2Proof.Machine.execMovMemAcc w addr s
  | .movSregRm sreg rm => Sys2Proof.Machine.execMovSregRm sreg rm s
  | .movRmSreg sreg rm => Sys2Proof.Machine.execMovRmSreg sreg rm s
  | .movsx w reg rm => Sys2Proof.Machine.execMovsx w reg rm s
  | .movzx w reg rm => Sys2Proof.Machine.execMovzx w reg rm s
  | .pushRm rm => Sys2Proof.Machine.execPushRm rm s
  | .pushReg reg => Sys2Proof.Machine.execPushReg reg s
  | .pushSreg sreg => Sys2Proof.Machine.execPushSreg sreg s
  | .pushImm sx imm => Sys2Proof.Machine.execPushImm sx imm s
  | .popRm rm => Sys2Proof.Machine.execPopRm rm s
  | .popReg reg => Sys2Proof.Machine.execPopReg reg s
  | .xchgRmReg w reg rm => Sys2Proof.Machine.execXchgRmReg w reg rm s
  | .xchgAcc reg => Sys2Proof.Machine.execXchgAcc reg s
  | .inPort w port => Sys2Proof.Machine.execInPort w port s
  | .inDx w => Sys2Proof.Machine.execInDx w s
  | .outPort w port => Sys2Proof.Machine.execOutPort w port s
  | .outDx w => Sys2Proof.Machine.execOutDx w s
  | .lea reg mem => Sys2Proof.Machine.execLea reg mem s
  | .lds reg mem => Sys2Proof.Machine.execLds reg mem s
  | .les reg mem => Sys2Proof.Machine.execLes reg mem s
  | .lfs reg mem => Sys2Proof.Machine.execLfs reg mem s
  | .lgs reg mem => Sys2Proof.Machine.execLgs reg mem s
  | .lss reg mem => Sys2Proof.Machine.execLss reg mem s
  | .addRmReg d w reg rm => Sys2Proof.Machine.execAddRmReg d w reg rm s
  | .addRmImm sx w rm imm => Sys2Proof.Machine.execAddRmImm sx w rm imm s
  | .addAccImm w imm => Sys2Proof.Machine.execAddAccImm w imm s
  | .orRmReg d w reg rm => Sys2Proof.Machine.execOrRmReg d w reg rm s
  | .orRmImm sx w rm imm => Sys2Proof.Machine.execOrRmImm sx w rm imm s
  | .orAccImm w imm => Sys2Proof.Machine.execOrAccImm w imm s
  | .adcRmReg d w reg rm => Sys2Proof.Machine.execAdcRmReg d w reg rm s
  | .adcRmImm sx w rm imm => Sys2Proof.Machine.execAdcRmImm sx w rm imm s
  | .adcAccImm w imm => Sys2Proof.Machine.execAdcAccImm w imm s
  | .sbbRmReg d w reg rm => Sys2Proof.Machine.execSbbRmReg d w reg rm s
  | .sbbRmImm sx w rm imm => Sys2Proof.Machine.execSbbRmImm sx w rm imm s
  | .sbbAccImm w imm => Sys2Proof.Machine.execSbbAccImm w imm s
  | .andRmReg d w reg rm => Sys2Proof.Machine.execAndRmReg d w reg rm s
  | .andRmImm sx w rm imm => Sys2Proof.Machine.execAndRmImm sx w rm imm s
  | .andAccImm w imm => Sys2Proof.Machine.execAndAccImm w imm s
  | .subRmReg d w reg rm => Sys2Proof.Machine.execSubRmReg d w reg rm s
  | .subRmImm sx w rm imm => Sys2Proof.Machine.execSubRmImm sx w rm imm s
  | .subAccImm w imm => Sys2Proof.Machine.execSubAccImm w imm s
  | .xorRmReg d w reg rm => Sys2Proof.Machine.execXorRmReg d w reg rm s
  | .xorRmImm sx w rm imm => Sys2Proof.Machine.execXorRmImm sx w rm imm s
  | .xorAccImm w imm => Sys2Proof.Machine.execXorAccImm w imm s
  | .cmpRmReg d w reg rm => Sys2Proof.Machine.execCmpRmReg d w reg rm s
  | .cmpRmImm sx w rm imm => Sys2Proof.Machine.execCmpRmImm sx w rm imm s
  | .cmpAccImm w imm => Sys2Proof.Machine.execCmpAccImm w imm s
  | .incRm w rm => Sys2Proof.Machine.execIncRm w rm s
  | .incReg reg => Sys2Proof.Machine.execIncReg reg s
  | .decRm w rm => Sys2Proof.Machine.execDecRm w rm s
  | .decReg reg => Sys2Proof.Machine.execDecReg reg s
  | .neg w rm => Sys2Proof.Machine.execNeg w rm s
  | .mul w rm => Sys2Proof.Machine.execMul w rm s
  | .imulAcc w rm => Sys2Proof.Machine.execImulAcc w rm s
  | .imulRegRm reg rm => Sys2Proof.Machine.execImulRegRm reg rm s
  | .imulRegRmImm sx reg rm imm => Sys2Proof.Machine.execImulRegRmImm sx reg rm imm s
  | .div w rm => Sys2Proof.Machine.execDiv w rm s
  | .idiv w rm => Sys2Proof.Machine.execIdiv w rm s
  | .rol w rm count => Sys2Proof.Machine.execRol w rm count s
  | .ror w rm count => Sys2Proof.Machine.execRor w rm count s
  | .rcl w rm count => Sys2Proof.Machine.execRcl w rm count s
  | .rcr w rm count => Sys2Proof.Machine.execRcr w rm count s
  | .shl w rm count => Sys2Proof.Machine.execShl w rm count s
  | .shr w rm count => Sys2Proof.Machine.execShr w rm count s
  | .sar w rm count => Sys2Proof.Machine.execSar w rm count s
  | .shldImm reg rm count => Sys2Proof.Machine.execShldImm reg rm count s
  | .shldCl reg rm => Sys2Proof.Machine.execShldCl reg rm s
  | .shrdImm reg rm count => Sys2Proof.Machine.execShrdImm reg rm count s
  | .shrdCl reg rm => Sys2Proof.Machine.execShrdCl reg rm s
  | .testRmReg w reg rm => Sys2Proof.Machine.execTestRmReg w reg rm s
  | .testRmImm w rm imm => Sys2Proof.Machine.execTestRmImm w rm imm s
  | .testAccImm w imm => Sys2Proof.Machine.execTestAccImm w imm s
  | .notRm w rm => Sys2Proof.Machine.execNotRm w rm s
  | .cmps w => Sys2Proof.Machine.execCmps w s
  | .ins w => Sys2Proof.Machine.execIns w s
  | .lods w => Sys2Proof.Machine.execLods w s
  | .movs w => Sys2Proof.Machine.execMovs w s
  | .outs w => Sys2Proof.Machine.execOuts w s
  | .scas w => Sys2Proof.Machine.execScas w s
  | .stos w => Sys2Proof.Machine.execStos w s
  | .repeCmps w => Sys2Proof.Machine.execRepeCmps w s
  | .repneCmps w => Sys2Proof.Machine.execRepneCmps w s
  | .repIns w => Sys2Proof.Machine.execRepIns w s
  | .repLods w => Sys2Proof.Machine.execRepLods w s
  | .repMovs w => Sys2Proof.Machine.execRepMovs w s
  | .repOuts w => Sys2Proof.Machine.execRepOuts w s
  | .repeScas w => Sys2Proof.Machine.execRepeScas w s
  | .repneScas w => Sys2Proof.Machine.execRepneScas w s
  | .repStos w => Sys2Proof.Machine.execRepStos w s
  | .bsf reg rm => Sys2Proof.Machine.execBsf reg rm s
  | .bsr reg rm => Sys2Proof.Machine.execBsr reg rm s
  | .btImm rm bit => Sys2Proof.Machine.execBtImm rm bit s
  | .btReg reg rm => Sys2Proof.Machine.execBtReg reg rm s
  | .btcImm rm bit => Sys2Proof.Machine.execBtcImm rm bit s
  | .btcReg reg rm => Sys2Proof.Machine.execBtcReg reg rm s
  | .btrImm rm bit => Sys2Proof.Machine.execBtrImm rm bit s
  | .btrReg reg rm => Sys2Proof.Machine.execBtrReg reg rm s
  | .btsImm rm bit => Sys2Proof.Machine.execBtsImm rm bit s
  | .btsReg reg rm => Sys2Proof.Machine.execBtsReg reg rm s
  | .callNear disp => Sys2Proof.Machine.execCallNear disp s
  | .callRm rm => Sys2Proof.Machine.execCallRm rm s
  | .callFar off sel => Sys2Proof.Machine.execCallFar off sel s
  | .callMemFar mem => Sys2Proof.Machine.execCallMemFar mem s
  | .jmpShort disp => Sys2Proof.Machine.execJmpShort disp s
  | .jmpNear disp => Sys2Proof.Machine.execJmpNear disp s
  | .jmpRm rm => Sys2Proof.Machine.execJmpRm rm s
  | .jmpFar off sel => Sys2Proof.Machine.execJmpFar off sel s
  | .jmpMemFar mem => Sys2Proof.Machine.execJmpMemFar mem s
  | .retNearImm count => Sys2Proof.Machine.execRetNearImm count s
  | .retFarImm count => Sys2Proof.Machine.execRetFarImm count s
  | .jO disp => Sys2Proof.Machine.execJO disp s
  | .jNo disp => Sys2Proof.Machine.execJNo disp s
  | .jB disp => Sys2Proof.Machine.execJB disp s
  | .jNb disp => Sys2Proof.Machine.execJNb disp s
  | .jE disp => Sys2Proof.Machine.execJE disp s
  | .jNe disp => Sys2Proof.Machine.execJNe disp s
  | .jBe disp => Sys2Proof.Machine.execJBe disp s
  | .jNbe disp => Sys2Proof.Machine.execJNbe disp s
  | .jS disp => Sys2Proof.Machine.execJS disp s
  | .jNs disp => Sys2Proof.Machine.execJNs disp s
  | .jP disp => Sys2Proof.Machine.execJP disp s
  | .jNp disp => Sys2Proof.Machine.execJNp disp s
  | .jL disp => Sys2Proof.Machine.execJL disp s
  | .jNl disp => Sys2Proof.Machine.execJNl disp s
  | .jLe disp => Sys2Proof.Machine.execJLe disp s
  | .jNle disp => Sys2Proof.Machine.execJNle disp s
  | .jcxz disp => Sys2Proof.Machine.execJcxz disp s
  | .loop disp => Sys2Proof.Machine.execLoop disp s
  | .loopz disp => Sys2Proof.Machine.execLoopz disp s
  | .loopnz disp => Sys2Proof.Machine.execLoopnz disp s
  | .setO mid rm => Sys2Proof.Machine.execSetO mid rm s
  | .setNo mid rm => Sys2Proof.Machine.execSetNo mid rm s
  | .setB mid rm => Sys2Proof.Machine.execSetB mid rm s
  | .setNb mid rm => Sys2Proof.Machine.execSetNb mid rm s
  | .setE mid rm => Sys2Proof.Machine.execSetE mid rm s
  | .setNe mid rm => Sys2Proof.Machine.execSetNe mid rm s
  | .setBe mid rm => Sys2Proof.Machine.execSetBe mid rm s
  | .setNbe mid rm => Sys2Proof.Machine.execSetNbe mid rm s
  | .setS mid rm => Sys2Proof.Machine.execSetS mid rm s
  | .setNs mid rm => Sys2Proof.Machine.execSetNs mid rm s
  | .setP mid rm => Sys2Proof.Machine.execSetP mid rm s
  | .setNp mid rm => Sys2Proof.Machine.execSetNp mid rm s
  | .setL mid rm => Sys2Proof.Machine.execSetL mid rm s
  | .setNl mid rm => Sys2Proof.Machine.execSetNl mid rm s
  | .setLe mid rm => Sys2Proof.Machine.execSetLe mid rm s
  | .setNle mid rm => Sys2Proof.Machine.execSetNle mid rm s
  | .enter frame level => Sys2Proof.Machine.execEnter frame level s
  | .intN typ => Sys2Proof.Machine.execIntN typ s
  | .bound reg mem => Sys2Proof.Machine.execBound reg mem s
  | .movToCr cr reg => Sys2Proof.Machine.execMovToCr cr reg s
  | .movFromCr cr reg => Sys2Proof.Machine.execMovFromCr cr reg s
  | .movToDr dr reg => Sys2Proof.Machine.execMovToDr dr reg s
  | .movFromDr dr reg => Sys2Proof.Machine.execMovFromDr dr reg s
  | .movToTr tr reg => Sys2Proof.Machine.execMovToTr tr reg s
  | .movFromTr tr reg => Sys2Proof.Machine.execMovFromTr tr reg s
  | .esc ttt lll rm => Sys2Proof.Machine.execEsc ttt lll rm s
  | .arpl reg rm => Sys2Proof.Machine.execArpl reg rm s
  | .lar reg rm => Sys2Proof.Machine.execLar reg rm s
  | .lgdt mem => Sys2Proof.Machine.execLgdt mem s
  | .lidt mem => Sys2Proof.Machine.execLidt mem s
  | .lldt rm => Sys2Proof.Machine.execLldt rm s
  | .lmsw rm => Sys2Proof.Machine.execLmsw rm s
  | .lsl reg rm => Sys2Proof.Machine.execLsl reg rm s
  | .ltr rm => Sys2Proof.Machine.execLtr rm s
  | .sgdt mem => Sys2Proof.Machine.execSgdt mem s
  | .sidt mem => Sys2Proof.Machine.execSidt mem s
  | .sldt rm => Sys2Proof.Machine.execSldt rm s
  | .smsw rm => Sys2Proof.Machine.execSmsw rm s
  | .str rm => Sys2Proof.Machine.execStr rm s
  | .verr rm => Sys2Proof.Machine.execVerr rm s
  | .verw rm => Sys2Proof.Machine.execVerw rm s
  | .bswap reg => Sys2Proof.Machine.execBswap reg s
  | .cmpxchg w reg rm => Sys2Proof.Machine.execCmpxchg w reg rm s
  | .xadd w reg rm => Sys2Proof.Machine.execXadd w reg rm s
  | .invlpg mem => Sys2Proof.Machine.execInvlpg mem s
  | .fldMem dbl mem => Sys2Proof.Machine.execFldMem dbl mem s
  | .fild word mem => Sys2Proof.Machine.execFild word mem s
  | .fildM64 mem => Sys2Proof.Machine.execFildM64 mem s
  | .fldM80 mem => Sys2Proof.Machine.execFldM80 mem s
  | .fbld mem => Sys2Proof.Machine.execFbld mem s
  | .fldSt st => Sys2Proof.Machine.execFldSt st s
  | .fstMem dbl mem => Sys2Proof.Machine.execFstMem dbl mem s
  | .fist word mem => Sys2Proof.Machine.execFist word mem s
  | .fstSt st => Sys2Proof.Machine.execFstSt st s
  | .fstpMem dbl mem => Sys2Proof.Machine.execFstpMem dbl mem s
  | .fistp word mem => Sys2Proof.Machine.execFistp word mem s
  | .fistpM64 mem => Sys2Proof.Machine.execFistpM64 mem s
  | .fstpM80 mem => Sys2Proof.Machine.execFstpM80 mem s
  | .fbstp mem => Sys2Proof.Machine.execFbstp mem s
  | .fstpSt st => Sys2Proof.Machine.execFstpSt st s
  | .fxch st => Sys2Proof.Machine.execFxch st s
  | .fcomMem dbl mem => Sys2Proof.Machine.execFcomMem dbl mem s
  | .ficom word mem => Sys2Proof.Machine.execFicom word mem s
  | .fcomSt st => Sys2Proof.Machine.execFcomSt st s
  | .fcompMem dbl mem => Sys2Proof.Machine.execFcompMem dbl mem s
  | .ficomp word mem => Sys2Proof.Machine.execFicomp word mem s
  | .fcompSt st => Sys2Proof.Machine.execFcompSt st s
  | .fucom st => Sys2Proof.Machine.execFucom st s
  | .fucomp st => Sys2Proof.Machine.execFucomp st s
  | .faddMem dbl mem => Sys2Proof.Machine.execFaddMem dbl mem s
  | .fiadd word mem => Sys2Proof.Machine.execFiadd word mem s
  | .faddSt d st => Sys2Proof.Machine.execFaddSt d st s
  | .faddp st => Sys2Proof.Machine.execFaddp st s
  | .fsubMem dbl mem => Sys2Proof.Machine.execFsubMem dbl mem s
  | .fsubrMem dbl mem => Sys2Proof.Machine.execFsubrMem dbl mem s
  | .fisub word mem => Sys2Proof.Machine.execFisub word mem s
  | .fisubr word mem => Sys2Proof.Machine.execFisubr word mem s
  | .fsubSt d st => Sys2Proof.Machine.execFsubSt d st s
  | .fsubrSt d st => Sys2Proof.Machine.execFsubrSt d st s
  | .fsubrp st => Sys2Proof.Machine.execFsubrp st s
  | .fsubp st => Sys2Proof.Machine.execFsubp st s
  | .fmulMem dbl mem => Sys2Proof.Machine.execFmulMem dbl mem s
  | .fimul word mem => Sys2Proof.Machine.execFimul word mem s
  | .fmulSt d st => Sys2Proof.Machine.execFmulSt d st s
  | .fmulp st => Sys2Proof.Machine.execFmulp st s
  | .fdivMem dbl mem => Sys2Proof.Machine.execFdivMem dbl mem s
  | .fdivrMem dbl mem => Sys2Proof.Machine.execFdivrMem dbl mem s
  | .fidiv word mem => Sys2Proof.Machine.execFidiv word mem s
  | .fidivr word mem => Sys2Proof.Machine.execFidivr word mem s
  | .fdivSt d st => Sys2Proof.Machine.execFdivSt d st s
  | .fdivrSt d st => Sys2Proof.Machine.execFdivrSt d st s
  | .fdivrp st => Sys2Proof.Machine.execFdivrp st s
  | .fdivp st => Sys2Proof.Machine.execFdivp st s
  | .fldcw mem => Sys2Proof.Machine.execFldcw mem s
  | .fstcw mem => Sys2Proof.Machine.execFstcw mem s
  | .fstsw mem => Sys2Proof.Machine.execFstsw mem s
  | .fstenv mem => Sys2Proof.Machine.execFstenv mem s
  | .fldenv mem => Sys2Proof.Machine.execFldenv mem s
  | .fsave mem => Sys2Proof.Machine.execFsave mem s
  | .frstor mem => Sys2Proof.Machine.execFrstor mem s
  | .ffree st => Sys2Proof.Machine.execFfree st s
  | .lockPrefix => Sys2Proof.Machine.execLockPrefix s
  | .repnePrefix => Sys2Proof.Machine.execRepnePrefix s
  | .repPrefix => Sys2Proof.Machine.execRepPrefix s
  | .esPrefix => Sys2Proof.Machine.execEsPrefix s
  | .csPrefix => Sys2Proof.Machine.execCsPrefix s
  | .ssPrefix => Sys2Proof.Machine.execSsPrefix s
  | .dsPrefix => Sys2Proof.Machine.execDsPrefix s
  | .fsPrefix => Sys2Proof.Machine.execFsPrefix s
  | .gsPrefix => Sys2Proof.Machine.execGsPrefix s
  | .opSizePrefix => Sys2Proof.Machine.execOpSizePrefix s
  | .addrSizePrefix => Sys2Proof.Machine.execAddrSizePrefix s
  | .pushFs => Sys2Proof.Machine.execPushFs s
  | .pushGs => Sys2Proof.Machine.execPushGs s
  | .pusha => Sys2Proof.Machine.execPusha s
  | .popEs => Sys2Proof.Machine.execPopEs s
  | .popSs => Sys2Proof.Machine.execPopSs s
  | .popDs => Sys2Proof.Machine.execPopDs s
  | .popFs => Sys2Proof.Machine.execPopFs s
  | .popGs => Sys2Proof.Machine.execPopGs s
  | .popa => Sys2Proof.Machine.execPopa s
  | .clc => Sys2Proof.Machine.execClc s
  | .cld => Sys2Proof.Machine.execCld s
  | .cli => Sys2Proof.Machine.execCli s
  | .clts => Sys2Proof.Machine.execClts s
  | .cmc => Sys2Proof.Machine.execCmc s
  | .lahf => Sys2Proof.Machine.execLahf s
  | .popf => Sys2Proof.Machine.execPopf s
  | .pushf => Sys2Proof.Machine.execPushf s
  | .sahf => Sys2Proof.Machine.execSahf s
  | .stc => Sys2Proof.Machine.execStc s
  | .std => Sys2Proof.Machine.execStd s
  | .sti => Sys2Proof.Machine.execSti s
  | .aaa => Sys2Proof.Machine.execAaa s
  | .aas => Sys2Proof.Machine.execAas s
  | .daa => Sys2Proof.Machine.execDaa s
  | .das => Sys2Proof.Machine.execDas s
  | .aad => Sys2Proof.Machine.execAad s
  | .aam => Sys2Proof.Machine.execAam s
  | .cbw => Sys2Proof.Machine.execCbw s
  | .cwd => Sys2Proof.Machine.execCwd s
  | .xlat => Sys2Proof.Machine.execXlat s
  | .retNear => Sys2Proof.Machine.execRetNear s
  | .retFar => Sys2Proof.Machine.execRetFar s
  | .leave => Sys2Proof.Machine.execLeave s
  | .int3 => Sys2Proof.Machine.execInt3 s
  | .into => Sys2Proof.Machine.execInto s
  | .iret => Sys2Proof.Machine.execIret s
  | .hlt => Sys2Proof.Machine.execHlt s
  | .nop => Sys2Proof.Machine.execNop s
  | .wait => Sys2Proof.Machine.execWait s
  | .invd => Sys2Proof.Machine.execInvd s
  | .wbinvd => Sys2Proof.Machine.execWbinvd s
  | .fcompp => Sys2Proof.Machine.execFcompp s
  | .fucompp => Sys2Proof.Machine.execFucompp s
  | .ftst => Sys2Proof.Machine.execFtst s
  | .fxam => Sys2Proof.Machine.execFxam s
  | .fldz => Sys2Proof.Machine.execFldz s
  | .fld1 => Sys2Proof.Machine.execFld1 s
  | .fldpi => Sys2Proof.Machine.execFldpi s
  | .fldl2t => Sys2Proof.Machine.execFldl2t s
  | .fldl2e => Sys2Proof.Machine.execFldl2e s
  | .fldlg2 => Sys2Proof.Machine.execFldlg2 s
  | .fldln2 => Sys2Proof.Machine.execFldln2 s
  | .fsqrt => Sys2Proof.Machine.execFsqrt s
  | .fscale => Sys2Proof.Machine.execFscale s
  | .fprem => Sys2Proof.Machine.execFprem s
  | .fprem1 => Sys2Proof.Machine.execFprem1 s
  | .frndint => Sys2Proof.Machine.execFrndint s
  | .fxtract => Sys2Proof.Machine.execFxtract s
  | .fabs => Sys2Proof.Machine.execFabs s
  | .fchs => Sys2Proof.Machine.execFchs s
  | .fptan => Sys2Proof.Machine.execFptan s
  | .fpatan => Sys2Proof.Machine.execFpatan s
  | .fsin => Sys2Proof.Machine.execFsin s
  | .fcos => Sys2Proof.Machine.execFcos s
  | .fsincos => Sys2Proof.Machine.execFsincos s
  | .f2xm1 => Sys2Proof.Machine.execF2xm1 s
  | .fyl2x => Sys2Proof.Machine.execFyl2x s
  | .fyl2xp1 => Sys2Proof.Machine.execFyl2xp1 s
  | .fsetpm => Sys2Proof.Machine.execFsetpm s
  | .finit => Sys2Proof.Machine.execFinit s
  | .fstswAx => Sys2Proof.Machine.execFstswAx s
  | .fclex => Sys2Proof.Machine.execFclex s
  | .fincstp => Sys2Proof.Machine.execFincstp s
  | .fdecstp => Sys2Proof.Machine.execFdecstp s
  | .fnop => Sys2Proof.Machine.execFnop s

end Sys2Proof.Machine
end

