-- ==== Sys2Proof/Machine/Fetch.lean ====
section
/-! DEFINITION. Fetching an instruction (R131, R169, R117), what a prefix requires of the instruction it precedes
(R133, R135), and the events at an instruction boundary (R605, R617 to R620, R635). -/

namespace Sys2Proof.Machine

/-- The value a byte had before the first store since the last taken transfer, if there was one (R117). -/
def oldByte : List Host.Cell → Nat → Option Byte
  | [], _ => none
  | (a, b) :: rest, x => if a = x then some b else oldByte rest x

/-- One byte of code: a byte stored since the last taken transfer is the old or the new one (R117, D13, log
entry 15). -/
def codeByte (addr : Nat) : M Byte := do
  let b ← physRead addr
  let s ← getS
  match oldByte s.stored (busAddr s.cfg addr) with
  | none => pure b
  | some old => do
    let seen ← drawBit
    pure (if seen then b else old)

/-- `Fetch8()` at an offset of the code segment (R131). -/
def fetchByte (off : Nat) : M Byte := do
  let s ← getS
  if s.segs.cs.limit.toNat < off then raiseGP 0#16
  else
    let as ← linAddrs (s.linear s.segs.cs (BitVec.ofNat 32 off)) 1 false (s.cpl == 3#2)
    codeByte (as.headD 0)

/-- What the decoder's refusals become (R165, D21). -/
def decodeStop {α : Type} (e : DecErr) : M α :=
  match e with
  | .more => raiseGP 0#16
  | .ud => raiseUD
  | .undocumented => refuse .undocumentedEncoding

/-- Fetch byte after byte until the decoder knows the instruction; an instruction longer than the limit is `#GP(0)`
(R169). The first argument is how many bytes may still come, `bs` those that came. -/
def fetchFrom (c : Ctx) (start : Nat) : (more : Nat) → List Byte → M (Instr × Nat)
  | 0, bs =>
    match decode c bs with
    | .instr i n => pure (i, n)
    | .stop e => decodeStop e
  | more + 1, bs =>
    match decode c bs with
    | .instr i n => pure (i, n)
    | .stop .more => do
      let b ← fetchByte (start + bs.length)
      fetchFrom c start more (bs ++ [b])
    | .stop .ud => decodeStop .ud
    | .stop .undocumented => decodeStop .undocumented

/-- The offset of the next byte of the instruction in progress. -/
def State.fetchOffset (s : State) : Nat := s.eip.toNat + s.cur.len

/-- Fetch and decode the next instruction, or the next prefix of it: the instruction and its length. -/
def fetchInstr : M (Instr × Nat) := do
  let s ← getS
  fetchFrom s.ctx s.fetchOffset (s.cfg.maxInsnLen - s.cur.len) []

/-! Prefixes and the instruction they precede. -/

/-- The instruction is a prefix (R132). -/
def isPrefix (i : Instr) : Bool :=
  i == .lockPrefix || i == .repnePrefix || i == .repPrefix || i == .esPrefix || i == .csPrefix || i == .ssPrefix ||
  i == .dsPrefix || i == .fsPrefix || i == .gsPrefix || i == .opSizePrefix || i == .addrSizePrefix

/-- The operand is memory. -/
def isMem : RM → Bool
  | .reg _ => false
  | .mem _ => true

/-- The instructions LOCK may precede (R135): with a memory destination. -/
def lockable : Instr → Bool
  | .btsImm rm _ => isMem rm
  | .btsReg _ rm => isMem rm
  | .btrImm rm _ => isMem rm
  | .btrReg _ rm => isMem rm
  | .btcImm rm _ => isMem rm
  | .btcReg _ rm => isMem rm
  | .xchgRmReg _ _ rm => isMem rm
  | .addRmReg d _ _ rm => !d && isMem rm
  | .orRmReg d _ _ rm => !d && isMem rm
  | .adcRmReg d _ _ rm => !d && isMem rm
  | .sbbRmReg d _ _ rm => !d && isMem rm
  | .andRmReg d _ _ rm => !d && isMem rm
  | .subRmReg d _ _ rm => !d && isMem rm
  | .xorRmReg d _ _ rm => !d && isMem rm
  | .addRmImm _ _ rm _ => isMem rm
  | .orRmImm _ _ rm _ => isMem rm
  | .adcRmImm _ _ rm _ => isMem rm
  | .sbbRmImm _ _ rm _ => isMem rm
  | .andRmImm _ _ rm _ => isMem rm
  | .subRmImm _ _ rm _ => isMem rm
  | .xorRmImm _ _ rm _ => isMem rm
  | .notRm _ rm => isMem rm
  | .neg _ rm => isMem rm
  | .incRm _ rm => isMem rm
  | .decRm _ rm => isMem rm
  | .xadd _ _ rm => isMem rm
  | .cmpxchg _ _ rm => isMem rm
  | _ => false

/-- What LOCK requires (R135, R427): elsewhere #UD on the 80386 and 80486; the 80286 accepts it
before any instruction, IOPL-sensitive in protected mode (log entry 55). -/
def checkLock (i : Instr) : M Unit := do
  let s ← getS
  if s.has386 then (if lockable i then pure () else raiseUD)
  else if s.protMode && decide (s.flags.iopl.toNat < s.cpl.toNat) then raiseGP 0#16
  else pure ()

/-- What the prefixes read so far require of the instruction (R135). A repeat prefix before an instruction that is no
string instruction is ignored (R133, log entry 55). -/
def checkPrefixes (i : Instr) : M Unit := do
  let s ← getS
  if s.cur.lock && !isPrefix i then checkLock i else pure ()

/-- Fetch, decode and check the next instruction, and count its bytes. An encoding the decoder stops at stops before what
LOCK requires is looked at: LOCK before an encoding of R165's refused list is refused on the 80386 and 80486 too (log
entry 73). -/
def fetchChecked : M Instr := do
  let (i, n) ← fetchInstr
  checkPrefixes i
  updS (fun s => s.setCur { s.cur with len := s.cur.len + n })
  pure i

/-! Instruction boundaries. -/

/-- Sample the NMI input (R618, D10): an edge is latched. -/
def State.sampleNmi (s : State) : State :=
  match s.env.nmiIn with
  | [] => s
  | b :: rest =>
    (s.setEnv { s.env with nmiIn := rest }).setCtl { s.ctl with nmiPending := s.ctl.nmiPending || b }

/-- What is taken at an instruction boundary, highest first (R605): the single-step trap, NMI, a maskable interrupt;
and the state in which it is taken, or in which execution goes on. -/
inductive Boundary where
  | take (e : Event) (s : State)
  | goOn (s : State)
deriving DecidableEq, Repr

/-- A trap or an interrupt from outside returns to the next instruction (R601). -/
def State.interruptEvent (s : State) (v : BitVec 8) (k : EventKind) : Event := ⟨v, k, s.eip, none⟩

/-- The single-step trap (R635): DR6.BS is set on the 80386 and 80486. -/
def State.singleStep (s : State) : State :=
  if s.has386 then s.setSys { s.sys with dr6 := s.sys.dr6 ||| place 32 true 14 } else s

/-- NMI is taken (R618). -/
def State.takeNmi (s : State) : State := s.setCtl { s.ctl with nmiPending := false, nmiBlocked := true }

/-- The maskable interrupts (R617, R641, D10): the coprocessor's request first (log entry 13), then the stream. A request
the coprocessor made while CR0.NE was 0 is delivered whatever NE is by then (log entry 79). -/
def irqBoundary (s : State) : Boundary :=
  if s.link.irq13 then .take (s.interruptEvent s.cfg.irq13Vector .irq13) s
  else
    match s.env.irqIn with
    | [] => .goOn s
    | v :: rest =>
      let t := s.setEnv { s.env with irqIn := rest }
      match v with
      | none => .goOn t
      | some v => .take (t.interruptEvent v .request) t

/-- The events at an instruction boundary, with the inhibits of R620: after a load of SS none is recognised, the trap of
an iteration of a repeated instruction included, until the following instruction has completed. -/
def boundary (s0 : State) : Boundary :=
  let s := s0.sampleNmi
  if s.ctl.shadow = .ss then .goOn s
  else if s.ctl.dbPending then .take (s.interruptEvent 1#8 .trap) s.singleStep
  else if s.ctl.nmiPending && !s.ctl.nmiBlocked then .take (s.interruptEvent 2#8 .nmi) s.takeNmi
  else if s.flags.ie && s.ctl.shadow == .none then irqBoundary s
  else .goOn s

/-- A halted processor goes on waiting (R420), or the run ends (D5, R686, log entry 16). -/
def stayHalted (s : State) : Host.Outcome State Fault Refusal :=
  if s.nmiAhead || s.irqAhead then .next (s.setCtl { s.ctl with shadow := .none })
  else .fault .endOfRun

/-- An instruction starts (R620, R635): the shadow of the last one covers it, and TF asks for a trap after it. -/
def State.begin (s : State) : State :=
  s.setCtl { s.ctl with prevShadow := s.ctl.shadow, shadow := .none, dbPending := s.flags.tf }

end Sys2Proof.Machine
end

