-- ==== Sys2Proof/Machine/Step.lean ====
section
/-! DEFINITION. The step of the machine: an event at an instruction boundary, or one instruction or prefix. -/

namespace Sys2Proof.Machine

/-- Execute what a fetch found; a fetch that stops is completed like an instruction that stops (R131, R606). -/
def runFetched (s : State) : Host.Outcome State Fault Refusal :=
  match fetchChecked s with
  | .ok i s1 => exec i s1
  | .error e s1 => finish (fun _ => .error e s1) s

/-- An instruction boundary (R605): an event is taken, a halted processor waits, or the next instruction starts. -/
def atBoundary (s : State) : Host.Outcome State Fault Refusal :=
  match boundary s with
  | .take e t => deliver e t
  | .goOn t => if t.ctl.activity = .halted then stayHalted t else runFetched t.begin

/-- One step of the machine. No event is recognised between a prefix and its opcode (R619). -/
def step (s : State) : Host.Outcome State Fault Refusal :=
  if s.ctl.activity = .shutdown then .fault .shutdown
  else if s.cur.len = 0 then atBoundary s
  else runFetched s

/-- Where the byte at an offset of the code segment stands in physical memory. -/
def State.codeAddr (s : State) (off : Nat) : Nat :=
  match linAddrs (s.linear s.segs.cs (BitVec.ofNat 32 off)) 1 false (s.cpl == 3#2) s with
  | .ok as _ => busAddr s.cfg (as.headD 0)
  | .error _ _ => 0

/-- Place bytes in the code segment from an offset on, as if they had always stood there. -/
def State.placeCode (s : State) (off : Nat) : List Byte → State
  | [] => s
  | b :: rest =>
    let a := s.codeAddr off
    ((s.setMem (memSet s.mem a b)).setStored (s.stored.filter (fun c => c.1 != a))).placeCode (off + 1) rest

/-- The instruction of a table word stored where `step` fetches its next instruction. -/
def State.withFetchWord (s : State) (nbits w : Nat) : State :=
  s.placeCode s.fetchOffset ((tableBytes nbits w).take 15)

end Sys2Proof.Machine
end

