-- ==== Sys2Proof/Safety.lean ====
section
/-! DEFINITION. The terms in which statements speak of a run: accesses that the protection rules let through to plain
memory (paging off, RAM), what such an access reads and stores, the stack, a quiet instruction boundary, and the
invariant of the machine. -/

namespace Sys2Proof.Machine

/-! Memory accesses (R90, R110). -/

/-- The alignment check does not apply to an address (R110). -/
def State.aligned (s : State) (lin : BitVec 32) (al : Nat) : Bool :=
  !(s.has486 && s.sys.cr0.am && s.flags.ac && s.cpl == 3#2 && lin.toNat % al != 0)

/-- The linear address of an offset in a segment register's segment (R82). -/
def State.linOf (s : State) (k : SReg) (off : BitVec 32) : BitVec 32 := s.linear (s.segs.get k) off

/-- The checks of R90 and R110 let an access of `n` bytes through. -/
def State.allows (s : State) (k : SReg) (off : BitVec 32) (n : Nat) (write : Bool) (al : Nat) : Bool :=
  let r := s.segs.get k
  (!s.protMode || (r.usable && (if write then arWritable r.access else arReadable r.access))) &&
  segHolds r off n && s.aligned (s.linOf k off) al

/-- The physical address of a linear address while paging is off (R100, R71). -/
def State.flat (s : State) (lin : BitVec 32) : Nat := busAddr s.cfg lin.toNat

/-- Paging is off and RAM answers at `n` bytes from a linear address on. -/
def State.plain (s : State) (lin : BitVec 32) : (n : Nat) → Bool
  | 0 => !s.paging
  | n + 1 => kindAt s.cfg.memmap (s.flat lin) == .ram && s.plain (lin + 1#32) n

/-- The bytes of memory from a linear address on. -/
def State.bytesAt (s : State) (lin : BitVec 32) : (n : Nat) → List Byte
  | 0 => []
  | n + 1 => memGet s.mem (s.flat lin) :: s.bytesAt (lin + 1#32) n

/-- The state after storing bytes from a linear address on. -/
def State.putBytes (s : State) (lin : BitVec 32) : List Byte → State
  | [] => s
  | b :: bs => (s.storeByte (s.flat lin) b).putBytes (lin + 1#32) bs

/-- A physical address is one of the `n` bytes from a linear address on. -/
def State.within (s : State) (lin : BitVec 32) : (n : Nat) → Nat → Bool
  | 0, _ => false
  | n + 1, a => a == s.flat lin || s.within (lin + 1#32) n a

/-- An access that is let through to plain memory. -/
def State.reaches (s : State) (k : SReg) (off : BitVec 32) (n : Nat) (write : Bool) (al : Nat) : Bool :=
  s.allows k off n write al && s.plain (s.linOf k off) n

/-- The value of an operand width in memory. -/
def State.memVal (s : State) (w : Width) (k : SReg) (off : BitVec 32) : Val w :=
  leVal w.bits (s.bytesAt (s.linOf k off) w.bytes)

/-- The state after storing a value of an operand width. -/
def State.memPut (s : State) (w : Width) (k : SReg) (off : BitVec 32) (v : Val w) : State :=
  s.putBytes (s.linOf k off) (leBytes w.bytes v.toNat)

/-! Operands (R140 to R145). -/

/-- The operand can be read. -/
def State.rmReads (s : State) (w : Width) : RM → Bool
  | .reg _ => true
  | .mem m => s.reaches (s.memSeg m) (s.ea m) w.bytes false w.bytes

/-- The operand can be written. -/
def State.rmWrites (s : State) (w : Width) : RM → Bool
  | .reg _ => true
  | .mem m => s.reaches (s.memSeg m) (s.ea m) w.bytes true w.bytes

/-- The operand can be read and written. -/
def State.rmBoth (s : State) (w : Width) (rm : RM) : Bool := s.rmReads w rm && s.rmWrites w rm

/-- The operand's value. -/
def State.rmVal (s : State) (w : Width) : RM → Val w
  | .reg r => s.reg w r
  | .mem m => s.memVal w (s.memSeg m) (s.ea m)

/-- The state after a register is written. -/
def State.regPut (s : State) (w : Width) (r : RegNum) (v : Val w) : State := s.setGpr (regWrite s.gpr w r v)

/-- The state after the operand is written. -/
def State.rmPut (s : State) (w : Width) (rm : RM) (v : Val w) : State :=
  match rm with
  | .reg r => s.regPut w r v
  | .mem m => s.memPut w (s.memSeg m) (s.ea m) v

/-- The operand's bytes in memory: none for a register. -/
def State.rmCovers (s : State) (w : Width) (rm : RM) (a : Nat) : Bool :=
  match rm with
  | .reg _ => false
  | .mem m => s.within (s.linOf (s.memSeg m) (s.ea m)) w.bytes a

/-- The state with the flags changed. -/
def State.withFlags (s : State) (f : Flags → Flags) : State := s.setFlags (f s.flags)

/-! The stack (R112). -/

/-- The flags other than the six status flags are those of `g`. -/
def Flags.sameControl (f g : Flags) : Bool :=
  f.tf == g.tf && f.ie == g.ie && f.df == g.df && f.iopl == g.iopl && f.nt == g.nt && f.rf == g.rf &&
  f.vm == g.vm && f.ac == g.ac

/-- The stack holds `k` more items (R212, R606). -/
def State.holds (s : State) (w : Width) (k : Nat) : Bool := stackHolds s.segs.ss s.sp w.bytes k

/-- Where a push stores. -/
def State.pushOff (s : State) (w : Width) : BitVec 32 := s.spAdd (-(BitVec.ofNat 32 w.bytes))

/-- A push goes through: not the shutdown of R604, and the slot can be written. -/
def State.pushes (s : State) (w : Width) : Bool :=
  !(s.cfg.cpu == .p286 && s.sys.cr0.pe == false && s.sp == 1#32) &&
  s.reaches .ss (s.pushOff w) w.bytes true w.bytes

/-- The state after a push. -/
def State.pushed (s : State) (w : Width) (v : Val w) : State :=
  (s.memPut w .ss (s.pushOff w) v).setGpr (s.gprWithSp (s.pushOff w))

/-- Pushes one after another go through. -/
def State.pushesAll (s : State) (w : Width) : List (Val w) → Bool
  | [] => true
  | v :: vs => s.pushes w && (s.pushed w v).pushesAll w vs

/-- The state after pushes one after another. -/
def State.pushedAll (s : State) (w : Width) : List (Val w) → State
  | [] => s
  | v :: vs => (s.pushed w v).pushedAll w vs

/-- A pop goes through. -/
def State.pops (s : State) (w : Width) : Bool := s.reaches .ss s.sp w.bytes false w.bytes

/-- The value a pop takes. -/
def State.popVal (s : State) (w : Width) : Val w := s.memVal w .ss s.sp

/-- The state after a pop. -/
def State.popped (s : State) (w : Width) : State := s.setGpr (s.gprWithSp (s.spAdd (BitVec.ofNat 32 w.bytes)))

/-- The state after popping so many items of a width: the stack pointer alone moves. -/
def State.poppedTimes (s : State) (w : Width) : Nat → State
  | 0 => s
  | n + 1 => (s.poppedTimes w n).popped w

/-- So many pops go through. -/
def State.popsTimes (s : State) (w : Width) : Nat → Bool
  | 0 => true
  | n + 1 => s.popsTimes w n && (s.poppedTimes w n).pops w

/-- The k-th value that pops one after another take. -/
def State.popVals (s : State) (w : Width) (k : Nat) : Val w := (s.poppedTimes w k).popVal w

/-- The state with the flags replaced and `n` undefined values drawn (D9). -/
def State.flagged (s : State) (f : Flags) (n : Nat) : State := (s.setFlags f).setDraws (s.draws + n)

/-- The state with an index register stepped by an element of a width (R330). -/
def State.stepped (s : State) (i : RegNum) (w : Width) : State :=
  let d := BitVec.ofNat s.adr.width.bits w.bytes
  let old := s.reg s.adr.width i
  s.regPut s.adr.width i (if s.flags.df then old - d else old + d)

/-- ENTER copies `k` frame pointers: every access goes through (R407). -/
def State.copies (s : State) (w : Width) : Nat → Bool
  | 0 => true
  | k + 1 =>
    let aw : Width := if s.stack32 then .w32 else .w16
    let t := s.regPut aw rBP (s.reg aw rBP - BitVec.ofNat aw.bits w.bytes)
    let off : BitVec 32 := (t.reg aw rBP).setWidth 32
    t.reaches .ss off w.bytes false w.bytes && t.pushes w && (t.pushed w (t.memVal w .ss off)).copies w k

/-- The state after ENTER copied `k` frame pointers. -/
def State.copied (s : State) (w : Width) : Nat → State
  | 0 => s
  | k + 1 =>
    let aw : Width := if s.stack32 then .w32 else .w16
    let t := s.regPut aw rBP (s.reg aw rBP - BitVec.ofNat aw.bits w.bytes)
    (t.pushed w (t.memVal w .ss ((t.reg aw rBP).setWidth 32))).copied w k

/-! Input and output (R72, R627, R628). -/

/-- The I/O permission bitmap of the task state segment allows `n` ports (R628). -/
def State.ioBits (s : State) (port : BitVec 16) (n : Nat) : Bool :=
  let tr := s.sys.tr
  let at8 := leNat (s.bytesAt (tr.base + 0x66#32) 2) + port.toNat / 8
  tr.usable && (arType tr.access == 9 || arType tr.access == 11) && decide (0x67 ≤ tr.limit.toNat) &&
  s.plain (tr.base + 0x66#32) 2 && decide (at8 + 1 ≤ tr.limit.toNat) &&
  s.plain (tr.base + BitVec.ofNat 32 at8) 2 &&
  decide ((leNat (s.bytesAt (tr.base + BitVec.ofNat 32 at8) 2) >>> (port.toNat % 8)) % 2 ^ n = 0)

/-- Input and output of `n` ports is allowed (R627, R628). -/
def State.ioAllows (s : State) (port : BitVec 16) (n : Nat) : Bool :=
  !s.sys.cr0.pe ||
  (if s.v86 then s.ioBits port n
   else decide (s.cpl.toNat ≤ s.flags.iopl.toNat) || (s.has386 && s.ioBits port n))

/-- The value a port read finds (D6). -/
def State.portVal (s : State) (port : BitVec 16) (w : Width) : Val w :=
  match s.env.ioIn with
  | v :: _ => v.setWidth w.bits
  | [] => ioOracle port w s.env.ioReads

/-- The state after a port read (D6). -/
def State.portRead (s : State) : State :=
  s.setEnv { s.env with ioIn := s.env.ioIn.tail, ioReads := s.env.ioReads + 1 }

/-- The machine takes a write to a port: R643 refuses only the coprocessor's ports, but for an 8-bit write of 0 to
F0. -/
def portTakes (port : BitVec 16) (w : Width) (v : Val w) : Bool :=
  !npxPort port w.bytes || (w == .w8 && port == 0xF0#16 && v.toNat == 0)

/-- The state after a write to port F1 (R643, R663): an 80287 or 80387 is reset; the 80387's 'error', which its reset
makes active (R50), sets the busy latch and the request if it was not active before (R641); nothing on the 80486. -/
def State.npxWasReset (s : State) : State :=
  if s.has486 then s
  else (s.setFpu (Fpu.reset s.cfg)).setLink
    (if s.cfg.npx = .n387 ∧ s.fpu.status.es = false then ⟨true, true⟩ else s.link)

/-- The state after a port write that is taken (D6, R643): F1 resets an 80287 or 80387, F0 clears the busy latch and the
request, any other goes to the platform. -/
def State.portWrote (s : State) (port : BitVec 16) (w : Width) (v : Val w) : State :=
  if port = 0xF1#16 then s.npxWasReset
  else if port = 0xF0#16 then s.setLink ⟨false, false⟩
  else s.setEnv { s.env with ioOut := .port port w (v.setWidth 32) :: s.env.ioOut }

/-- Input and output of `n` ports is denied with #GP(0) (R627, R628): above IOPL or in virtual-8086 mode, by the 80286
always, else for want of a bitmap in an 80386 task state segment or by one of its bits. -/
def State.ioDenies (s : State) (port : BitVec 16) (n : Nat) : Bool :=
  let tr := s.sys.tr
  let at8 := leNat (s.bytesAt (tr.base + 0x66#32) 2) + port.toNat / 8
  let bits := leNat (s.bytesAt (tr.base + BitVec.ofNat 32 at8) 2) >>> (port.toNat % 8)
  s.sys.cr0.pe && (s.v86 || decide (s.flags.iopl.toNat < s.cpl.toNat)) &&
  ((!s.v86 && !s.has386) || !tr.usable || !(arType tr.access == 9 || arType tr.access == 11) ||
    decide (tr.limit.toNat < 0x67) ||
    (s.plain (tr.base + 0x66#32) 2 &&
      (decide (tr.limit.toNat < at8 + 1) ||
        (s.plain (tr.base + BitVec.ofNat 32 at8) 2 && decide (bits % 2 ^ n ≠ 0)))))

/-! The string instructions (R331 to R337). -/

/-- The seven string operations. -/
inductive StrOp where
  | cmps | ins | lods | movs | outs | scas | stos
deriving DecidableEq, Repr

/-- The row of the operation without a repeat prefix. -/
def StrOp.plain (op : StrOp) (w : Bool) : Instr :=
  match op with
  | .cmps => .cmps w
  | .ins => .ins w
  | .lods => .lods w
  | .movs => .movs w
  | .outs => .outs w
  | .scas => .scas w
  | .stos => .stos w

/-- The repeated row of the operation; `z` is the z bit of the prefix (R133). -/
def StrOp.rep (op : StrOp) (z w : Bool) : Instr :=
  match op with
  | .cmps => if z then .repeCmps w else .repneCmps w
  | .ins => .repIns w
  | .lods => .repLods w
  | .movs => .repMovs w
  | .outs => .repOuts w
  | .scas => if z then .repeScas w else .repneScas w
  | .stos => .repStos w

/-- The value of ZF that ends the repetition: only the comparing operations have one (R340). -/
def StrOp.stop (op : StrOp) (z : Bool) : Option Bool :=
  match op with
  | .cmps => some (!z)
  | .ins => none
  | .lods => none
  | .movs => none
  | .outs => none
  | .scas => some (!z)
  | .stos => none

/-- The source element can be read. -/
def State.sourceReads (s : State) (w : Width) : Bool := s.reaches s.stringSeg (s.index rSI) w.bytes false w.bytes

/-- The destination element can be accessed. -/
def State.destReaches (s : State) (w : Width) (write : Bool) : Bool :=
  s.reaches .es (s.index rDI) w.bytes write w.bytes

/-- The source element. -/
def State.sourceVal (s : State) (w : Width) : Val w := s.memVal w s.stringSeg (s.index rSI)

/-- One element's accesses go through. -/
def StrOp.ok (op : StrOp) (w : Width) (s : State) : Bool :=
  let port : BitVec 16 := s.reg .w16 rDX
  match op with
  | .cmps => s.sourceReads w && s.destReaches w false
  | .ins => s.ioAllows port w.bytes && !npxPort port w.bytes && s.destReaches w true
  | .lods => s.sourceReads w
  | .movs => s.sourceReads w && s.destReaches w true
  | .outs => s.ioAllows port w.bytes && s.sourceReads w && portTakes port w (s.sourceVal w)
  | .scas => s.destReaches w false
  | .stos => s.destReaches w true

/-- The destination element. -/
def State.destVal (s : State) (w : Width) : Val w := s.memVal w .es (s.index rDI)

/-- The state after one element (R331 to R337). -/
def StrOp.done (op : StrOp) (w : Width) (s : State) : State :=
  let port : BitVec 16 := s.reg .w16 rDX
  match op with
  | .cmps =>
    ((s.setFlags (s.flags.status (subN (s.sourceVal w) (s.destVal w) false))).stepped rSI w).stepped rDI w
  | .ins => (s.portRead.memPut w .es (s.index rDI) (s.portVal port w)).stepped rDI w
  | .lods => (s.regPut w rAX (s.sourceVal w)).stepped rSI w
  | .movs => ((s.memPut w .es (s.index rDI) (s.sourceVal w)).stepped rSI w).stepped rDI w
  | .outs => (s.portWrote port w (s.sourceVal w)).stepped rSI w
  | .scas => (s.setFlags (s.flags.status (subN (s.reg w rAX) (s.destVal w) false))).stepped rDI w
  | .stos => (s.memPut w .es (s.index rDI) (s.reg w rAX)).stepped rDI w

/-- What follows an iteration of a repeated instruction (R340): it ends, or it starts again at its first prefix. -/
def State.iterated (s : State) (stop : Option Bool) : State :=
  let t := s.setGpr s.countDown
  if repeatDone t stop then t.advance
  else (t.setCur Cur.start).setCtl { t.ctl with shadow := t.ctl.prevShadow }

/-! Descriptors (R87, R435). -/

/-- The descriptor a selector names can be read from plain memory. -/
def State.descPlain (s : State) (sel : BitVec 16) : Bool :=
  match s.descAddr sel with
  | some a => s.plain a 4 && s.plain (a + 4#32) 4
  | none => true

/-- The descriptor at a linear address. -/
def State.descRead (s : State) (a : BitVec 32) : Desc :=
  Desc.ofWords s.has386 (leVal 32 (s.bytesAt a 4)) (leVal 32 (s.bytesAt (a + 4#32) 4)) a

/-- The descriptor a selector names: none for a null selector or one outside its table (`DescOK`, R435). -/
def State.descOf (s : State) (sel : BitVec 16) : Option Desc :=
  if selNull sel then none else (s.descAddr sel).map s.descRead

/-- The state with the accessed bit of a descriptor set in memory (R91). -/
def State.marked (s : State) (d : Desc) : State :=
  if bitOf d.access 0 then s else s.putBytes (d.addr + 5#32) [d.access ||| 1#8]

/-- A segment register loaded from a descriptor (R91, R93): the selector, and the hidden part with the accessed bit. -/
def Desc.asSeg (d : Desc) (sel : BitVec 16) : SegReg :=
  { sel := sel, base := d.base, limit := d.limit, access := d.access ||| 1#8, db := d.db, g := d.g, usable := true }

/-- A selector names a descriptor that is there and can be read (R87). -/
def State.names (s : State) (sel : BitVec 16) (d : Desc) : Bool :=
  !selNull sel && s.descPlain sel && s.descOf sel == some d

/-- The state after an instruction that looks at a descriptor (R437): ZF alone when it does not pass. -/
def State.looked (s : State) (d : Option Desc) (ok : Desc → Bool) (sel : BitVec 16) (f : Desc → State → State) :
    State :=
  match d with
  | some d =>
    if ok d && visible s.cpl sel d then f d (s.withFlags (fun g => { g with zf := true }))
    else s.withFlags (fun g => { g with zf := false })
  | none => s.withFlags (fun g => { g with zf := false })

/-! Taking an interrupt or exception in real-address mode (R610). -/

/-- The three words are pushed: flags, CS, the return address; IF and TF are cleared after the first. -/
def State.realFrame (s : State) (e : Event) : State :=
  (((s.pushed .w16 ((s.savedFlags e).extractLsb' 0 16)).withFlags
    (fun f => { f with ie := false, tf := false, ac := f.ac && !s.has486 })).pushed .w16 s.segs.cs.sel).pushed .w16
      (e.ret.extractLsb' 0 16)

/-- The state after a selector is pushed as an item of a gate's width (R612): in 32 bits under a free half (U4). -/
def State.pushedSel (s : State) (w : Width) (sel : BitVec 16) : State :=
  match w with
  | .w8 => s.pushed .w8 (sel.extractLsb' 0 8)
  | .w16 => s.pushed .w16 sel
  | .w32 => (s.pushed .w32 (Config.freeWord s.draws ++ sel)).setDraws (s.draws + 1)

/-- The state after the flags, CS and the return address are pushed (R612). -/
def State.framed (s : State) (w : Width) (flags : BitVec 32) (cs : BitVec 16) (ret : BitVec 32) : State :=
  ((s.pushed w (flags.setWidth w.bits)).pushedSel w cs).pushed w (ret.setWidth w.bits)

/-- These three pushes go through. -/
def State.frames (s : State) (w : Width) (flags : BitVec 32) (cs : BitVec 16) : Bool :=
  let t := s.pushed w (flags.setWidth w.bits)
  s.pushes w && t.pushes w && (t.pushedSel w cs).pushes w

/-- The linear address of a vector's entry in the table (R610). -/
def State.vectorAt (s : State) (v : BitVec 8) : BitVec 32 := s.sys.idtr.base + BitVec.ofNat 32 (v.toNat * 4)

/-- The entry goes through: real-address mode, the vector within the table, three pushes, and the table readable. -/
def State.entersReal (s : State) (e : Event) : Bool :=
  let s1 := s.pushed .w16 ((s.savedFlags e).extractLsb' 0 16)
  let s2 := s1.pushed .w16 s.segs.cs.sel
  !s.sys.cr0.pe && !(s.sys.idtr.limit.toNat < e.vector.toNat * 4 + 3) &&
  (!s.has386 || stackHolds s.segs.ss s.sp 2 3) && s.pushes .w16 && s1.pushes .w16 && s2.pushes .w16 &&
  s.plain (s.vectorAt e.vector) 2 && s.plain (s.sys.idtr.base + BitVec.ofNat 32 (e.vector.toNat * 4 + 2)) 2

/-- The state after the entry. -/
def State.enteredReal (s : State) (e : Event) : State :=
  let t := s.realFrame e
  let off : BitVec 32 := leVal 32 (t.bytesAt (s.vectorAt e.vector) 2)
  let sel : BitVec 16 := leVal 16 (t.bytesAt (s.sys.idtr.base + BitVec.ofNat 32 (e.vector.toNat * 4 + 2)) 2)
  (((((t.setSegs (t.segs.put .cs (s.segs.cs.toReal sel))).setEip off).setStored []).setCur Cur.start).setCtl
    { t.ctl with activity := .running, shadow := .none, prevShadow := .none, dbPending := false })

/-- The state after a jump to an offset (R25, R117). -/
def State.jumped (s : State) (off : BitVec 32) : State := ((s.setEip off).setCur Cur.start).setStored []

/-! The coprocessor (R424, R641). -/

/-- A coprocessor instruction starts: no `#NM`, a coprocessor, no error to report and no wait. -/
def State.npxReady (s : State) : Bool :=
  !s.sys.cr0.em && !s.sys.cr0.ts && s.cfg.npx != .absent &&
  (if s.nativeErrors then !s.fpu.status.es else !s.link.busyLatch)

/-- No coprocessor is fitted, and no `#NM` says so (R424, U13). -/
def State.npxMissing (s : State) : Bool := !s.sys.cr0.em && !s.sys.cr0.ts && s.cfg.npx == .absent

/-- A coprocessor operand can be accessed (R424, R121). -/
def State.npxReaches (s : State) (m : MemOp) (n : Nat) (write : Bool) (al : Nat) : Bool :=
  s.reaches (s.memSeg m) (s.ea m) n write al

/-! Rows of the opcode table by the operation they share. -/

/-- The row `register/memory with register` of an operation (R261 to R267, R310 to R313). -/
def AluOp.rmReg (op : AluOp) (d w : Bool) (reg : RegNum) (rm : RM) : Instr :=
  match op with
  | .add => .addRmReg d w reg rm
  | .or => .orRmReg d w reg rm
  | .adc => .adcRmReg d w reg rm
  | .sbb => .sbbRmReg d w reg rm
  | .and => .andRmReg d w reg rm
  | .sub => .subRmReg d w reg rm
  | .xor => .xorRmReg d w reg rm
  | .cmp => .cmpRmReg d w reg rm

/-- The row `immediate with register/memory`. -/
def AluOp.rmImm (op : AluOp) (sx w : Bool) (rm : RM) (imm : Imm) : Instr :=
  match op with
  | .add => .addRmImm sx w rm imm
  | .or => .orRmImm sx w rm imm
  | .adc => .adcRmImm sx w rm imm
  | .sbb => .sbbRmImm sx w rm imm
  | .and => .andRmImm sx w rm imm
  | .sub => .subRmImm sx w rm imm
  | .xor => .xorRmImm sx w rm imm
  | .cmp => .cmpRmImm sx w rm imm

/-- The row `immediate with accumulator`. -/
def AluOp.accImm (op : AluOp) (w : Bool) (imm : Imm) : Instr :=
  match op with
  | .add => .addAccImm w imm
  | .or => .orAccImm w imm
  | .adc => .adcAccImm w imm
  | .sbb => .sbbAccImm w imm
  | .and => .andAccImm w imm
  | .sub => .subAccImm w imm
  | .xor => .xorAccImm w imm
  | .cmp => .cmpAccImm w imm

/-- The rows of a shift or rotate (R300). -/
def ShiftOp.instr (op : ShiftOp) (w : Bool) (rm : RM) (count : Count) : Instr :=
  match op with
  | .rol => .rol w rm count
  | .ror => .ror w rm count
  | .rcl => .rcl w rm count
  | .rcr => .rcr w rm count
  | .shl => .shl w rm count
  | .shr => .shr w rm count
  | .sar => .sar w rm count

/-- A bit test with an immediate (R363 to R366). -/
def BitOp.immInstr (op : BitOp) (rm : RM) (bit : BitVec 8) : Instr :=
  match op with
  | .test => .btImm rm bit
  | .complement => .btcImm rm bit
  | .reset => .btrImm rm bit
  | .set => .btsImm rm bit

/-- A bit test with a register. -/
def BitOp.regInstr (op : BitOp) (reg : RegNum) (rm : RM) : Instr :=
  match op with
  | .test => .btReg reg rm
  | .complement => .btcReg reg rm
  | .reset => .btrReg reg rm
  | .set => .btsReg reg rm

/-- The conditional jump of a condition (R387 to R402). -/
def Cond.jump (c : Cond) (disp : Imm) : Instr :=
  match c with
  | .o => .jO disp
  | .no => .jNo disp
  | .b => .jB disp
  | .nb => .jNb disp
  | .e => .jE disp
  | .ne => .jNe disp
  | .be => .jBe disp
  | .nbe => .jNbe disp
  | .s => .jS disp
  | .ns => .jNs disp
  | .p => .jP disp
  | .np => .jNp disp
  | .l => .jL disp
  | .nl => .jNl disp
  | .le => .jLe disp
  | .nle => .jNle disp

/-- The conditional byte set of a condition (R701 to R716). -/
def Cond.set (c : Cond) (mid : BitVec 3) (rm : RM) : Instr :=
  match c with
  | .o => .setO mid rm
  | .no => .setNo mid rm
  | .b => .setB mid rm
  | .nb => .setNb mid rm
  | .e => .setE mid rm
  | .ne => .setNe mid rm
  | .be => .setBe mid rm
  | .nbe => .setNbe mid rm
  | .s => .setS mid rm
  | .ns => .setNs mid rm
  | .p => .setP mid rm
  | .np => .setNp mid rm
  | .l => .setL mid rm
  | .nl => .setNl mid rm
  | .le => .setLe mid rm
  | .nle => .setNle mid rm

/-- The coprocessor instructions without memory operand that compute with the register stack (48_x87.md sections 4
to 8): they wait for pending errors and record their address. -/
def Instr.npxStackOp : Instr → Bool
  | .fldSt _ => true
  | .fstSt _ => true
  | .fstpSt _ => true
  | .fxch _ => true
  | .fcomSt _ => true
  | .fcompSt _ => true
  | .fcompp => true
  | .fucom _ => true
  | .fucomp _ => true
  | .fucompp => true
  | .ftst => true
  | .fxam => true
  | .fldz => true
  | .fld1 => true
  | .fldpi => true
  | .fldl2t => true
  | .fldl2e => true
  | .fldlg2 => true
  | .fldln2 => true
  | .faddSt _ _ => true
  | .faddp _ => true
  | .fsubSt _ _ => true
  | .fsubp _ => true
  | .fsubrSt _ _ => true
  | .fsubrp _ => true
  | .fmulSt _ _ => true
  | .fmulp _ => true
  | .fdivSt _ _ => true
  | .fdivp _ => true
  | .fdivrSt _ _ => true
  | .fdivrp _ => true
  | .fsqrt => true
  | .fscale => true
  | .fprem => true
  | .fprem1 => true
  | .frndint => true
  | .fxtract => true
  | .fabs => true
  | .fchs => true
  | .fptan => true
  | .fpatan => true
  | .fsin => true
  | .fcos => true
  | .fsincos => true
  | .f2xm1 => true
  | .fyl2x => true
  | .fyl2xp1 => true
  | .fincstp => true
  | .fdecstp => true
  | .ffree _ => true
  | .fnop => true
  | _ => false

/-- The coprocessor instructions that read a number from memory (48_x87.md sections 4, 5, 7): the operand, and its
size and alignment. -/
def Instr.npxSource : Instr → Option (MemOp × Nat × Nat)
  | .fldMem dbl m => some (m, (realFmt dbl).bytes, (realFmt dbl).bytes)
  | .fcomMem dbl m => some (m, (realFmt dbl).bytes, (realFmt dbl).bytes)
  | .fcompMem dbl m => some (m, (realFmt dbl).bytes, (realFmt dbl).bytes)
  | .faddMem dbl m => some (m, (realFmt dbl).bytes, (realFmt dbl).bytes)
  | .fsubMem dbl m => some (m, (realFmt dbl).bytes, (realFmt dbl).bytes)
  | .fsubrMem dbl m => some (m, (realFmt dbl).bytes, (realFmt dbl).bytes)
  | .fmulMem dbl m => some (m, (realFmt dbl).bytes, (realFmt dbl).bytes)
  | .fdivMem dbl m => some (m, (realFmt dbl).bytes, (realFmt dbl).bytes)
  | .fdivrMem dbl m => some (m, (realFmt dbl).bytes, (realFmt dbl).bytes)
  | .fild word m => some (m, (intFmt word).bytes, (intFmt word).bytes)
  | .ficom word m => some (m, (intFmt word).bytes, (intFmt word).bytes)
  | .ficomp word m => some (m, (intFmt word).bytes, (intFmt word).bytes)
  | .fiadd word m => some (m, (intFmt word).bytes, (intFmt word).bytes)
  | .fisub word m => some (m, (intFmt word).bytes, (intFmt word).bytes)
  | .fisubr word m => some (m, (intFmt word).bytes, (intFmt word).bytes)
  | .fimul word m => some (m, (intFmt word).bytes, (intFmt word).bytes)
  | .fidiv word m => some (m, (intFmt word).bytes, (intFmt word).bytes)
  | .fidivr word m => some (m, (intFmt word).bytes, (intFmt word).bytes)
  | .fildM64 m => some (m, 8, 8)
  | .fldM80 m => some (m, 10, 8)
  | .fbld m => some (m, 10, 8)
  | _ => none

/-- The coprocessor instructions that store a number (48_x87.md section 4): the operand, and its size and
alignment. -/
def Instr.npxDest : Instr → Option (MemOp × Nat × Nat)
  | .fstMem dbl m => some (m, (realFmt dbl).bytes, (realFmt dbl).bytes)
  | .fstpMem dbl m => some (m, (realFmt dbl).bytes, (realFmt dbl).bytes)
  | .fist word m => some (m, (intFmt word).bytes, (intFmt word).bytes)
  | .fistp word m => some (m, (intFmt word).bytes, (intFmt word).bytes)
  | .fistpM64 m => some (m, 8, 8)
  | .fstpM80 m => some (m, 10, 8)
  | .fbstp m => some (m, 10, 8)
  | _ => none

/-- The bytes that a store of ST(0) to a number format gives (R488, R490, R491): the indefinite of an empty register
(R476), else what the conversion delivers; none where a pre-standard operand of the 80287 leaves them free (R474). -/
def State.numStored (s : State) (f : NumFmt) : Option (List Byte) :=
  if s.fpu.isEmpty 0#3 then some (leBytes f.bytes f.indefinite)
  else if s.preStandard [s.fpu.st 0#3] then none
  else
    match f.store s.n287 s.fpu.cw (s.fpu.st 0#3) with
    | .invalid v => some (leBytes f.bytes v)
    | .value v _ _ _ _ => some (leBytes f.bytes v)

/-- The bytes that FBSTP gives (R493, R476): eighteen decimal digits and the sign. -/
def State.bcdStored (s : State) : Option (List Byte) :=
  if s.fpu.isEmpty 0#3 then some bcdIndefinite
  else if s.preStandard [s.fpu.st 0#3] then none
  else
    match storeBcd s.fpu.cw (s.fpu.st 0#3) with
    | none => some bcdIndefinite
    | some r => some (bcdBytes 9 r.m ++ [if tSign (s.fpu.st 0#3) then 0x80#8 else 0#8])

/-- The bytes that a coprocessor store gives, and whether it pops. -/
def State.npxStored (s : State) : Instr → Option (List Byte) × Bool
  | .fstMem dbl _ => (s.numStored (realFmt dbl), false)
  | .fstpMem dbl _ => (s.numStored (realFmt dbl), true)
  | .fist word _ => (s.numStored (intFmt word), false)
  | .fistp word _ => (s.numStored (intFmt word), true)
  | .fistpM64 _ => (s.numStored .int64, true)
  | .fstpM80 _ => (some (leBytes 10 (if s.fpu.isEmpty 0#3 then realIndefinite else s.fpu.st 0#3).toNat), true)
  | .fbstp _ => (s.bcdStored, true)
  | _ => (none, false)

/-- The state after a coprocessor instruction: the coprocessor, its signals and the draws; the rest goes on. -/
def State.npxDone (s : State) (f : Fpu) (l : NpxLink) (d : Nat) : State := (((s.setFpu f).setLink l).setDraws d).advance

/-! Runs. -/

/-- An instruction boundary at which nothing is taken and an instruction starts: running, and either in the shadow of a
load of SS or without a trap, an NMI or an interrupt to take (R605, R620). -/
def State.quiet (s : State) : Bool :=
  s.ctl.activity == .running && s.env.nmiIn.isEmpty &&
  (s.ctl.shadow == .ss ||
    (!s.ctl.dbPending && (!s.ctl.nmiPending || s.ctl.nmiBlocked) &&
      (!s.flags.ie || s.ctl.shadow != .none || (!s.link.irq13 && s.env.irqIn.isEmpty))))

/-- The `n` bytes that the next fetch finds can be fetched: within CS, plain, and not stored since the last taken
transfer (R131, R117). -/
def State.fetches (s : State) : (n : Nat) → Bool
  | 0 => !s.paging
  | n + 1 =>
    let off := s.fetchOffset + n
    let lin := s.linear s.segs.cs (BitVec.ofNat 32 off)
    decide (off ≤ s.segs.cs.limit.toNat) && kindAt s.cfg.memmap (s.flat lin) == .ram &&
    (oldByte s.stored (s.flat lin)).isNone && s.fetches n

/-- The bytes at the program counter. -/
def State.codeAt (s : State) (n : Nat) : List Byte :=
  (List.range n).map (fun i =>
    memGet s.mem (s.flat (s.linear s.segs.cs (BitVec.ofNat 32 (s.fetchOffset + i)))))

/-- No LOCK prefix forbids the instruction (R135, R427). -/
def State.prefixesFit (s : State) (i : Instr) : Bool :=
  isPrefix i || !s.cur.lock ||
  (if s.has386 then lockable i else !(s.protMode && decide (s.flags.iopl.toNat < s.cpl.toNat)))

/-- The state in which the fetched instruction executes: its bytes are counted (R25). -/
def State.fetched (s : State) (n : Nat) : State := s.setCur { s.cur with len := s.cur.len + n }

/-- What every step keeps: memory in its canonical form within the physical space; a legal pair of processor and
coprocessor; PG only with PE, NW only with CD (R32); virtual-8086 mode only in protected mode; the flags a processor
does not have stay 0 (R28); the reserved bits of DR6 and DR7 stay 0 and no breakpoint is armed (D16); DS, ES, FS and GS
hold the rights of a code or data segment (R91, R50). -/
structure State.Inv (s : State) : Prop where
  memory : Memory.wf s.mem = true
  inRange : ∀ c ∈ s.mem, c.1 < 2 ^ s.cfg.physBits
  pair : Config.legalPair s.cfg.cpu s.cfg.npx = true
  paging : s.sys.cr0.pg = true → s.sys.cr0.pe = true
  caches : s.sys.cr0.nw = true → s.sys.cr0.cd = true
  virtual : s.flags.vm = true → s.sys.cr0.pe = true
  flags286 : s.has386 = false → s.flags.rf = false ∧ s.flags.vm = false
  flags386 : s.has486 = false → s.flags.ac = false
  dr6 : s.sys.dr6 &&& ~~~dr6Defined = 0#32
  dr7 : s.sys.dr7 &&& ~~~dr7Defined = 0#32
  unarmed : s.sys.dr7.extractLsb' 0 8 = 0#8
  dataRights : ∀ k ∈ [SReg.ds, .es, .fs, .gs], arSegment (s.segs.get k).access = true

end Sys2Proof.Machine
end

