-- ==== Sys2Proof/Certificates/Slice0/Obligations.lean ====
section
/-! DEFINITION. The statements for the provers. Where a statement gives the next state, it gives all of it: every part
that its term does not change is unchanged. Memory operands are reached with paging off and in RAM (`reaches` of
Safety); paging has statements of its own. The rules cited mark most operations as the spec's own general knowledge;
statements that rest on those are 'derived'. -/

open Sys2Proof Sys2Proof.Machine

/-! Data transfer. -/

/-- MOV in all its general forms (R200 to R203): the destination takes the source's value at the operand width, the
rest of the machine is unchanged. -/
def Obligations.MovCompletes : Prop :=
  ∀ (s : State) (w : Bool) (reg : RegNum) (rm : RM) (imm : Imm) (addr : Off),
    (s.rmWrites (s.opW w) rm = true →
      exec (.movRmReg w reg rm) s = .next (s.rmPut (s.opW w) rm (s.reg (s.opW w) reg)).advance) ∧
    (s.rmReads (s.opW w) rm = true →
      exec (.movRegRm w reg rm) s = .next (s.regPut (s.opW w) reg (s.rmVal (s.opW w) rm)).advance) ∧
    (s.rmWrites (s.opW w) rm = true →
      exec (.movRmImm w rm imm) s = .next (s.rmPut (s.opW w) rm (Imm.val (s.opW w) imm)).advance) ∧
    exec (.movRegImm w reg imm) s = .next (s.regPut (s.opW w) reg (Imm.val (s.opW w) imm)).advance ∧
    (s.reaches s.directSeg (Off.val addr) (s.opW w).bytes false (s.opW w).bytes = true →
      exec (.movAccMem w addr) s =
        .next (s.regPut (s.opW w) rAX (s.memVal (s.opW w) s.directSeg (Off.val addr))).advance) ∧
    (s.reaches s.directSeg (Off.val addr) (s.opW w).bytes true (s.opW w).bytes = true →
      exec (.movMemAcc w addr) s =
        .next (s.memPut (s.opW w) s.directSeg (Off.val addr) (s.reg (s.opW w) rAX)).advance)

/-- MOVSX, MOVZX and LEA (R206, R207, R223); LEA accesses no memory. With LEA, where a memory operand stands: the
tables of R142 to R144 written out, in whole numbers taken modulo 2^16 or 2^32 (R82), and the segment of R81 with the
override. The forms the encoding does not admit have no row; index 100 with ss not 00 has none either (R144 calls it
undefined, log entry 55), and LEA completes there too. -/
def Obligations.ExtendCompletes : Prop :=
  ∀ (s : State) (w : Bool) (reg : RegNum) (rm : RM) (mem : MemOp),
    let x16 (i : RegNum) : Int := (s.reg .w16 i).toNat
    let x32 (i : RegNum) : Int := (s.reg .w32 i).toNat
    let sum16 (r : BitVec 3) : Int :=
      match r.toNat with
      | 0 => x16 rBX + x16 rSI
      | 1 => x16 rBX + x16 rDI
      | 2 => x16 rBP + x16 rSI
      | 3 => x16 rBP + x16 rDI
      | 4 => x16 rSI
      | 5 => x16 rDI
      | 6 => x16 rBP
      | _ => x16 rBX
    let scaled (ss : BitVec 2) (i : BitVec 3) : Int :=
      if i = 4#3 then 0
      else
        match ss.toNat with
        | 0 => x32 i
        | 1 => 2 * x32 i
        | 2 => 4 * x32 i
        | _ => 8 * x32 i
    let at16 (n : Int) : Option (BitVec 32) := some (BitVec.ofInt 32 (n % 65536))
    let at32 (n : Int) : Option (BitVec 32) := some (BitVec.ofInt 32 (n % 4294967296))
    let offset : Option (BitVec 32) :=
      match mem with
      | .a16 r .none => at16 (sum16 r)
      | .a16 r (.d8 v) => at16 (sum16 r + v.toInt)
      | .a16 r (.d16 v) => at16 (sum16 r + v.toNat)
      | .a16 _ (.d32 _) => none
      | .direct16 v => at16 v.toNat
      | .a32 b .none => at32 (x32 b)
      | .a32 b (.d8 v) => at32 (x32 b + v.toInt)
      | .a32 b (.d32 v) => at32 (x32 b + v.toNat)
      | .a32 _ (.d16 _) => none
      | .direct32 v => at32 v.toNat
      | .sib ss i b d =>
        if i = 4#3 ∧ ss ≠ 0#2 then none
        else
          match d with
          | .none => at32 (x32 b + scaled ss i)
          | .d8 v => at32 (x32 b + scaled ss i + v.toInt)
          | .d32 v => at32 (x32 b + scaled ss i + v.toNat)
          | .d16 _ => none
      | .sibNoBase ss i v => if i = 4#3 ∧ ss ≠ 0#2 then none else at32 (scaled ss i + v.toNat)
    let stackBased : Bool :=
      match mem with
      | .a16 r _ => r.toNat == 2 || r.toNat == 3 || r.toNat == 6
      | .direct16 _ => false
      | .a32 b _ => b == rBP
      | .direct32 _ => false
      | .sib _ _ b _ => b == rSP || b == rBP
      | .sibNoBase _ _ _ => false
    let segment : SReg :=
      match s.cur.seg with
      | some k => k
      | none => if stackBased then .ss else .ds
    s.memSeg mem = segment ∧
    (∀ a : BitVec 32, offset = some a →
      s.ea mem = a ∧ exec (.lea reg mem) s = .next (s.regPut s.os.width reg (a.setWidth s.os.width.bits)).advance) ∧
    (s.rmReads (extSource w) rm = true →
      exec (.movsx w reg rm) s =
        .next (s.regPut s.os.width reg ((s.rmVal (extSource w) rm).signExtend s.os.width.bits)).advance ∧
      exec (.movzx w reg rm) s =
        .next (s.regPut s.os.width reg ((s.rmVal (extSource w) rm).setWidth s.os.width.bits)).advance) ∧
    exec (.lea reg mem) s = .next (s.regPut s.os.width reg ((s.ea mem).setWidth s.os.width.bits)).advance

/-- MOV to a segment register and the pointer loads in real-address and virtual-8086 mode (R204, R230 to R234, R91):
the selector, and the base sixteen times the selector; the limit and the rights are kept. A load of SS by MOV opens
the interrupt shadow (R620) when none is open. MOV from a segment register (R205). -/
def Obligations.SegmentMovesComplete : Prop :=
  ∀ (s : State) (k : SReg) (reg : RegNum) (rm : RM) (m : MemOp),
    let real (t : State) (k : SReg) (sel : BitVec 16) : State :=
      t.setSegs (t.segs.put k ((s.segs.get k).toReal sel))
    let far : Bool := s.reaches (s.memSeg m) (s.ea m) s.os.width.bytes false s.os.width.bytes &&
      s.reaches (s.memSeg m) (s.ea m + BitVec.ofNat 32 s.os.width.bytes) 2 false 2
    let off : Val s.os.width := s.memVal s.os.width (s.memSeg m) (s.ea m)
    let sel : BitVec 16 := s.memVal .w16 (s.memSeg m) (s.ea m + BitVec.ofNat 32 s.os.width.bytes)
    let loaded (k : SReg) : State := (real s k sel).regPut s.os.width reg off
    (s.protMode = false → s.rmReads .w16 rm = true → k ≠ .ss → k ≠ .cs →
      exec (.movSregRm k rm) s = .next (real s k (s.rmVal .w16 rm)).advance) ∧
    (s.protMode = false → s.rmReads .w16 rm = true →
      exec (.movSregRm .ss rm) s = .next ((real s .ss (s.rmVal .w16 rm)).setCtl
        (if s.ctl.prevShadow = .none then { s.ctl with shadow := .ss, dbPending := false } else s.ctl)).advance) ∧
    (s.os = .s16 → exec (.movRmSreg k (.reg reg)) s = .next (s.regPut .w16 reg (s.segs.get k).sel).advance) ∧
    (s.os = .s32 → exec (.movRmSreg k (.reg reg)) s = .next ((s.setDraws (s.draws + 1)).regPut .w32 reg
      (Config.freeWord s.draws ++ (s.segs.get k).sel)).advance) ∧
    (s.reaches (s.memSeg m) (s.ea m) 2 true 2 = true →
      exec (.movRmSreg k (.mem m)) s = .next (s.memPut .w16 (s.memSeg m) (s.ea m) (s.segs.get k).sel).advance) ∧
    (s.protMode = false → far = true →
      exec (.lds reg m) s = .next (loaded .ds).advance ∧ exec (.les reg m) s = .next (loaded .es).advance ∧
      exec (.lfs reg m) s = .next (loaded .fs).advance ∧ exec (.lgs reg m) s = .next (loaded .gs).advance ∧
      exec (.lss reg m) s = .next (loaded .ss).advance)

/-- Loads of a segment register in protected mode, by MOV, by POP and by the pointer loads (R91, R87, R93, R204, R215,
R230 to R234): a null selector, but in SS, leaves the register unusable; else the hidden part comes from the descriptor
of the global or the local table, whose accessed bit is set in memory. POP then moves the stack pointer, at the width of
the stack segment after the load (R112). MOV and POP to SS open the interrupt shadow (R620). -/
def Obligations.DataSegmentLoad : Prop :=
  ∀ (s : State) (k : SReg) (sel : BitVec 16) (d : Desc) (reg : RegNum) (rm : RM) (m : MemOp),
    let w := s.os.width
    let t : State := if selNull sel then s else s.marked d
    let r : SegReg := if selNull sel then { s.segs.get k with sel := sel, usable := false } else d.asSeg sel
    let loaded : State := t.setSegs (t.segs.put k r)
    let shadowed : State :=
      if k = .ss ∧ s.ctl.prevShadow = .none then loaded.setCtl { s.ctl with shadow := .ss, dbPending := false }
      else loaded
    let popIns : Instr :=
      match k with
      | .es => .popEs
      | .cs => .nop
      | .ss => .popSs
      | .ds => .popDs
      | .fs => .popFs
      | .gs => .popGs
    let ptrIns : Instr :=
      match k with
      | .es => .les reg m
      | .cs => .nop
      | .ss => .lss reg m
      | .ds => .lds reg m
      | .fs => .lfs reg m
      | .gs => .lgs reg m
    s.protMode = true → k ≠ .cs →
    (selNull sel = true → k ≠ .ss) →
    (selNull sel = false → s.names sel d = true ∧ arPresent d.access = true ∧
      (k = .ss → selRpl sel = s.cpl ∧ arWritable d.access = true ∧ arDpl d.access = s.cpl) ∧
      (k ≠ .ss → arReadable d.access = true ∧ (arConforming d.access = true ∨
        (s.cpl.toNat ≤ (arDpl d.access).toNat ∧ (selRpl sel).toNat ≤ (arDpl d.access).toNat)))) →
    (s.rmReads .w16 rm = true → s.rmVal .w16 rm = sel → exec (.movSregRm k rm) s = .next shadowed.advance) ∧
    (s.pops w = true → (s.popVal w).setWidth 16 = sel →
      exec popIns s = .next (shadowed.popped w).advance) ∧
    (s.reaches (s.memSeg m) (s.ea m) w.bytes false w.bytes = true →
      s.reaches (s.memSeg m) (s.ea m + BitVec.ofNat 32 w.bytes) 2 false 2 = true →
      s.memVal .w16 (s.memSeg m) (s.ea m + BitVec.ofNat 32 w.bytes) = sel →
      exec ptrIns s = .next (loaded.regPut w reg (s.memVal w (s.memSeg m) (s.ea m))).advance)

/-- PUSH in all its forms, and PUSHF (R208 to R211, R247): the stack pointer falls by the operand's bytes and the
value stands there; PUSH SP stores the pointer from before. A selector under a 32-bit operand size stands below an
undefined half (U4). The image that PUSHF pushes, bit by bit (R28): the flags, the fixed bits, VM and RF as 0. -/
def Obligations.PushCompletes : Prop :=
  ∀ (s : State) (reg : RegNum) (rm : RM) (sx : Bool) (imm : Imm) (k : SReg),
    let f := s.flags
    let bit (b : Bool) : BitVec 1 := BitVec.ofBool b
    let image : BitVec 32 :=
      0#13 ++ bit f.ac ++ 0#1 ++ 0#1 ++ 0#1 ++ bit f.nt ++ f.iopl ++ bit f.ovf ++ bit f.df ++ bit f.ie ++ bit f.tf ++
      bit f.sf ++ bit f.zf ++ 0#1 ++ bit f.af ++ 0#1 ++ bit f.pf ++ 1#1 ++ bit f.cf
    s.pushes s.os.width = true →
    (s.rmReads s.os.width rm = true →
      exec (.pushRm rm) s = .next (s.pushed s.os.width (s.rmVal s.os.width rm)).advance) ∧
    exec (.pushReg reg) s = .next (s.pushed s.os.width (s.reg s.os.width reg)).advance ∧
    exec (.pushImm sx imm) s = .next (s.pushed s.os.width (Imm.val s.os.width imm)).advance ∧
    (s.os = .s16 →
      exec (.pushSreg k) s = .next (s.pushed .w16 (s.segs.get k).sel).advance ∧
      exec .pushFs s = .next (s.pushed .w16 s.segs.fs.sel).advance ∧
      exec .pushGs s = .next (s.pushed .w16 s.segs.gs.sel).advance) ∧
    (s.os = .s32 →
      let t := s.setDraws (s.draws + 1)
      exec (.pushSreg k) s = .next (t.pushed .w32 (Config.freeWord s.draws ++ (s.segs.get k).sel)).advance ∧
      exec .pushFs s = .next (t.pushed .w32 (Config.freeWord s.draws ++ s.segs.fs.sel)).advance ∧
      exec .pushGs s = .next (t.pushed .w32 (Config.freeWord s.draws ++ s.segs.gs.sel)).advance) ∧
    (s.v86 = false ∨ s.flags.iopl = 3#2 →
      exec .pushf s = .next (s.pushed s.os.width (image.setWidth s.os.width.bits)).advance)

/-- POP to a register or memory, and POPF (R213, R214, R246): the value at the top of the stack, the pointer moved
first (the address of a memory destination is computed after it). POP of a segment register in real-address and
virtual-8086 mode (R215); POP SS opens the interrupt shadow (R620). The flags POPF loads, bit by bit (R246, R627): IF
where CPL <= IOPL or outside protection, IOPL at level 0, and neither IOPL nor NT on the 80286 in real-address mode;
with a 32-bit operand size RF is cleared and AC loaded on the 80486. -/
def Obligations.PopCompletes : Prop :=
  ∀ (s : State) (reg : RegNum) (rm : RM),
    s.pops s.os.width = true →
    let w := s.os.width
    let t := s.popped w
    let real (k : SReg) : State :=
      (s.setSegs (s.segs.put k ((s.segs.get k).toReal (itemSel (s.popVal w))))).setGpr t.gpr
    let v : BitVec 32 := (s.popVal w).setWidth 32
    let real286 : Bool := s.cfg.cpu == .p286 && !s.sys.cr0.pe
    let wide486 : Bool := s.os == .s32 && s.cfg.cpu == .p486
    let f := s.flags
    let loaded : Flags :=
      { cf := v.getLsbD 0, pf := v.getLsbD 2, af := v.getLsbD 4, zf := v.getLsbD 6, sf := v.getLsbD 7
        tf := v.getLsbD 8, df := v.getLsbD 10, ovf := v.getLsbD 11
        ie := if s.cpl.toNat ≤ f.iopl.toNat ∨ s.sys.cr0.pe = false then v.getLsbD 9 else f.ie
        iopl := if s.cpl = 0#2 ∧ real286 = false then v.extractLsb' 12 2 else f.iopl
        nt := if real286 then f.nt else v.getLsbD 14
        rf := if s.os = .s32 then false else f.rf
        vm := f.vm
        ac := if wide486 then v.getLsbD 18 else f.ac }
    (t.rmWrites w rm = true → exec (.popRm rm) s = .next (t.rmPut w rm (s.popVal w)).advance) ∧
    exec (.popReg reg) s = .next (t.regPut w reg (s.popVal w)).advance ∧
    (s.v86 = false ∨ s.flags.iopl = 3#2 →
      exec .popf s = .next (t.setFlags loaded).advance) ∧
    (s.protMode = false →
      exec .popEs s = .next (real .es).advance ∧ exec .popDs s = .next (real .ds).advance ∧
      exec .popFs s = .next (real .fs).advance ∧ exec .popGs s = .next (real .gs).advance) ∧
    (s.protMode = false →
      exec .popSs s = .next ((real .ss).setCtl
        (if s.ctl.prevShadow = .none then { s.ctl with shadow := .ss, dbPending := false } else s.ctl)).advance)

/-- PUSHA and POPA (R212, R216): AX, CX, DX, BX, the stack pointer from before the instruction, BP, SI, DI are pushed
in this order; DI, SI, BP, one slot discarded, BX, DX, CX, AX are popped, and the stack pointer has moved over eight
slots. -/
def Obligations.PushAllPopAllComplete : Prop :=
  ∀ (s : State),
    let w := s.os.width
    let items : List (Val w) :=
      [s.reg w rAX, s.reg w rCX, s.reg w rDX, s.reg w rBX, s.reg w rSP, s.reg w rBP, s.reg w rSI, s.reg w rDI]
    (pushaWraps s = false → s.holds w 8 = true → s.pushesAll w items = true →
      exec .pusha s = .next (s.pushedAll w items).advance) ∧
    (s.popsTimes w 8 = true →
      exec .popa s = .next ((((((((s.poppedTimes w 8).regPut w rDI (s.popVals w 0)).regPut w rSI (s.popVals w 1)).regPut
        w rBP (s.popVals w 2)).regPut w rBX (s.popVals w 4)).regPut w rDX (s.popVals w 5)).regPut w rCX
        (s.popVals w 6)).regPut w rAX (s.popVals w 7)).advance)

/-- XCHG and XLAT (R217, R218, R338). -/
def Obligations.ExchangeCompletes : Prop :=
  ∀ (s : State) (w : Bool) (reg : RegNum) (rm : RM),
    (s.rmBoth (s.opW w) rm = true →
      exec (.xchgRmReg w reg rm) s =
        .next ((s.rmPut (s.opW w) rm (s.reg (s.opW w) reg)).regPut (s.opW w) reg (s.rmVal (s.opW w) rm)).advance) ∧
    exec (.xchgAcc reg) s =
      .next ((s.regPut s.os.width rAX (s.reg s.os.width reg)).regPut s.os.width reg (s.reg s.os.width rAX)).advance ∧
    (s.reaches s.stringSeg s.xlatOff 1 false 1 = true →
      exec .xlat s = .next (s.regPut .w8 rAL (s.memVal .w8 s.stringSeg s.xlatOff)).advance)

/-- IN and OUT (R219 to R222, R72, R627, R628): a permitted access to a port other than F0 and F8 to FF reads what the
platform supplies into the accumulator, or leaves the accumulator in the output. F1 is among these ports by the model's
choice (log entry 24): a read of it asks the platform, and a write of any value and width resets an external coprocessor
(`State.npxWasReset`). -/
def Obligations.PortsComplete : Prop :=
  ∀ (s : State) (w : Bool) (imm : BitVec 8) (port : BitVec 16),
    let wd := s.opW w
    s.ioAllows port wd.bytes = true → npxPort port wd.bytes = false →
    (port = imm.setWidth 16 →
      exec (.inPort w imm) s = .next (s.portRead.regPut wd rAX (s.portVal port wd)).advance ∧
      exec (.outPort w imm) s = .next (s.portWrote port wd (s.reg wd rAX)).advance) ∧
    (port = s.reg .w16 rDX →
      exec (.inDx w) s = .next (s.portRead.regPut wd rAX (s.portVal port wd)).advance ∧
      exec (.outDx w) s = .next (s.portWrote port wd (s.reg wd rAX)).advance)

/-- The coprocessor's ports, in every mode that allows the access, by IN and OUT in both forms and by INS and OUTS (R643,
R663, R562, R641): an 8-bit write of 0 to F0 clears the busy latch and the request; a write to F1 resets an 80287 or
80387, whose error the reset makes active, and does nothing on the 80486. R643 speaks of data 0 at F1: that any value and
any width resets is the model's reading (log entry 24), and the registers take the reset values of log entry 5. Any other
access that touches F0 or F8 to FF, also one of several bytes that starts below, is refused. -/
def Obligations.CoprocessorPorts : Prop :=
  ∀ (s : State) (w : Bool) (imm : BitVec 8) (port : BitVec 16),
    let wd := s.opW w
    let hits (lo hi : Nat) : Prop := port.toNat ≤ hi ∧ lo < port.toNat + wd.bytes
    let clears (v : Val wd) : Prop := port = 0xF0#16 ∧ wd.bytes = 1 ∧ v.toNat = 0
    let noRead : Prop := hits 0xF8 0xFF ∨ hits 0xF0 0xF0
    let noWrite (v : Val wd) : Prop := hits 0xF8 0xFF ∨ (hits 0xF0 0xF0 ∧ ¬ clears v)
    let refused : Host.Outcome State Fault Refusal := .refused .coprocessorPort
    let cleared : State := s.setLink ⟨false, false⟩
    let writes (i : Instr) (v : Val wd) (next : State → State) : Prop :=
      (clears v → exec i s = .next (next cleared).advance) ∧
      (port = 0xF1#16 → exec i s = .next (next s.npxWasReset).advance) ∧ (noWrite v → exec i s = refused)
    s.ioAllows port wd.bytes = true →
    (port = imm.setWidth 16 → writes (.outPort w imm) (s.reg wd rAX) id ∧ (noRead → exec (.inPort w imm) s = refused)) ∧
    (port = s.reg .w16 rDX →
      writes (.outDx w) (s.reg wd rAX) id ∧ (noRead → exec (.inDx w) s = refused) ∧
      (s.sourceReads wd = true → writes (.outs w) (s.sourceVal wd) (fun t => t.stepped rSI wd) ∧
        (s.count ≠ 0#32 → noWrite (s.sourceVal wd) → exec (.repOuts w) s = refused)) ∧
      (s.destReaches wd true = true → noRead →
        exec (.ins w) s = refused ∧ (s.count ≠ 0#32 → exec (.repIns w) s = refused)))

/-! Arithmetic and logic. -/

/-- The eight two-operand operations between a register and a register or memory (R261 to R267, R310 to R313, R153):
the destination that d selects takes the result (CMP writes nothing), the six flags are those of the operation; AF
is a free value after the logic operations. -/
def Obligations.AluRegisterForms : Prop :=
  ∀ (op : AluOp) (s : State) (d w : Bool) (reg : RegNum) (rm : RM),
    let wd := s.opW w
    let dst : RM := if d then .reg reg else rm
    let src : RM := if d then rm else .reg reg
    let o := op.out (s.rmVal wd dst) (s.rmVal wd src) s.flags.cf (if op.logic then Config.freeBit s.draws else false)
    let t := s.flagged (s.flags.status o) (if op.logic then 1 else 0)
    s.rmReads wd rm = true → (op.writes = true → d = false → s.rmWrites wd rm = true) →
    exec (op.rmReg d w reg rm) s = .next (if op.writes then t.rmPut wd dst o.r else t).advance

/-- The immediate forms of the eight operations (R261 to R267, R310 to R313, R154, R22). -/
def Obligations.AluImmediateForms : Prop :=
  ∀ (op : AluOp) (s : State) (sx w : Bool) (rm : RM) (imm : Imm),
    let wd := s.opW w
    let res (dst : RM) : State :=
      let o := op.out (s.rmVal wd dst) (Imm.val wd imm) s.flags.cf
        (if op.logic then Config.freeBit s.draws else false)
      let t := s.flagged (s.flags.status o) (if op.logic then 1 else 0)
      if op.writes then t.rmPut wd dst o.r else t
    (s.rmReads wd rm = true → (op.writes = true → s.rmWrites wd rm = true) →
      exec (op.rmImm sx w rm imm) s = .next (res rm).advance) ∧
    exec (op.accImm w imm) s = .next (res (.reg rAX)).advance

/-- The six flags of a sum and of a difference follow R260 exactly: as natural numbers, the sum with its carry, the
difference with its borrow, and those of the low four bits; signed overflow; zero, sign and the parity of the low
byte. The eight operations (R261 to R267, R310, R312, R313): sums and differences without or with the carry, and AND, OR
and XOR bit by bit, which clear CF and OF and leave AF the free value they are given. -/
def Obligations.AddSubFlags : Prop :=
  ∀ (w : Width) (a b : Val w) (c af : Bool),
    let s := addN a b c
    let d := subN a b c
    let zsp (o : AluOut w.bits) : Prop :=
      (o.zf = true ↔ o.r.toNat = 0) ∧ (o.sf = true ↔ o.r.toInt < 0) ∧
      (o.pf = true ↔ ((List.range 8).filter (fun i => o.r.getLsbD i)).length % 2 = 0)
    let bitwise (op : AluOp) (f : Bool → Bool → Bool) : Prop :=
      let o := op.out a b c af
      (∀ i, i < w.bits → o.r.getLsbD i = f (a.getLsbD i) (b.getLsbD i)) ∧ o.cf = false ∧ o.ovf = false ∧ o.af = af ∧
        zsp o
    (s.r.toNat + (if s.cf then 2 ^ w.bits else 0) = a.toNat + b.toNat + (if c then 1 else 0)) ∧
    (d.r.toNat + b.toNat + (if c then 1 else 0) = a.toNat + (if d.cf then 2 ^ w.bits else 0)) ∧
    (s.ovf = true ↔ a.toInt + b.toInt + (if c then 1 else 0) ≠ s.r.toInt) ∧
    (d.ovf = true ↔ a.toInt - b.toInt - (if c then 1 else 0) ≠ d.r.toInt) ∧ zsp s ∧ zsp d ∧
    (s.af = true ↔ 16 ≤ a.toNat % 16 + b.toNat % 16 + (if c then 1 else 0)) ∧
    (d.af = true ↔ a.toNat % 16 < b.toNat % 16 + (if c then 1 else 0)) ∧
    AluOp.out .add a b c af = addN a b false ∧ AluOp.out .adc a b c af = s ∧
    AluOp.out .sub a b c af = subN a b false ∧ AluOp.out .cmp a b c af = subN a b false ∧
    AluOp.out .sbb a b c af = d ∧
    bitwise .and (fun x y => x && y) ∧ bitwise .or (fun x y => x || y) ∧ bitwise .xor (fun x y => x != y)

/-- INC, DEC, NEG, NOT and TEST (R263, R266, R268, R314, R311): INC and DEC leave CF, NOT leaves every flag, TEST
writes nothing but flags. -/
def Obligations.UnaryFormsComplete : Prop :=
  ∀ (s : State) (w : Bool) (reg : RegNum) (rm : RM) (imm : Imm),
    let wd := s.opW w
    let ow := s.os.width
    let inc (wd : Width) (rm : RM) (dec : Bool) : State :=
      let o := if dec then subN (s.rmVal wd rm) 1 false else addN (s.rmVal wd rm) 1 false
      (s.rmPut wd rm o.r).setFlags (s.flags.statusKeepCf o)
    let test (a b : Val wd) : State := s.flagged (s.flags.status (logicN (a &&& b) (Config.freeBit s.draws))) 1
    (s.rmBoth wd rm = true →
      exec (.incRm w rm) s = .next (inc wd rm false).advance ∧
      exec (.decRm w rm) s = .next (inc wd rm true).advance ∧
      exec (.neg w rm) s = .next ((s.rmPut wd rm (subN 0 (s.rmVal wd rm) false).r).setFlags
        (s.flags.status (subN 0 (s.rmVal wd rm) false))).advance ∧
      exec (.notRm w rm) s = .next (s.rmPut wd rm (~~~ s.rmVal wd rm)).advance) ∧
    exec (.incReg reg) s = .next (inc ow (.reg reg) false).advance ∧
    exec (.decReg reg) s = .next (inc ow (.reg reg) true).advance ∧
    (s.rmReads wd rm = true →
      exec (.testRmReg w reg rm) s = .next (test (s.rmVal wd rm) (s.reg wd reg)).advance ∧
      exec (.testRmImm w rm imm) s = .next (test (s.rmVal wd rm) (Imm.val wd imm)).advance) ∧
    exec (.testAccImm w imm) s = .next (test (s.reg wd rAX) (Imm.val wd imm)).advance

/-- The decimal adjustments and the conversions (R269 to R272, R279 to R282): the accumulator and the flags each rule
gives; the other status flags are free values. After the sum or difference of two packed decimal bytes what DAA or DAS
leaves is packed decimal, each digit at most 9, and with its carry the decimal sum or difference. -/
def Obligations.AdjustCompletes : Prop :=
  ∀ (s : State) (x y : BitVec 8),
    let dec (v : BitVec 8) : Nat := v.toNat / 16 * 10 + v.toNat % 16
    let packed (v : BitVec 8) : Prop := v.toNat % 16 ≤ 9 ∧ v.toNat / 16 ≤ 9
    let p := daaOut (addN x y false).r (addN x y false).af (addN x y false).cf
    let q := dasOut (subN x y false).r (subN x y false).af (subN x y false).cf
    let al : BitVec 8 := s.reg .w8 rAL
    let ah : BitVec 8 := s.reg .w8 rAH
    let ax : BitVec 16 := s.reg .w16 rAX
    let adj : Bool := decide (9 < al.toNat % 16) || s.flags.af
    let low (v : BitVec 16) : BitVec 16 := v &&& 0xFF0F#16
    let added : BitVec 16 := if s.has386 then ax + 0x0106#16 else (ah + 1#8) ++ (al + 6#8)
    let taken : BitVec 16 := if s.has386 then ax - 0x0106#16 else (ah - 1#8) ++ (al - 6#8)
    (∃ f : Flags, f.sameControl s.flags = true ∧ f.af = adj ∧ f.cf = adj ∧
      exec .aaa s = .next ((s.regPut .w16 rAX (low (if adj then added else ax))).flagged f 4).advance) ∧
    (∃ f : Flags, f.sameControl s.flags = true ∧ f.af = adj ∧ f.cf = adj ∧
      exec .aas s = .next ((s.regPut .w16 rAX (low (if adj then taken else ax))).flagged f 4).advance) ∧
    (∃ f : Flags, f.sameControl s.flags = true ∧ f.af = (daaOut al s.flags.af s.flags.cf).2.1 ∧
      f.cf = (daaOut al s.flags.af s.flags.cf).2.2 ∧ f.zf = zfOf (daaOut al s.flags.af s.flags.cf).1 ∧
      f.sf = sfOf (daaOut al s.flags.af s.flags.cf).1 ∧ f.pf = pfOf (daaOut al s.flags.af s.flags.cf).1 ∧
      exec .daa s = .next ((s.regPut .w8 rAL (daaOut al s.flags.af s.flags.cf).1).flagged f 1).advance) ∧
    (∃ f : Flags, f.sameControl s.flags = true ∧ f.af = (dasOut al s.flags.af s.flags.cf).2.1 ∧
      f.cf = (dasOut al s.flags.af s.flags.cf).2.2 ∧ f.zf = zfOf (dasOut al s.flags.af s.flags.cf).1 ∧
      f.sf = sfOf (dasOut al s.flags.af s.flags.cf).1 ∧ f.pf = pfOf (dasOut al s.flags.af s.flags.cf).1 ∧
      exec .das s = .next ((s.regPut .w8 rAL (dasOut al s.flags.af s.flags.cf).1).flagged f 1).advance) ∧
    (∃ f : Flags, f.sameControl s.flags = true ∧ f.zf = zfOf (al + ah * 10#8) ∧ f.sf = sfOf (al + ah * 10#8) ∧
      f.pf = pfOf (al + ah * 10#8) ∧
      exec .aad s = .next ((s.regPut .w16 rAX (0#8 ++ (al + ah * 10#8))).flagged f 3).advance) ∧
    (∃ f : Flags, f.sameControl s.flags = true ∧ f.zf = zfOf (al % 10#8) ∧ f.sf = sfOf (al % 10#8) ∧
      f.pf = pfOf (al % 10#8) ∧
      exec .aam s = .next ((s.regPut .w16 rAX ((al / 10#8) ++ (al % 10#8))).flagged f 3).advance) ∧
    (s.os = .s16 →
      exec .cbw s = .next (s.regPut .w16 rAX (al.signExtend 16)).advance ∧
      exec .cwd s = .next (s.regPut .w16 rDX (if ax.msb then 0xFFFF#16 else 0#16)).advance) ∧
    (s.os = .s32 →
      exec .cbw s = .next (s.regPut .w32 rAX (ax.signExtend 32)).advance ∧
      exec .cwd s = .next (s.regPut .w32 rDX
        (if (s.reg .w32 rAX).msb then 0xFFFFFFFF#32 else 0#32)).advance) ∧
    (packed x → packed y → packed p.1 ∧ dec p.1 + (if p.2.2 then 100 else 0) = dec x + dec y ∧
      packed q.1 ∧ dec q.1 + dec y = dec x + (if q.2.2 then 100 else 0))

/-! The coprocessor's comparisons and functions. -/

/-- The comparisons (R496 to R505, R479, R476), and what FSQRT, FSCALE, FPREM, FPREM1, FRNDINT and FXTRACT compute (R522
to R527) on integers, where the results are exact. A comparison sets C3, C2, C0 to the order of ST(0) and the source, or
to 'unordered' where one is no number; IE is raised then, but for quiet NaNs in FUCOM, FUCOMP and FUCOMPP, and DE for a
denormal, also beside a masked invalid operation (log entry 51). An infinity of the 80287 in projective mode is unordered
(R474; U21 read by log entry 51). An invalid operation that is not masked leaves the codes and pops nothing. -/
def Obligations.NpxComparisonsAndFunctions : Prop :=
  ∀ (s : State) (k : BitVec 3) (x int pop : Bool) (m : MemOp) (a b : Int) (c : Nat),
    let p := s.fpu
    let top := p.status.top
    let st (j : BitVec 3) : BitVec 80 := p.regs.get (top + j)
    let tags (n : Nat) : Oct Tag :=
      match n with
      | 0 => p.tags
      | 1 => p.tags.set top .empty
      | _ => (p.tags.set top .empty).set (top + 1#3) .empty
    let order (r : Cmp) : Bool × Bool × Bool :=
      match r with
      | .greater => (false, false, false)
      | .less => (false, false, true)
      | .equal => (true, false, false)
      | .unordered => (true, true, true)
    let row (t : FpuStatus) : Bool × Bool × Bool := (t.c3, t.c2, t.c0)
    let compares (i : Instr) (quiet : Bool) (v : BitVec 80) (dv : Bool) (n : Nat) : Prop :=
      let u := st 0#3
      let nan : Bool := tIsNan u || tIsNan v
      let proj : Bool := s.n287 && !p.cw.getLsbD 12 && (tIsInf u || tIsInf v)
      let wild : Bool := tUnsupported u || tUnsupported v
      let bad : Bool := wild || tIsSignaling u || tIsSignaling v || (nan && (!quiet || s.n287)) || proj
      let den : Bool := tIsDenormal u || dv
      let r : Cmp := if wild || nan || proj then .unordered else cmpValues u v
      (s.n287 = true → wild = false) → (den = true → s.npxMask 1 = true) →
      ∃ (f : Fpu) (l : NpxLink) (d : Nat), exec i s = .next (s.npxDone f l d) ∧ f.regs = p.regs ∧
        f.status.ie = (p.status.ie || bad) ∧
        (if bad = true ∧ s.npxMask 0 = false then
          row f.status = row p.status ∧ f.status.top = top ∧ f.tags = p.tags ∧ f.status.es = true
        else row f.status = order r ∧ f.status.top = top + BitVec.ofNat 3 n ∧ f.tags = tags n ∧
          f.status.de = (p.status.de || den) ∧ (s.n287 = false → f.status.c1 = false))
    let empties (i : Instr) (n : Nat) : Prop :=
      s.npxMask 0 = true → s.npxMask 1 = true →
      ∃ (f : Fpu) (l : NpxLink) (d : Nat), exec i s = .next (s.npxDone f l d) ∧ f.regs = p.regs ∧
        row f.status = order .unordered ∧ f.status.ie = true ∧ f.status.top = top + BitVec.ofNat 3 n
    let fmt : NumFmt := if int then intFmt x else realFmt x
    let number := fmt.load false (leNat (s.bytesAt (s.linOf (s.memSeg m) (s.ea m)) fmt.bytes))
    let memIns : Instr :=
      match int, pop with
      | false, false => .fcomMem x m
      | false, true => .fcompMem x m
      | true, false => .ficom x m
      | true, true => .ficomp x m
    let pops : Nat := if pop then 1 else 0
    let gives (i : Instr) (v : BitVec 80) (codes : FpuStatus → Prop) : Prop :=
      ∃ (f : Fpu) (l : NpxLink) (d : Nat), exec i s = .next (s.npxDone f l d) ∧ f.regs = p.regs.set top v ∧
        f.tags = p.tags.set top (tTag v) ∧ f.status.top = top ∧ codes f.status
    let small (n : Int) : Prop := n.natAbs < 2 ^ 64
    let signed (n : Int) : BitVec 80 := if n = 0 then tZero (a < 0) else ofInt n
    let up : Bool := decide (b.natAbs < 2 * (a.natAbs % b.natAbs) ∨
      (2 * (a.natAbs % b.natAbs) = b.natAbs ∧ a.natAbs / b.natAbs % 2 = 1))
    let q1 : Nat := a.natAbs / b.natAbs + (if up then 1 else 0)
    let rest : Int := (a.natAbs : Int) - q1 * b.natAbs
    let ints : Int :=
      match (p.cw.extractLsb' 10 2).toNat with
      | 0 => if a % 2 = 0 then a / 2 else if a / 2 % 2 = 0 then a / 2 else a / 2 + 1
      | 1 => a / 2
      | 2 => -((-a) / 2)
      | _ => a.tdiv 2
    s.npxReady = true →
    (p.isEmpty 0#3 = false →
      compares .ftst false 0#80 false 0 ∧
      (s.npxReaches m fmt.bytes false fmt.bytes = true → compares memIns false number.1 number.2 pops)) ∧
    (p.isEmpty 0#3 = true →
      empties .ftst 0 ∧ (s.npxReaches m fmt.bytes false fmt.bytes = true → empties memIns pops)) ∧
    (p.isEmpty 0#3 = false → p.isEmpty k = false →
      compares (.fcomSt k) false (st k) (tIsDenormal (st k)) 0 ∧
      compares (.fcompSt k) false (st k) (tIsDenormal (st k)) 1 ∧
      compares (.fucom k) true (st k) (tIsDenormal (st k)) 0 ∧
      compares (.fucomp k) true (st k) (tIsDenormal (st k)) 1 ∧
      (k = 1#3 → compares .fcompp false (st k) (tIsDenormal (st k)) 2 ∧
        compares .fucompp true (st k) (tIsDenormal (st k)) 2)) ∧
    (p.isEmpty 0#3 = true ∨ p.isEmpty k = true →
      empties (.fcomSt k) 0 ∧ empties (.fcompSt k) 1 ∧ empties (.fucom k) 0 ∧ empties (.fucomp k) 1 ∧
      (k = 1#3 → empties .fcompp 2 ∧ empties .fucompp 2)) ∧
    (∃ (f : Fpu) (l : NpxLink) (d : Nat), exec .fxam s = .next (s.npxDone f l d) ∧ f.regs = p.regs ∧
      f.tags = p.tags ∧ f.status.top = top ∧ f.status.c1 = (st 0#3).getLsbD 79 ∧
      (p.isEmpty 0#3 = true → f.status.c3 = true ∧ f.status.c0 = true ∧ (s.n287 = false → f.status.c2 = false)) ∧
      (p.isEmpty 0#3 = false → (s.n287 = true → tUnsupported (st 0#3) = false) → row f.status =
        (if tIsNan (st 0#3) then (false, false, true)
         else if tUnsupported (st 0#3) then (false, false, false)
         else if tIsInf (st 0#3) then (false, true, true)
         else if tIsZero (st 0#3) then (true, false, false)
         else if tIsDenormal (st 0#3) then (true, true, false)
         else (false, true, false)))) ∧
    (p.isEmpty 0#3 = false →
      (cwPc p.cw = some 64 → c * c < 2 ^ 64 → st 0#3 = ofInt (c * c) → gives .fsqrt (ofInt c) (fun _ => True)) ∧
      (small a → st 0#3 = packTemp (a < 0) a.natAbs (-1) → gives .frndint (signed ints) (fun _ => True)) ∧
      (small a → a ≠ 0 → st 0#3 = ofInt a → p.isEmpty 7#3 = true →
        let e := ofInt a.natAbs.log2
        let g := packTemp (a < 0) a.natAbs (-(a.natAbs.log2 : Int))
        ∃ (f : Fpu) (l : NpxLink) (d : Nat), exec .fxtract s = .next (s.npxDone f l d) ∧
          f.status.top = top - 1#3 ∧ f.regs = (p.regs.set top e).set (top - 1#3) g ∧
          f.tags = (p.tags.set top (tTag e)).set (top - 1#3) .valid)) ∧
    (p.isEmpty 0#3 = false → p.isEmpty 1#3 = false → small a → small b → st 0#3 = ofInt a → st 1#3 = ofInt b →
      (b.natAbs ≤ 16000 → gives .fscale (if a = 0 then ofInt 0 else packTemp (a < 0) a.natAbs b) (fun _ => True)) ∧
      (b ≠ 0 →
        gives .fprem (signed (a.tmod b)) (fun t => t.c2 = false ∧ t.c0 = (a.natAbs / b.natAbs).testBit 2 ∧
          t.c3 = (a.natAbs / b.natAbs).testBit 1 ∧ t.c1 = (a.natAbs / b.natAbs).testBit 0) ∧
        gives .fprem1 (signed (if a < 0 then -rest else rest)) (fun t => t.c2 = false ∧ t.c0 = q1.testBit 2 ∧
          t.c3 = q1.testBit 1 ∧ t.c1 = q1.testBit 0)))

/-! Arithmetic and logic, continued. -/

/-- MUL and IMUL (R273 to R276): the double-width product, or the product cut to the register; CF and OF tell whether
the low half is the whole product; the other status flags are free values. -/
def Obligations.MultiplyCompletes : Prop :=
  ∀ (s : State) (w sx : Bool) (reg : RegNum) (rm : RM) (imm : Imm),
    let wd := s.opW w
    let ow := s.os.width
    let wide (hi lo : Val wd) : State :=
      match wd, hi, lo with
      | .w8, hi, lo => s.regPut .w16 rAX (hi ++ lo)
      | .w16, hi, lo => (s.regPut .w16 rDX hi).regPut .w16 rAX lo
      | .w32, hi, lo => (s.regPut .w32 rDX hi).regPut .w32 rAX lo
    let ends (t : State) (c : Bool) (r : Host.Outcome State Fault Refusal) : Prop :=
      ∃ f : Flags, f.sameControl s.flags = true ∧ f.cf = c ∧ f.ovf = c ∧ r = .next (t.flagged f 4).advance
    let p : Nat := (s.reg wd rAX).toNat * (s.rmVal wd rm).toNat
    let q : Int := (s.reg wd rAX).toInt * (s.rmVal wd rm).toInt
    let put (a b : Val ow) : State := s.regPut ow reg (BitVec.ofInt ow.bits (a.toInt * b.toInt))
    let cut (a b : Val ow) : Bool := decide (a.toInt * b.toInt ≠ (BitVec.ofInt ow.bits (a.toInt * b.toInt)).toInt)
    (s.rmReads wd rm = true →
      ends (wide (BitVec.ofNat wd.bits (p / 2 ^ wd.bits)) (BitVec.ofNat wd.bits p)) (p / 2 ^ wd.bits != 0)
        (exec (.mul w rm) s) ∧
      ends (wide (BitVec.ofInt wd.bits (q / (2 ^ wd.bits : Nat))) (BitVec.ofInt wd.bits q))
        (decide (q ≠ (BitVec.ofInt wd.bits q).toInt)) (exec (.imulAcc w rm) s)) ∧
    (s.rmReads ow rm = true →
      ends (put (s.reg ow reg) (s.rmVal ow rm)) (cut (s.reg ow reg) (s.rmVal ow rm)) (exec (.imulRegRm reg rm) s) ∧
      ends (put (s.rmVal ow rm) (Imm.val ow imm)) (cut (s.rmVal ow rm) (Imm.val ow imm))
        (exec (.imulRegRmImm sx reg rm imm) s))

/-- DIV and IDIV (R277, R278, R601): with a divisor that is not zero and a quotient that fits, quotient and remainder,
and all six status flags are free values; else interrupt 0, a fault taken from the state before the instruction with
the address of the instruction. -/
def Obligations.DivideCompletes : Prop :=
  ∀ (s : State) (w : Bool) (rm : RM),
    let wd := s.opW w
    let wide (hi lo : Val wd) : State :=
      match wd, hi, lo with
      | .w8, hi, lo => s.regPut .w16 rAX (hi ++ lo)
      | .w16, hi, lo => (s.regPut .w16 rDX hi).regPut .w16 rAX lo
      | .w32, hi, lo => (s.regPut .w32 rDX hi).regPut .w32 rAX lo
    let n := s.pair wd
    let d := (s.rmVal wd rm).toNat
    let m := s.signedPair wd
    let e := (s.rmVal wd rm).toInt
    s.rmReads wd rm = true →
    (d ≠ 0 → n / d < 2 ^ wd.bits →
      ∃ f : Flags, f.sameControl s.flags = true ∧
        exec (.div w rm) s =
          .next ((wide (BitVec.ofNat wd.bits (n % d)) (BitVec.ofNat wd.bits (n / d))).flagged f 6).advance) ∧
    (e ≠ 0 → -(2 ^ (wd.bits - 1) : Nat) ≤ m.tdiv e → m.tdiv e < (2 ^ (wd.bits - 1) : Nat) →
      ∃ f : Flags, f.sameControl s.flags = true ∧
        exec (.idiv w rm) s =
          .next ((wide (BitVec.ofInt wd.bits (m.tmod e)) (BitVec.ofInt wd.bits (m.tdiv e))).flagged f 6).advance) ∧
    (d = 0 ∨ 2 ^ wd.bits ≤ n / d → exec (.div w rm) s = deliver ⟨0#8, .fault, s.eip, none⟩ s) ∧
    (e = 0 ∨ m.tdiv e < -(2 ^ (wd.bits - 1) : Nat) ∨ (2 ^ (wd.bits - 1) : Nat) ≤ m.tdiv e →
      exec (.idiv w rm) s = deliver ⟨0#8, .fault, s.eip, none⟩ s)

/-- Shifts and rotates (R300 to R307): a count of 0 changes nothing; else the operand takes the result, CF what was
shifted out where the rule defines it, OF its value for a count of 1; the rotates leave SF, ZF, PF and AF, the shifts
set SF, ZF and PF. -/
def Obligations.ShiftsComplete : Prop :=
  ∀ (op : ShiftOp) (s : State) (w : Bool) (rm : RM) (count : Count),
    let wd := s.opW w
    let c := s.shiftCount count
    let o := op.out (s.rmVal wd rm) c s.flags.cf
    (c = 0 → exec (op.instr w rm count) s = .next s.advance) ∧
    (c ≠ 0 → s.rmBoth wd rm = true →
      ∃ (f : Flags) (n : Nat), f.sameControl s.flags = true ∧
        (∀ b, o.cf = some b → f.cf = b) ∧ (c = 1 → f.ovf = o.ovf) ∧
        (op.isShift = true → f.zf = zfOf o.r ∧ f.sf = sfOf o.r ∧ f.pf = pfOf o.r) ∧
        (op.isShift = false → f.zf = s.flags.zf ∧ f.sf = s.flags.sf ∧ f.pf = s.flags.pf ∧ f.af = s.flags.af) ∧
        exec (op.instr w rm count) s = .next ((s.flagged f n).rmPut wd rm o.r).advance)

/-- What the shifts and rotates compute (R301 to R307), for the counts the processor can use: the rotates are those
of bit vectors, through carry those of the operand with CF above it, and the shifts multiply and divide; CF is the bit
shifted or rotated out last, not stated for SHL and SHR beyond the width; OF is what each rule gives for a count of
1. A rotate right through carry undoes one to the left. -/
def Obligations.ShiftResults : Prop :=
  ∀ (w : Width) (a : Val w) (c : Nat) (cf : Bool), 0 < c → c < 32 →
    let n := w.bits
    let wide : BitVec (1 + n) := BitVec.ofBool cf ++ a
    let split (v : BitVec (1 + n)) : Val w × Option Bool := (v.setWidth n, some v.msb)
    let pair (o : ShiftOut n) : BitVec n × Option Bool := (o.r, o.cf)
    (ShiftOp.rol.out a c cf).r = a.rotateLeft c ∧
    (ShiftOp.ror.out a c cf).r = a.rotateRight c ∧
    (ShiftOp.shl.out a c cf).r.toNat = a.toNat * 2 ^ c % 2 ^ w.bits ∧
    (ShiftOp.shr.out a c cf).r.toNat = a.toNat / 2 ^ c ∧
    (ShiftOp.sar.out a c cf).r.toInt = a.toInt / 2 ^ c ∧
    (∀ carry, (ShiftOp.rcl.out a c cf).cf = some carry →
      (ShiftOp.rcr.out (ShiftOp.rcl.out a c cf).r c carry).r = a ∧
      (ShiftOp.rcr.out (ShiftOp.rcl.out a c cf).r c carry).cf = some cf) ∧
    pair (ShiftOp.rcl.out a c cf) = split (wide.rotateLeft c) ∧
    pair (ShiftOp.rcr.out a c cf) = split (wide.rotateRight c) ∧
    (ShiftOp.rol.out a c cf).cf = some ((a.rotateLeft c).getLsbD 0) ∧
    (ShiftOp.ror.out a c cf).cf = some (a.rotateRight c).msb ∧
    (ShiftOp.shl.out a c cf).cf = (if c ≤ n then some (a.getLsbD (n - c)) else none) ∧
    (ShiftOp.shr.out a c cf).cf = (if c ≤ n then some (a.getLsbD (c - 1)) else none) ∧
    (ShiftOp.sar.out a c cf).cf = some (if c ≤ n then a.getLsbD (c - 1) else a.msb) ∧
    (c = 1 →
      (ShiftOp.rol.out a c cf).ovf = ((a.rotateLeft 1).msb != a.msb) ∧
      (ShiftOp.ror.out a c cf).ovf = (a.getLsbD 0 != a.msb) ∧
      (ShiftOp.rcl.out a c cf).ovf = (a.getLsbD (n - 2) != a.msb) ∧
      (ShiftOp.rcr.out a c cf).ovf = (a.msb != cf) ∧
      (ShiftOp.shl.out a c cf).ovf = (a.getLsbD (n - 2) != a.msb) ∧
      (ShiftOp.shr.out a c cf).ovf = a.msb ∧ (ShiftOp.sar.out a c cf).ovf = false)

/-- SHLD and SHRD (R308, R309): a count of 0 changes nothing; up to the operand size the shifted pair; beyond it the
operand and the flags are undefined, and the instruction still completes. -/
def Obligations.DoubleShiftsComplete : Prop :=
  ∀ (s : State) (reg : RegNum) (rm : RM) (k : BitVec 8) (left byCl : Bool),
    let w := s.os.width
    let i : Instr :=
      if left then (if byCl then .shldCl reg rm else .shldImm reg rm k)
      else (if byCl then .shrdCl reg rm else .shrdImm reg rm k)
    let c := s.shiftCount (if byCl then .cl else .imm k)
    let a := s.rmVal w rm
    let b := s.reg w reg
    let r := if left then (a <<< c) ||| (b >>> (w.bits - c)) else (a >>> c) ||| (b <<< (w.bits - c))
    (c = 0 → exec i s = .next s.advance) ∧
    (s.rmBoth w rm = true → 0 < c → c ≤ w.bits →
      ∃ (f : Flags) (n : Nat), f.sameControl s.flags = true ∧
        f.cf = a.getLsbD (if left then w.bits - c else c - 1) ∧ (c = 1 → f.ovf = (r.msb != a.msb)) ∧
        f.zf = zfOf r ∧ f.sf = sfOf r ∧ f.pf = pfOf r ∧ exec i s = .next ((s.rmPut w rm r).flagged f n).advance) ∧
    (s.rmBoth w rm = true → w.bits < c →
      ∃ (f : Flags) (n : Nat) (u : Val w), f.sameControl s.flags = true ∧
        exec i s = .next ((s.rmPut w rm u).flagged f n).advance)

/-! Strings and bits. -/

/-- The string instructions without a repeat prefix (R331 to R337). -/
def Obligations.StringsComplete : Prop :=
  ∀ (op : StrOp) (w : Bool) (s : State), op.ok (s.opW w) s = true →
    exec (op.plain w) s = .next (op.done (s.opW w) s).advance

/-- The repeated string instructions (R340 to R349): with a count of 0 nothing happens; else one element, the count
falls by one, and the instruction ends or starts again at its first prefix. -/
def Obligations.RepeatedStringsComplete : Prop :=
  ∀ (op : StrOp) (z w : Bool) (s : State),
    (s.count = 0#32 → exec (op.rep z w) s = .next s.advance) ∧
    (s.count ≠ 0#32 → op.ok (s.opW w) s = true →
      exec (op.rep z w) s = .next ((op.done (s.opW w) s).iterated (op.stop z)))

/-- BSF and BSR (R361, R362): the least and the greatest set bit; for a zero source ZF is 1 and the register keeps
its value. -/
def Obligations.BitScansComplete : Prop :=
  ∀ (s : State) (reg : RegNum) (rm : RM),
    let w := s.os.width
    let a := s.rmVal w rm
    s.rmReads w rm = true →
    (a = 0 → ∃ f : Flags, f.sameControl s.flags = true ∧ f.zf = true ∧
      exec (.bsf reg rm) s = .next (s.flagged f 6).advance ∧ exec (.bsr reg rm) s = .next (s.flagged f 6).advance) ∧
    (a ≠ 0 → ∃ (f : Flags) (i j : Nat), f.sameControl s.flags = true ∧ f.zf = false ∧
      i < w.bits ∧ a.getLsbD i = true ∧ (∀ k, k < i → a.getLsbD k = false) ∧
      j < w.bits ∧ a.getLsbD j = true ∧ (∀ k, j < k → a.getLsbD k = false) ∧
      exec (.bsf reg rm) s = .next ((s.regPut w reg (BitVec.ofNat w.bits i)).flagged f 6).advance ∧
      exec (.bsr reg rm) s = .next ((s.regPut w reg (BitVec.ofNat w.bits j)).flagged f 6).advance)

/-- BT, BTC, BTR and BTS (R360, R363 to R366): CF takes the selected bit, which BTC inverts, BTR clears and BTS sets, bit
by bit of the unit; BT writes nothing; ZF is unchanged. With a register offset the unit in memory stands so many units
from the effective address as the signed offset divided by the unit's bits, rounded down; it wraps at the address size
(R82). -/
def Obligations.BitTestsComplete : Prop :=
  ∀ (op : BitOp) (s : State) (reg r : RegNum) (m : MemOp) (bit : BitVec 8),
    let w := s.os.width
    let n := bit.toNat % w.bits
    let q := (s.reg w reg).toNat % w.bits
    let span : Int :=
      match s.adr with
      | .s16 => 65536
      | .s32 => 4294967296
    let far : BitVec 32 :=
      BitVec.ofInt 32 (((s.ea m).toNat + w.bytes * Int.fdiv (s.reg w reg).toInt w.bits) % span)
    let writes : Bool :=
      match op with
      | .test => false
      | .complement => true
      | .reset => true
      | .set => true
    let reaches (off : BitVec 32) : Bool :=
      s.reaches (s.memSeg m) off w.bytes false w.bytes &&
        (!writes || s.reaches (s.memSeg m) off w.bytes true w.bytes)
    let newBit (old : Bool) : Bool :=
      match op with
      | .test => old
      | .complement => !old
      | .reset => false
      | .set => true
    let ends (a : Val w) (b : Nat) (put : Val w → State) (o : Host.Outcome State Fault Refusal) : Prop :=
      ∃ (f : Flags) (v : Val w),
        (∀ k : Nat, k < w.bits → v.getLsbD k = if k = b then newBit (a.getLsbD k) else a.getLsbD k) ∧
        f.sameControl s.flags = true ∧ f.zf = s.flags.zf ∧ f.cf = a.getLsbD b ∧
        o = .next ((if writes then put v else s).flagged f 4).advance
    ends (s.reg w r) n (s.regPut w r) (exec (op.immInstr (.reg r) bit) s) ∧
    ends (s.reg w r) q (s.regPut w r) (exec (op.regInstr reg (.reg r)) s) ∧
    (reaches (s.ea m) = true →
      ends (s.memVal w (s.memSeg m) (s.ea m)) n (s.memPut w (s.memSeg m) (s.ea m))
        (exec (op.immInstr (.mem m) bit) s)) ∧
    (reaches far = true →
      ends (s.memVal w (s.memSeg m) far) q (s.memPut w (s.memSeg m) far) (exec (op.regInstr reg (.mem m)) s))

/-- BSWAP, CMPXCHG and XADD (R571 to R573): BSWAP reverses the four bytes of a register and leaves a free value in a
16-bit one; CMPXCHG always writes its
destination; in XADD the register takes the old destination, and the sum stands where both are one register. -/
def Obligations.ExchangeOps486 : Prop :=
  ∀ (s : State) (w : Bool) (reg r : RegNum) (m : MemOp),
    let wd := s.opW w
    let cmp (d : Val wd) : Flags := s.flags.status (subN (s.reg wd rAX) d false)
    let sum (d : Val wd) : AluOut wd.bits := addN d (s.reg wd reg) false
    let d := s.memVal wd (s.memSeg m) (s.ea m)
    let byte (k : Nat) : BitVec 8 := BitVec.ofNat 8 ((s.reg .w32 reg).toNat / 256 ^ k % 256)
    (s.os = .s32 →
      exec (.bswap reg) s = .next (s.regPut .w32 reg (byte 0 ++ byte 1 ++ byte 2 ++ byte 3)).advance) ∧
    (s.os = .s16 →
      exec (.bswap reg) s = .next ((s.regPut .w16 reg (Config.freeWord s.draws)).setDraws (s.draws + 1)).advance) ∧
    exec (.cmpxchg w reg (.reg r)) s = .next
      (if s.reg wd rAX = s.reg wd r then (s.setFlags (cmp (s.reg wd r))).regPut wd r (s.reg wd reg)
       else (s.setFlags (cmp (s.reg wd r))).regPut wd rAX (s.reg wd r)).advance ∧
    exec (.xadd w reg (.reg r)) s = .next
      (((s.regPut wd reg (s.reg wd r)).regPut wd r (sum (s.reg wd r)).r).setFlags
        (s.flags.status (sum (s.reg wd r)))).advance ∧
    (s.rmBoth wd (.mem m) = true →
      exec (.cmpxchg w reg (.mem m)) s = .next
        (if s.reg wd rAX = d then (s.setFlags (cmp d)).memPut wd (s.memSeg m) (s.ea m) (s.reg wd reg)
         else ((s.setFlags (cmp d)).memPut wd (s.memSeg m) (s.ea m) d).regPut wd rAX d).advance ∧
      exec (.xadd w reg (.mem m)) s = .next
        (((s.memPut wd (s.memSeg m) (s.ea m) (sum d).r).regPut wd reg d).setFlags
          (s.flags.status (sum d))).advance)

/-! Control transfer. -/

/-- Near jumps, calls and returns (R370 to R372, R375 to R377, R381, R382): the target, cut to 16 bits when OS = 16,
is checked against the CS limit before anything is stored; beyond it #GP(0) is taken from the unchanged state. -/
def Obligations.NearTransfersComplete : Prop :=
  ∀ (s : State) (d8 : BitVec 8) (disp : Imm) (rm : RM) (k : BitVec 16),
    let w := s.os.width
    let inside (t : BitVec 32) : Prop := (ipMask s.os t).toNat ≤ s.segs.cs.limit.toNat
    let gp : Host.Outcome State Fault Refusal := deliver ⟨13#8, .fault, s.eip, some 0#16⟩ s
    let ind : BitVec 32 := (s.rmVal w rm).setWidth 32
    let back : BitVec 32 := (s.popVal w).setWidth 32
    let jumps (t : BitVec 32) (o : Host.Outcome State Fault Refusal) : Prop :=
      (inside t → o = .next (s.jumped (ipMask s.os t))) ∧ (¬ inside t → o = gp)
    let calls (t : BitVec 32) (o : Host.Outcome State Fault Refusal) : Prop :=
      (inside t → s.pushes w = true →
        o = .next ((s.pushed w (s.nextIP.setWidth w.bits)).jumped (ipMask s.os t))) ∧ (¬ inside t → o = gp)
    let returns (k : BitVec 16) (o : Host.Outcome State Fault Refusal) : Prop :=
      let t := s.popped w
      (inside back → o = .next ((t.setGpr (t.gprWithSp (t.spAdd (k.setWidth 32)))).jumped (ipMask s.os back))) ∧
      (¬ inside back → o = gp)
    jumps (s.nextIP + d8.signExtend 32) (exec (.jmpShort d8) s) ∧
    jumps (s.nextIP + Imm.disp disp) (exec (.jmpNear disp) s) ∧
    calls (s.nextIP + Imm.disp disp) (exec (.callNear disp) s) ∧
    (s.rmReads w rm = true → jumps ind (exec (.jmpRm rm) s) ∧ calls ind (exec (.callRm rm) s)) ∧
    (s.pops w = true → returns 0#16 (exec .retNear s) ∧ returns k (exec (.retNearImm k) s))

/-- The sixteen conditional jumps (R387 to R402, R386): both encodings with the number of the condition, taken exactly
when the rule's condition on the flags holds; a taken jump beyond the CS limit is #GP(0). -/
def Obligations.ConditionalJumps : Prop :=
  ∀ (c : Cond) (s : State) (d8 : BitVec 8) (d16 : BitVec 16) (d32 : BitVec 32) (disp : Imm),
    let f := s.flags
    let row : BitVec 4 × Bool :=
      match c with
      | .o => (0#4, f.ovf)
      | .no => (1#4, !f.ovf)
      | .b => (2#4, f.cf)
      | .nb => (3#4, !f.cf)
      | .e => (4#4, f.zf)
      | .ne => (5#4, !f.zf)
      | .be => (6#4, f.cf || f.zf)
      | .nbe => (7#4, !f.cf && !f.zf)
      | .s => (8#4, f.sf)
      | .ns => (9#4, !f.sf)
      | .p => (10#4, f.pf)
      | .np => (11#4, !f.pf)
      | .l => (12#4, f.sf != f.ovf)
      | .nl => (13#4, f.sf == f.ovf)
      | .le => (14#4, f.zf || f.sf != f.ovf)
      | .nle => (15#4, !f.zf && f.sf == f.ovf)
    let t := ipMask s.os (s.nextIP + Imm.disp disp)
    encode (Cond.jump c (.i8 d8)) = [7#4 ++ row.1, d8] ∧
    encode (Cond.jump c (.i16 d16)) = [0x0F#8, 8#4 ++ row.1, d16.extractLsb' 0 8, d16.extractLsb' 8 8] ∧
    encode (Cond.jump c (.i32 d32)) = [0x0F#8, 8#4 ++ row.1, d32.extractLsb' 0 8, d32.extractLsb' 8 8,
      d32.extractLsb' 16 8, d32.extractLsb' 24 8] ∧
    (row.2 = false → exec (Cond.jump c disp) s = .next s.advance) ∧
    (row.2 = true → t.toNat ≤ s.segs.cs.limit.toNat → exec (Cond.jump c disp) s = .next (s.jumped t)) ∧
    (row.2 = true → s.segs.cs.limit.toNat < t.toNat →
      exec (Cond.jump c disp) s = deliver ⟨13#8, .fault, s.eip, some 0#16⟩ s)

/-- The sixteen conditional byte sets (R701 to R716, R700): the encoding with the number of the condition, and the
byte 1 or 0. -/
def Obligations.ConditionalSets : Prop :=
  ∀ (c : Cond) (s : State) (mid : BitVec 3) (r : RegNum) (rm : RM),
    let f := s.flags
    let row : BitVec 4 × Bool :=
      match c with
      | .o => (0#4, f.ovf)
      | .no => (1#4, !f.ovf)
      | .b => (2#4, f.cf)
      | .nb => (3#4, !f.cf)
      | .e => (4#4, f.zf)
      | .ne => (5#4, !f.zf)
      | .be => (6#4, f.cf || f.zf)
      | .nbe => (7#4, !(f.cf || f.zf))
      | .s => (8#4, f.sf)
      | .ns => (9#4, !f.sf)
      | .p => (10#4, f.pf)
      | .np => (11#4, !f.pf)
      | .l => (12#4, f.sf != f.ovf)
      | .nl => (13#4, f.sf == f.ovf)
      | .le => (14#4, f.zf || f.sf != f.ovf)
      | .nle => (15#4, !f.zf && f.sf == f.ovf)
    encode (Cond.set c 0#3 (.reg r)) = [0x0F#8, 9#4 ++ row.1, 3#2 ++ 0#3 ++ r] ∧
    encode (Cond.set c mid rm) = 0x0F#8 :: (9#4 ++ row.1) :: encRM mid rm ∧
    (s.rmWrites .w8 rm = true →
      exec (Cond.set c mid rm) s = .next (s.rmPut .w8 rm (if row.2 then 1#8 else 0#8)).advance)

/-- JCXZ, LOOP, LOOPZ and LOOPNZ (R403 to R406): the count is CX or ECX; LOOP lowers it first; no flag changes. -/
def Obligations.LoopsComplete : Prop :=
  ∀ (s : State) (d : BitVec 8),
    let t := s.setGpr s.countDown
    let target := ipMask s.os (s.nextIP + d.signExtend 32)
    let ends (u : State) (taken : Prop) (o : Host.Outcome State Fault Refusal) : Prop :=
      (¬ taken → o = .next u.advance) ∧
      (taken → target.toNat ≤ s.segs.cs.limit.toNat → o = .next (u.jumped target)) ∧
      (taken → s.segs.cs.limit.toNat < target.toNat → o = deliver ⟨13#8, .fault, s.eip, some 0#16⟩ s)
    ends s ((s.reg s.jcxzWidth rCX).toNat = 0) (exec (.jcxz d) s) ∧
    ends t (t.count ≠ 0#32) (exec (.loop d) s) ∧
    ends t (t.count ≠ 0#32 ∧ s.flags.zf = true) (exec (.loopz d) s) ∧
    ends t (t.count ≠ 0#32 ∧ s.flags.zf = false) (exec (.loopnz d) s)

/-- Far jumps, calls and returns, and IRET, in real-address and virtual-8086 mode (R373, R374, R378 to R380, R383,
R384, R413): CS takes the selector, with base sixteen times the selector; an offset above FFFF is #GP(0). A far call
pushes CS, under an undefined half when OS = 32 (U4), then the offset; IRET also restores the flags it may change, bit by
bit: IOPL at level 0 and, with NT, not on the 80286 in real-address mode (R28), RF and AC (80486) with a 32-bit operand
size; it ends the NMI block, and a single-step trap that was held until then is pending (log entry 80, the model's
choice). -/
def Obligations.FarTransfersReal : Prop :=
  ∀ (s : State) (off : Off) (sel : BitVec 16) (m : MemOp) (k : BitVec 16),
    let w := s.os.width
    let gp : Host.Outcome State Fault Refusal := deliver ⟨13#8, .fault, s.eip, some 0#16⟩ s
    let into (t : State) (sel : BitVec 16) (o : BitVec 32) : State :=
      (t.setSegs (t.segs.put .cs (s.segs.cs.toReal sel))).jumped o
    let jumps (sel : BitVec 16) (o : BitVec 32) (r : Host.Outcome State Fault Refusal) : Prop :=
      (o.toNat ≤ 0xFFFF → r = .next (into s sel o)) ∧ (0xFFFF < o.toNat → r = gp)
    let calls (sel : BitVec 16) (o : BitVec 32) (r : Host.Outcome State Fault Refusal) : Prop :=
      let i16 : List (Val .w16) := [s.segs.cs.sel, s.nextIP.setWidth 16]
      let t := s.setDraws (s.draws + 1)
      let i32 : List (Val .w32) := [Config.freeWord s.draws ++ s.segs.cs.sel, s.nextIP]
      (0xFFFF < o.toNat → r = gp) ∧
      (o.toNat ≤ 0xFFFF → s.holds w 2 = true →
        (s.os = .s16 → s.pushesAll .w16 i16 = true → r = .next (into (s.pushedAll .w16 i16) sel o)) ∧
        (s.os = .s32 → t.pushesAll .w32 i32 = true → r = .next (into (t.pushedAll .w32 i32) sel o)))
    let far : Bool := s.reaches (s.memSeg m) (s.ea m) w.bytes false w.bytes &&
      s.reaches (s.memSeg m) (s.ea m + BitVec.ofNat 32 w.bytes) 2 false 2
    let moff : BitVec 32 := (s.memVal w (s.memSeg m) (s.ea m)).setWidth 32
    let msel : BitVec 16 := s.memVal .w16 (s.memSeg m) (s.ea m + BitVec.ofNat 32 w.bytes)
    let o : BitVec 32 := (s.popVals w 0).setWidth 32
    let psel : BitVec 16 := (s.popVals w 1).setWidth 16
    let t2 := s.poppedTimes w 2
    let t3 := s.poppedTimes w 3
    let v : BitVec 32 := (s.popVals w 2).setWidth 32
    let real286 : Bool := s.cfg.cpu == .p286 && !s.sys.cr0.pe
    let wide486 : Bool := s.os == .s32 && s.cfg.cpu == .p486
    let loaded : Flags :=
      { cf := v.getLsbD 0, pf := v.getLsbD 2, af := v.getLsbD 4, zf := v.getLsbD 6, sf := v.getLsbD 7
        tf := v.getLsbD 8, ie := v.getLsbD 9, df := v.getLsbD 10, ovf := v.getLsbD 11
        iopl := if s.cpl = 0#2 ∧ real286 = false then v.extractLsb' 12 2 else s.flags.iopl
        nt := if real286 then s.flags.nt else v.getLsbD 14
        rf := if s.os = .s32 then v.getLsbD 16 else s.flags.rf
        vm := s.flags.vm
        ac := if wide486 then v.getLsbD 18 else s.flags.ac }
    s.protMode = false →
    jumps sel (Off.val off) (exec (.jmpFar off sel) s) ∧
    calls sel (Off.val off) (exec (.callFar off sel) s) ∧
    (far = true → jumps msel moff (exec (.jmpMemFar m) s) ∧ calls msel moff (exec (.callMemFar m) s)) ∧
    (s.popsTimes w 2 = true → o.toNat ≤ 0xFFFF →
      exec .retFar s = .next (into t2 psel o) ∧
      exec (.retFarImm k) s = .next (into (t2.setGpr (t2.gprWithSp (t2.spAdd (k.setWidth 32)))) psel o)) ∧
    (s.popsTimes w 2 = true → 0xFFFF < o.toNat → exec .retFar s = gp ∧ exec (.retFarImm k) s = gp) ∧
    (s.v86 = false ∨ s.flags.iopl = 3#2 → s.popsTimes w 3 = true → o.toNat ≤ 0xFFFF →
      exec .iret s = .next (into ((t3.setFlags loaded).setCtl
        { s.ctl with nmiBlocked := false, dbPending := s.ctl.dbPending || s.ctl.trapHeld, trapHeld := false }) psel o)) ∧
    (s.v86 = false ∨ s.flags.iopl = 3#2 → s.popsTimes w 3 = true → 0xFFFF < o.toNat → exec .iret s = gp)

/-- ENTER, LEAVE, BOUND and INTO with OF = 0 (R407, R408, R412, R411): the saved frame pointer, the copied ones, the
new frame and its room, SP zero-extended as a 32-bit frame on a 16-bit stack (log entry 61); BOUND inside its two signed
bounds does nothing, outside it is interrupt 5, a fault. -/
def Obligations.FramesComplete : Prop :=
  ∀ (s : State) (frame : BitVec 16) (level : BitVec 8) (reg : RegNum) (m : MemOp),
    let w := s.os.width
    let n := level.toNat % 32
    let aw : Width := if s.stack32 then .w32 else .w16
    let s1 := s.pushed w (s.reg w rBP)
    let fp : Val w := s1.sp.setWidth w.bits
    let u := if n = 0 then s1 else (s1.copied w (n - 1)).pushed w fp
    let v := u.regPut w rBP fp
    let top := v.spAdd (-(frame.setWidth 32))
    let t := s.setGpr (s.gprWithSp ((s.reg aw rBP).setWidth 32))
    let a := s.ea m
    let lo := (s.memVal w (s.memSeg m) a).toInt
    let hi := (s.memVal w (s.memSeg m) (a + BitVec.ofNat 32 w.bytes)).toInt
    let x := (s.reg w reg).toInt
    ((s.has386 = true → s.holds w (1 + n) = true) → s.pushes w = true →
      (n ≠ 0 → s1.copies w (n - 1) = true ∧ (s1.copied w (n - 1)).pushes w = true) →
      segHolds s.segs.ss top 1 = true →
      exec (.enter frame level) s = .next (v.setGpr (v.gprWithSp top)).advance) ∧
    (t.pops w = true → exec .leave s = .next ((t.popped w).regPut w rBP (t.popVal w)).advance) ∧
    (s.reaches (s.memSeg m) a w.bytes false w.bytes = true →
      s.reaches (s.memSeg m) (a + BitVec.ofNat 32 w.bytes) w.bytes false w.bytes = true →
      (lo ≤ x → x ≤ hi → exec (.bound reg m) s = .next s.advance) ∧
      (x < lo ∨ hi < x → exec (.bound reg m) s = deliver ⟨5#8, .fault, s.eip, none⟩ s)) ∧
    (s.flags.ovf = false → exec .into s = .next s.advance)

/-- INT n, INT 3 and a taken INTO in real-address mode (R409 to R411, R601, R610): FLAGS, CS and the offset of the
next instruction are pushed, IF and TF cleared, and CS:IP is loaded from the vector's entry in the table. And INT n with
the IRET that follows at the handler's first instruction (R413), memory being in its canonical form: the general
registers, every segment register, the flags (but AC, which the entry clears on the 80486), the system registers and the
coprocessor are as before, the offset is that of the instruction after INT n, and memory changes only in the six bytes of
the frame. That the entry drops a pending single-step trap is the rule of R635 on the 80386 and 80486 and the model's
choice on the 80286 (log entry 43). -/
def Obligations.SoftwareInterruptsReal : Prop :=
  ∀ (s : State) (v : BitVec 8),
    let e (v : BitVec 8) : Event := ⟨v, .software, s.nextIP, none⟩
    let t := (s.enteredReal (e v)).setCur { Cur.start with len := 1 }
    (s.entersReal (e v) = true → exec (.intN v) s = .next (s.enteredReal (e v))) ∧
    (s.entersReal (e 3#8) = true → exec .int3 s = .next (s.enteredReal (e 3#8))) ∧
    (s.flags.ovf = true → s.entersReal (e 4#8) = true → exec .into s = .next (s.enteredReal (e 4#8))) ∧
    (Memory.wf s.mem = true → s.entersReal (e v) = true → t.popsTimes .w16 3 = true → 6 ≤ s.sp.toNat →
      ∃ r : State, exec .iret t = .next r ∧ r.gpr = s.gpr ∧
        r.segs = s.segs.put .cs (s.segs.cs.toReal s.segs.cs.sel) ∧
        r.flags = { s.flags with ac := s.flags.ac && !s.has486 } ∧ r.sys = s.sys ∧ r.fpu = s.fpu ∧
        r.link = s.link ∧ r.eip = (s.nextIP.extractLsb' 0 16).setWidth 32 ∧
        (∀ a : Nat, s.within (s.linOf .ss (s.sp - 2#32)) 2 a = false →
          s.within (s.linOf .ss (s.sp - 4#32)) 2 a = false → s.within (s.linOf .ss (s.sp - 6#32)) 2 a = false →
          memGet r.mem a = memGet s.mem a))

/-! Processor control and protection. -/

/-- The flag instructions, LAHF and SAHF (R240 to R242, R244, R245, R248 to R251): each changes its own flags alone.
CLI and STI need CPL <= IOPL in protected mode; STI with IF = 0 opens the interrupt shadow (R620). -/
def Obligations.FlagInstructions : Prop :=
  ∀ (s : State),
    let ah : BitVec 8 := s.reg .w8 rAH
    let f := s.flags
    exec .clc s = .next (s.setFlags { f with cf := false }).advance ∧
    exec .stc s = .next (s.setFlags { f with cf := true }).advance ∧
    exec .cmc s = .next (s.setFlags { f with cf := !f.cf }).advance ∧
    exec .cld s = .next (s.setFlags { f with df := false }).advance ∧
    exec .std s = .next (s.setFlags { f with df := true }).advance ∧
    exec .lahf s = .next (s.regPut .w8 rAH
      (BitVec.ofBool f.sf ++ BitVec.ofBool f.zf ++ 0#1 ++ BitVec.ofBool f.af ++ 0#1 ++ BitVec.ofBool f.pf ++ 1#1 ++
        BitVec.ofBool f.cf)).advance ∧
    exec .sahf s = .next (s.setFlags { f with
      sf := ah.getLsbD 7, zf := ah.getLsbD 6, af := ah.getLsbD 4, pf := ah.getLsbD 2, cf := ah.getLsbD 0 }).advance ∧
    (s.sys.cr0.pe = false ∨ s.cpl.toNat ≤ f.iopl.toNat →
      exec .cli s = .next (s.setFlags { f with ie := false }).advance ∧
      (f.ie = true ∨ s.ctl.prevShadow ≠ .none → exec .sti s = .next (s.setFlags { f with ie := true }).advance) ∧
      (f.ie = false → s.ctl.prevShadow = .none →
        exec .sti s = .next ((s.setFlags { f with ie := true }).setCtl { s.ctl with shadow := .sti }).advance))

/-- HLT, CLTS, INVD, WBINVD and INVLPG at level 0, NOP, WAIT with nothing to wait for, and the prefixes (R420, R243,
R574 to R576, R422, R423, R425 to R427, R434, R340): a prefix is recorded for the instruction it precedes; the two
size prefixes turn the attributes over (R136, R137). -/
def Obligations.ProcessorInstructions : Prop :=
  ∀ (s : State) (m : MemOp),
    let c := s.cur
    (s.cpl = 0#2 →
      exec .hlt s = .next (s.setCtl { s.ctl with activity := .halted }).advance ∧
      exec .clts s = .next (s.setSys { s.sys with cr0 := { s.sys.cr0 with ts := false } }).advance ∧
      exec .invd s = .next s.advance ∧ exec .wbinvd s = .next s.advance ∧
      exec (.invlpg m) s =
        .next (s.setTlb (tlbDrop s.tlb ((s.linOf (s.memSeg m) (s.ea m)).extractLsb' 12 20))).advance) ∧
    exec .nop s = .next s.advance ∧
    ((s.sys.cr0.mp && s.sys.cr0.ts) = false →
      (s.nativeErrors = true → s.fpu.status.es = false) → (s.nativeErrors = false → s.link.busyLatch = false) →
      exec .wait s = .next s.advance) ∧
    exec .lockPrefix s = .next (s.setCur { c with lock := true }) ∧
    exec .repnePrefix s = .next (s.setCur { c with rep := some false }) ∧
    exec .repPrefix s = .next (s.setCur { c with rep := some true }) ∧
    exec .esPrefix s = .next (s.setCur { c with seg := some .es }) ∧
    exec .csPrefix s = .next (s.setCur { c with seg := some .cs }) ∧
    exec .ssPrefix s = .next (s.setCur { c with seg := some .ss }) ∧
    exec .dsPrefix s = .next (s.setCur { c with seg := some .ds }) ∧
    exec .fsPrefix s = .next (s.setCur { c with seg := some .fs }) ∧
    exec .gsPrefix s = .next (s.setCur { c with seg := some .gs }) ∧
    exec .opSizePrefix s = .next (s.setCur { c with opSize := true }) ∧
    exec .addrSizePrefix s = .next (s.setCur { c with adSize := true }) ∧
    (s.has386 = true → (s.setCur { c with opSize := true }).os = s.defaultSize.toggle ∧
      (s.setCur { c with adSize := true }).adr = s.defaultSize.toggle) ∧
    (s.has386 = false → s.os = .s16 ∧ s.adr = .s16)

/-- MOV to and from the control, debug and test registers at level 0 (R428 to R433): the register written, the
translation buffer emptied where paging may change, reserved bits undefined on reading (U8), and the six status flags
undefined after each (R421). -/
def Obligations.SpecialRegisterMoves : Prop :=
  ∀ (s : State) (reg : RegNum) (dr : DrNum) (tr : TrNum),
    let v : BitVec 32 := s.reg .w32 reg
    let y := s.sys
    let n := s.cr0From v
    let ends (t : State) (k : Nat) (o : Host.Outcome State Fault Refusal) : Prop :=
      ∃ f : Flags, f.sameControl s.flags = true ∧ o = .next (t.flagged f k).advance
    let reads (mask x : BitVec 32) (o : Host.Outcome State Fault Refusal) : Prop :=
      ∃ u : BitVec 32, u &&& mask = x &&& mask ∧ ends (s.regPut .w32 reg u) 7 o
    s.cpl = 0#2 →
    ((n.pg = true → n.pe = true) → (s.has486 = true → n.nw = true → n.cd = true ∧ y.cr0.nw = true ∧ y.cr0.cd = true) →
      ∃ t : State, ends t 6 (exec (.movToCr .cr0 reg) s) ∧ t.sys.cr0 = n ∧
        t.tlb = (if n.pg ≠ y.cr0.pg ∨ n.pe ≠ y.cr0.pe ∨ n.wp ≠ y.cr0.wp then [] else s.tlb) ∧
        t = (s.setSys { y with cr0 := n, cpl := if n.pe = true ∧ y.cr0.pe = false then 0#2 else y.cpl }).setTlb t.tlb) ∧
    ends (s.setSys { y with cr2 := v }) 6 (exec (.movToCr .cr2 reg) s) ∧
    ends ((s.setSys { y with cr3 := v &&& s.cr3Defined }).setTlb []) 6 (exec (.movToCr .cr3 reg) s) ∧
    reads (cr0Defined s.has486) y.cr0.word (exec (.movFromCr .cr0 reg) s) ∧
    ends (s.regPut .w32 reg y.cr2) 6 (exec (.movFromCr .cr2 reg) s) ∧
    reads s.cr3Defined y.cr3 (exec (.movFromCr .cr3 reg) s) ∧
    (y.dr7.getLsbD 13 = false →
      (dr ≠ .dr7 ∨ v.extractLsb' 0 8 = 0#8 → ends (s.setSys (y.setDr dr v)) 6 (exec (.movToDr dr reg) s)) ∧
      ends (s.regPut .w32 reg y.dr0) 6 (exec (.movFromDr .dr0 reg) s) ∧
      ends (s.regPut .w32 reg y.dr1) 6 (exec (.movFromDr .dr1 reg) s) ∧
      ends (s.regPut .w32 reg y.dr2) 6 (exec (.movFromDr .dr2 reg) s) ∧
      ends (s.regPut .w32 reg y.dr3) 6 (exec (.movFromDr .dr3 reg) s) ∧
      reads dr6Defined y.dr6 (exec (.movFromDr .dr6 reg) s) ∧ reads dr7Defined y.dr7 (exec (.movFromDr .dr7 reg) s)) ∧
    ends (s.setSys { y with tr6 := v }) 6 (exec (.movToTr .tr6 reg) s) ∧
    ends (s.setSys { y with tr7 := v }) 6 (exec (.movToTr .tr7 reg) s) ∧
    reads 0#32 0#32 (exec (.movFromTr tr reg) s)

/-- LGDT, LIDT, SGDT, SIDT, LMSW and SMSW (R438, R439, R444, R445, R441, R447): a table register is a 16-bit limit and
a base of 24 bits when OS = 16; LMSW sets MP, EM, TS and can only set PE; SMSW reads the low half of CR0, on the 80486
with OS = 32 all of it, with reserved bits undefined (U8). -/
def Obligations.TableRegisters : Prop :=
  ∀ (s : State) (m : MemOp) (r : RegNum) (rm : RM),
    let k := s.memSeg m
    let a := s.ea m
    let y := s.sys
    let full : BitVec 32 := s.memVal .w32 k (a + 2#32)
    let t : TableReg :=
      ⟨if s.os = .s32 ∧ s.has386 = true then full else full &&& 0x00FFFFFF#32, s.memVal .w16 k a⟩
    let stored (t : TableReg) : State :=
      (s.putBytes (s.linOf k a) (leBytes 2 t.limit.toNat)).putBytes (s.linOf k (a + 2#32))
        (leBytes 4 (s.storedBase t.base).toNat)
    let v : BitVec 16 := s.rmVal .w16 rm
    let c := y.cr0
    (s.cpl = 0#2 → s.reaches k a 2 false 1 = true → s.reaches k (a + 2#32) 4 false 1 = true →
      exec (.lgdt m) s = .next (s.setSys { y with gdtr := t }).advance ∧
      exec (.lidt m) s = .next (s.setSys { y with idtr := t }).advance) ∧
    (s.reaches k a 2 true 1 = true → s.reaches k (a + 2#32) 4 true 1 = true →
      exec (.sgdt m) s = .next (stored y.gdtr).advance ∧ exec (.sidt m) s = .next (stored y.idtr).advance) ∧
    (s.cpl = 0#2 → s.rmReads .w16 rm = true → (c.pe = true ∨ v.getLsbD 0 = false) →
      exec (.lmsw rm) s = .next (s.setSys { y with
        cr0 := { c with mp := v.getLsbD 1, em := v.getLsbD 2, ts := v.getLsbD 3 } }).advance) ∧
    (s.rmReads .w16 rm = true → c.pe = false → v.getLsbD 0 = true →
      exec (.lmsw rm) s = .next ((s.setSys { y with
        cr0 := { c with pe := true, mp := v.getLsbD 1, em := v.getLsbD 2, ts := v.getLsbD 3 }
        cpl := 0#2 }).setTlb []).advance) ∧
    (s.has386 = true → ∃ x : BitVec 32, x &&& cr0Defined s.has486 = c.word &&& cr0Defined s.has486 ∧
      (s.os = .s16 →
        exec (.smsw (.reg r)) s = .next ((s.setDraws (s.draws + 1)).regPut .w16 r (x.extractLsb' 0 16)).advance) ∧
      (s.os = .s32 → s.has486 = true →
        exec (.smsw (.reg r)) s = .next ((s.setDraws (s.draws + 1)).regPut .w32 r x).advance) ∧
      (s.os = .s32 → s.has486 = false → exec (.smsw (.reg r)) s = .next ((s.setDraws (s.draws + 2)).regPut .w32 r
        (Config.freeWord (s.draws + 1) ++ x.extractLsb' 0 16)).advance) ∧
      (s.rmWrites .w16 (.mem m) = true →
        exec (.smsw (.mem m)) s = .next ((s.setDraws (s.draws + 1)).memPut .w16 k a (x.extractLsb' 0 16)).advance)) ∧
    (s.has386 = false →
      exec (.smsw (.reg r)) s = .next (s.regPut .w16 r (0xFFF0#16 ||| c.word.extractLsb' 0 16)).advance ∧
      (s.rmWrites .w16 (.mem m) = true →
        exec (.smsw (.mem m)) s = .next (s.memPut .w16 k a (0xFFF0#16 ||| c.word.extractLsb' 0 16)).advance))

/-- The selector instructions in protected mode (R435 to R437, R440, R442, R443, R446, R448 to R450): ARPL raises the
requested level; LAR, LSL, VERR and VERW look at a descriptor and tell in ZF whether it passes; LLDT and LTR, at level
0, load a system segment register, LTR marking the task state segment busy in memory; SLDT and STR store a
selector. -/
def Obligations.SelectorInstructions : Prop :=
  ∀ (s : State) (reg : RegNum) (rm : RM) (m : MemOp) (d : Desc),
    let sel : BitVec 16 := s.rmVal .w16 rm
    let ow := s.os.width
    let src : BitVec 16 := s.reg .w16 reg
    let zf (t : State) (z : Bool) : State := t.setFlags { s.flags with zf := z }
    let rights : BitVec 32 → BitVec 32 := fun hi => hi &&& (if s.os = .s32 then 0x00F0FF00#32 else 0xFF00#32)
    let sysReg (access : BitVec 8) : SegReg :=
      { sel := sel, base := d.base, limit := d.limit, access := access, db := d.db, g := d.g, usable := true }
    let busy : BitVec 8 := d.access ||| 2#8
    let stores (i : RM → Instr) (x : BitVec 16) : Prop :=
      (s.os = .s16 → exec (i (.reg reg)) s = .next (s.regPut .w16 reg x).advance) ∧
      (s.os = .s32 → exec (i (.reg reg)) s =
        .next ((s.setDraws (s.draws + 1)).regPut .w32 reg (Config.freeWord s.draws ++ x)).advance) ∧
      (s.rmWrites .w16 (.mem m) = true →
        exec (i (.mem m)) s = .next (s.memPut .w16 (s.memSeg m) (s.ea m) x).advance)
    s.protMode = true →
    (s.rmReads .w16 rm = true →
      ((selRpl src).toNat ≤ (selRpl sel).toNat → exec (.arpl reg rm) s = .next (zf s false).advance) ∧
      ((selRpl sel).toNat < (selRpl src).toNat → s.rmWrites .w16 rm = true →
        exec (.arpl reg rm) s =
          .next (zf (s.rmPut .w16 rm (sel.extractLsb' 2 14 ++ src.extractLsb' 0 2)) true).advance)) ∧
    (s.rmReads .w16 rm = true → (selNull sel = true ∨ s.descPlain sel = true) →
      exec (.lar reg rm) s = .next (s.looked (s.descOf sel) (fun d => larType s.has386 d.access) sel
        (fun d t => t.regPut ow reg ((rights d.hi).setWidth ow.bits))).advance ∧
      exec (.lsl reg rm) s = .next (s.looked (s.descOf sel) (fun d => lslType s.has386 d.access) sel
        (fun d t => t.regPut ow reg (d.limit.setWidth ow.bits))).advance ∧
      exec (.verr rm) s = .next (s.looked (s.descOf sel) (fun d => arReadable d.access) sel (fun _ t => t)).advance ∧
      exec (.verw rm) s = .next (s.looked (s.descOf sel) (fun d => arWritable d.access) sel (fun _ t => t)).advance) ∧
    (s.cpl = 0#2 → s.rmReads .w16 rm = true → selNull sel = true →
      exec (.lldt rm) s =
        .next (s.setSys { s.sys with ldtr := { s.sys.ldtr with sel := sel, usable := false } }).advance) ∧
    (s.cpl = 0#2 → s.rmReads .w16 rm = true → s.descPlain sel = true → s.descOf sel = some d →
      selLocal sel = false → arPresent d.access = true → arSegment d.access = false →
      (arType d.access = 2 →
        exec (.lldt rm) s = .next (s.setSys { s.sys with ldtr := sysReg d.access }).advance) ∧
      (arType d.access = 1 ∨ (s.has386 = true ∧ arType d.access = 9) →
        exec (.ltr rm) s =
          .next ((s.putBytes (d.addr + 5#32) [busy]).setSys { s.sys with tr := sysReg busy }).advance)) ∧
    stores .sldt s.sys.ldtr.sel ∧ stores .str s.sys.tr.sel

/-- A privileged instruction at another level is #GP(0), one that only protected mode has is #UD outside it, in
virtual-8086 mode an IOPL-sensitive instruction below IOPL 3 is #GP(0), and so is input or output that neither IOPL nor
the I/O permission bitmap allows: each taken from the unchanged state with the instruction's own address (R626, R627,
R628, R170, R601). That a move of a debug register gives #GP(0) also with DR7.GD = 1 is the model's order (log entry
26). -/
def Obligations.PrivilegeTraps : Prop :=
  ∀ (s : State) (i : Instr) (rm : RM) (m : MemOp) (reg : RegNum) (cr : CrNum) (dr : DrNum) (tr : TrNum)
      (v : BitVec 8) (w : Bool) (port : BitVec 16),
    let gp : Host.Outcome State Fault Refusal := deliver ⟨13#8, .fault, s.eip, some 0#16⟩ s
    let ud : Host.Outcome State Fault Refusal := deliver ⟨6#8, .fault, s.eip, none⟩ s
    (s.cpl ≠ 0#2 →
      i ∈ ([.hlt, .clts, .invd, .wbinvd, .invlpg m, .lgdt m, .lidt m, .lmsw rm, .movToCr cr reg, .movFromCr cr reg,
        .movToDr dr reg, .movFromDr dr reg, .movToTr tr reg, .movFromTr tr reg] : List Instr) → exec i s = gp) ∧
    (s.protMode = true → s.cpl ≠ 0#2 → i ∈ ([.lldt rm, .ltr rm] : List Instr) → exec i s = gp) ∧
    (s.protMode = false →
      i ∈ ([.arpl reg rm, .lar reg rm, .lsl reg rm, .verr rm, .verw rm, .lldt rm, .ltr rm, .sldt rm,
        .str rm] : List Instr) → exec i s = ud) ∧
    (s.sys.cr0.pe = true → s.flags.iopl.toNat < s.cpl.toNat → i ∈ ([.cli, .sti] : List Instr) → exec i s = gp) ∧
    (s.v86 = true → s.flags.iopl ≠ 3#2 → i ∈ ([.cli, .sti, .pushf, .popf, .intN v, .iret] : List Instr) →
      exec i s = gp) ∧
    (s.ioDenies port (s.opW w).bytes = true →
      (port = v.setWidth 16 → i ∈ ([.inPort w v, .outPort w v] : List Instr) → exec i s = gp) ∧
      (port = s.reg .w16 rDX → i ∈ ([.inDx w, .outDx w, .ins w, .outs w] : List Instr) → exec i s = gp) ∧
      (port = s.reg .w16 rDX → s.count ≠ 0#32 → i ∈ ([.repIns w, .repOuts w] : List Instr) → exec i s = gp))

/-! The coprocessor. Exceptions that are not masked are reported by the next instruction that waits (R641), so every
instruction below completes. -/

/-- Every coprocessor instruction without memory operand that computes with the register stack completes when the
coprocessor is ready (R424, R482, 48_x87.md): it changes the coprocessor and its signals, and nothing else. Where no
coprocessor is fitted it is a no-operation (R424; the model's choice, log entry 56).

The transcendental functions (R530 to R537): the exact cases of their rules; C2 = 1 and nothing else, with ST(0) as it
is, for a magnitude of at least 2^63; the range of FPATAN; and with all exceptions masked the registers each writes,
pushes and pops, whatever the operands are (log entries 31 and 52: the choice of this model for a NaN or an infinity in
an instruction with two results and for an operand outside the domain).

Stack faults (R476): a push onto a register that is not empty, and an operand register that is empty: IE, SF but on the
80287, C1 (1 and 0); masked, the real indefinite in the destination, else no register changes. An operand that is there
is no NaN (log entry 62), no pre-standard value of the 80287 (log entry 52), and no denormal that is not masked (log
entry 51). -/
def Obligations.NpxStackComplete : Prop :=
  ∀ (i : Instr) (s : State) (k : BitVec 3) (n : Int) (e : Bool),
    let p := s.fpu
    let top := p.status.top
    let a := p.st 0#3
    let y := p.st 1#3
    let indefinite : BitVec 80 := 0xFFFFC000000000000000#80
    let one : BitVec 80 := 0x3FFF8000000000000000#80
    let infinity : BitVec 80 := 0x7FFF8000000000000000#80
    let negative (v : BitVec 80) : BitVec 80 := v ||| 0x80000000000000000000#80
    let ends (i : Instr) (r : Oct (BitVec 80)) (t : BitVec 3) (g : Oct Tag) (c : FpuStatus → Prop) : Prop :=
      ∃ (f : Fpu) (l : NpxLink) (d : Nat), exec i s = .next (s.npxDone f l d) ∧ f.cw = p.cw ∧ f.regs = r ∧
        f.status.top = t ∧ f.tags = g ∧ c f.status
    let replaces (i : Instr) (v : BitVec 80) (c : FpuStatus → Prop) : Prop :=
      ends i (p.regs.set top v) top (p.tags.set top (tTag v)) c
    let pushes (i : Instr) (v w : BitVec 80) (c : FpuStatus → Prop) : Prop :=
      ends i ((p.regs.set top v).set (top - 1#3) w) (top - 1#3)
        ((p.tags.set top (tTag v)).set (top - 1#3) (tTag w)) c
    let pops (i : Instr) (v : BitVec 80) (c : FpuStatus → Prop) : Prop :=
      ends i (p.regs.set (top + 1#3) v) (top + 1#3) ((p.tags.set (top + 1#3) (tTag v)).set top .empty) c
    let unchanged (i : Instr) (c : FpuStatus → Prop) : Prop := ends i p.regs top p.tags c
    let any : FpuStatus → Prop := fun _ => True
    let small : FpuStatus → Prop := fun t => t.c2 = false
    let calm (v : BitVec 80) : Prop := tIsDenormal v = true → s.npxMask 1 = true
    let number (v : BitVec 80) : Prop := tIsNan v = false ∧ tUnsupported v = false ∧ calm v
    let finite (v : BitVec 80) : Prop := number v ∧ tIsInf v = false
    let large : Prop := finite a ∧ 16446 ≤ (a.extractLsb' 64 15).toNat
    let es : Bool := p.status.es || p.unmasked
    let masked : Prop := ∀ j : Nat, j < 6 → s.npxMask j = true
    let fault (c1 : Bool) : FpuStatus → Prop := fun t =>
      t.ie = true ∧ t.sf = (p.status.sf || !s.n287) ∧ (s.n287 = false → t.c1 = c1) ∧
        (s.npxMask 0 = false → t.es = true)
    let overflows (i : Instr) : Prop :=
      if s.npxMask 0 then
        ends i (p.regs.set (top - 1#3) indefinite) (top - 1#3) (p.tags.set (top - 1#3) .special) (fault true)
      else unchanged i (fault true)
    let there (j : BitVec 3) : Prop := p.isEmpty j = false → number (p.st j)
    let underflows (i : Instr) (dst : BitVec 3) (popped : Bool) : Prop :=
      if s.npxMask 0 then
        ends i (p.regs.set (top + dst) indefinite) (if popped then top + 1#3 else top)
          (if popped then (p.tags.set (top + dst) .special).set top .empty else p.tags.set (top + dst) .special)
          (fault false)
      else unchanged i (fault false)
    (Instr.npxStackOp i = true →
      (s.npxReady = true → ∃ (f : Fpu) (l : NpxLink) (d : Nat), exec i s = .next (s.npxDone f l d)) ∧
      (s.npxMissing = true → exec i s = .next s.advance)) ∧
    (s.npxReady = true → p.isEmpty 0#3 = false →
      (tIsZero a = true → replaces .fsin a small ∧ replaces .fcos one small ∧ replaces .f2xm1 a any) ∧
      (tIsZero a = true → p.isEmpty 7#3 = true →
        pushes .fsincos a one small ∧ (s.n287 = false → pushes .fptan a one small) ∧
        (s.n287 = true → ∃ w : BitVec 80, pushes .fptan a w any)) ∧
      (s.n287 = false → a = one → replaces .f2xm1 one any) ∧
      (s.n287 = false → a = negative one → replaces .f2xm1 0xBFFE8000000000000000#80 any) ∧
      (large →
        let kept : FpuStatus → Prop := fun t =>
          t = { p.status with c3 := t.c3, c2 := true, c1 := t.c1, c0 := t.c0, es := es }
        let exactly : FpuStatus → Prop := fun t => t = { p.status with c2 := true, es := es }
        unchanged .fsin kept ∧ unchanged .fcos kept ∧ unchanged .fsincos exactly ∧
        (s.n287 = false → unchanged .fptan exactly)) ∧
      (masked → ¬ large →
        (∃ v, replaces .fsin v any) ∧ (∃ v, replaces .fcos v any) ∧
        (p.isEmpty 7#3 = true → ∃ v w, pushes .fsincos v w any)) ∧
      (masked → (∃ v, replaces .f2xm1 v any) ∧
        (p.isEmpty 7#3 = true → s.n287 = false → ¬ large → ∃ v w, pushes .fptan v w any ∧ (finite a → w = one)) ∧
        (p.isEmpty 7#3 = true → s.n287 = true → ∃ v w, pushes .fptan v w any))) ∧
    (s.npxReady = true → p.isEmpty 0#3 = false → p.isEmpty 1#3 = false → number a → number y →
      (a = one → tIsInf y = false → pops .fyl2x (tZero (tSign y)) any) ∧
      (-16382 ≤ n → n ≤ 16383 → a = 0#1 ++ BitVec.ofInt 15 (n + 16383) ++ 0x8000000000000000#64 → y = one →
        pops .fyl2x (ofInt n) any) ∧
      (tIsZero a = true → tIsZero y = false → tIsInf y = false → s.npxMask 2 = true →
        pops .fyl2x (if tSign y then infinity else negative infinity) (fun t => t.ze = true)) ∧
      (tSign a = true → tIsZero a = false → s.npxMask 0 = true → pops .fyl2x indefinite (fun t => t.ie = true)) ∧
      (tIsZero a = true → tIsInf y = false → ∃ neg : Bool, pops .fyl2xp1 (tZero neg) any ∧
        (tSign a = false → tSign y = false → neg = false)) ∧
      (tIsZero y = true → tSign a = false → tIsZero a = false → (s.n287 = true → tIsInf a = false) →
        pops .fpatan y any) ∧
      (masked → s.n287 = false → ∃ v : BitVec 80, pops .fpatan v any ∧ tSign v = tSign y ∧
        (v.extractLsb' 0 79).toNat ≤ 0x4000C90FDAA22168C235)) ∧
    (s.npxReady = true → p.isEmpty 0#3 = false → p.isEmpty 1#3 = false → masked →
      (∃ v, pops .fpatan v any) ∧ (∃ v, pops .fyl2x v any) ∧ (∃ v, pops .fyl2xp1 v any)) ∧
    (s.npxReady = true → p.isEmpty 7#3 = false →
      (p.isEmpty k = false → overflows (.fldSt k)) ∧
      (i ∈ ([.fldz, .fld1, .fldpi, .fldl2t, .fldl2e, .fldlg2, .fldln2] : List Instr) → overflows i)) ∧
    (s.npxReady = true → p.isEmpty 0#3 = true →
      (i ∈ ([.fsqrt, .frndint, .fabs, .fchs, .f2xm1, .fsin, .fcos] : List Instr) → underflows i 0#3 false) ∧
      underflows (.fstSt k) k false ∧ underflows (.fstpSt k) k true) ∧
    (s.npxReady = true → p.isEmpty 0#3 = true ∨ p.isEmpty k = true → there 0#3 → there k →
      (i ∈ ([.faddSt e k, .fsubSt e k, .fsubrSt e k, .fmulSt e k, .fdivSt e k, .fdivrSt e k] : List Instr) →
        underflows i (if e then k else 0#3) false) ∧
      (i ∈ ([.faddp k, .fsubp k, .fsubrp k, .fmulp k, .fdivp k, .fdivrp k] : List Instr) → underflows i k true)) ∧
    (s.npxReady = true → p.isEmpty 0#3 = true ∨ p.isEmpty 1#3 = true → there 0#3 → there 1#3 →
      (i ∈ ([.fscale, .fprem, .fprem1] : List Instr) → underflows i 0#3 false) ∧
      (i ∈ ([.fpatan, .fyl2x, .fyl2xp1] : List Instr) → underflows i 1#3 true))

/-- Every coprocessor instruction that reads a number from memory completes when it is ready and the operand can be
read (R424, R482, R483 to R486, R496, R498, R514, R516, R518, R520): memory is unchanged. Where no coprocessor is
fitted it is a no-operation (R424; the model's choice, log entry 56). That the arithmetic and comparison forms complete
on a pre-standard operand of the 80287 and under the reserved precision control, with free results, is the model's choice
too (log entries 52 and 53).

What the loads push (R483 to R486): TOP falls by one and the new ST(0), with its tag, is the number converted, the
integer, the 80 bits themselves, or the value of the eighteen decimal digits, free where one is above 9; a signaling NaN
(on the 80287 every NaN) is quieted with IE, a denormal real raises DE, and neither is loaded where its exception is not
masked. Onto a register that is not empty a load is a stack overflow (R476). An arithmetic form with an empty ST(0) is a
stack underflow: the real indefinite, for an operand that is no NaN (log entry 62) and no denormal (log entry 51). -/
def Obligations.NpxSourcesComplete : Prop :=
  ∀ (i : Instr) (s : State) (m : MemOp) (n al : Nat) (x : Bool),
    let p := s.fpu
    let top := p.status.top
    let bits (n : Nat) : Nat := leNat (s.bytesAt (s.linOf (s.memSeg m) (s.ea m)) n)
    let indefinite : BitVec 80 := 0xFFFFC000000000000000#80
    let ends (i : Instr) (r : Oct (BitVec 80)) (t : BitVec 3) (g : Oct Tag) (c : FpuStatus → Prop) : Prop :=
      ∃ (f : Fpu) (l : NpxLink) (d : Nat), exec i s = .next (s.npxDone f l d) ∧ f.cw = p.cw ∧ f.regs = r ∧
        f.status.top = t ∧ f.tags = g ∧ c f.status
    let pushed (i : Instr) (v : BitVec 80) (ie de : Bool) : Prop :=
      ends i (p.regs.set (top - 1#3) v) (top - 1#3) (p.tags.set (top - 1#3) (tTag v))
        (fun t => t.ie = (p.status.ie || ie) ∧ t.de = (p.status.de || de))
    let stopped (i : Instr) (ie de : Bool) : Prop :=
      ends i p.regs top p.tags (fun t => t.ie = (p.status.ie || ie) ∧ t.de = (p.status.de || de) ∧ t.es = true)
    let fault (c1 : Bool) : FpuStatus → Prop := fun t =>
      t.ie = true ∧ t.sf = (p.status.sf || !s.n287) ∧ (s.n287 = false → t.c1 = c1) ∧
        (s.npxMask 0 = false → t.es = true)
    let overflows (i : Instr) : Prop :=
      if s.npxMask 0 then
        ends i (p.regs.set (top - 1#3) indefinite) (top - 1#3) (p.tags.set (top - 1#3) .special) (fault true)
      else ends i p.regs top p.tags (fault true)
    let underflows (i : Instr) : Prop :=
      if s.npxMask 0 then
        ends i (p.regs.set top indefinite) top (p.tags.set top .special) (fault false)
      else ends i p.regs top p.tags (fault false)
    let real := (realFmt x).load s.n287 (bits (realFmt x).bytes)
    let source (f : NumFmt) : BitVec 80 × Bool := f.load false (bits f.bytes)
    let digit (k : Nat) : Nat := bits 9 / 16 ^ k % 16
    let decimal : Nat := ((List.range 18).map (fun k => digit k * 10 ^ k)).sum
    (Instr.npxSource i = some (m, n, al) →
      (s.npxReady = true → s.npxReaches m n false al = true →
        ∃ (f : Fpu) (l : NpxLink) (d : Nat), exec i s = .next (s.npxDone f l d)) ∧
      (s.npxMissing = true → exec i s = .next s.advance)) ∧
    (s.npxReady = true → p.isEmpty 7#3 = true →
      (s.npxReaches m (realFmt x).bytes false (realFmt x).bytes = true →
        if tIsSignaling real.1 = true ∨ (s.n287 = true ∧ tIsNan real.1 = true) then
          if s.npxMask 0 then pushed (.fldMem x m) (real.1 ||| 0x4000000000000000#80) true false
          else stopped (.fldMem x m) true false
        else if real.2 = true ∧ s.npxMask 1 = false then stopped (.fldMem x m) false true
        else pushed (.fldMem x m) real.1 false real.2) ∧
      (s.npxReaches m 2 false 2 = true → pushed (.fild true m) (ofInt (BitVec.ofNat 16 (bits 2)).toInt) false false) ∧
      (s.npxReaches m 4 false 4 = true → pushed (.fild false m) (ofInt (BitVec.ofNat 32 (bits 4)).toInt) false false) ∧
      (s.npxReaches m 8 false 8 = true → pushed (.fildM64 m) (ofInt (BitVec.ofNat 64 (bits 8)).toInt) false false) ∧
      (s.npxReaches m 10 false 8 = true →
        pushed (.fldM80 m) (BitVec.ofNat 80 (bits 10)) false false ∧
        ((∀ k : Nat, k < 18 → digit k < 10) →
          pushed (.fbld m) (packTemp ((bits 10).testBit 79) decimal 0) false false) ∧
        (∃ v : BitVec 80, pushed (.fbld m) v false false))) ∧
    (s.npxReady = true → p.isEmpty 7#3 = false →
      (s.npxReaches m (realFmt x).bytes false (realFmt x).bytes = true → (real.2 = true → s.npxMask 1 = true) →
        overflows (.fldMem x m)) ∧
      (s.npxReaches m (intFmt x).bytes false (intFmt x).bytes = true → overflows (.fild x m)) ∧
      (s.npxReaches m 8 false 8 = true → overflows (.fildM64 m)) ∧
      (s.npxReaches m 10 false 8 = true → overflows (.fldM80 m) ∧ overflows (.fbld m))) ∧
    (s.npxReady = true → p.isEmpty 0#3 = true →
      (s.npxReaches m (realFmt x).bytes false (realFmt x).bytes = true → (source (realFmt x)).2 = false →
        tIsNan (source (realFmt x)).1 = false →
        (i ∈ ([.faddMem x m, .fsubMem x m, .fsubrMem x m, .fmulMem x m, .fdivMem x m, .fdivrMem x m] : List Instr) →
          underflows i)) ∧
      (s.npxReaches m (intFmt x).bytes false (intFmt x).bytes = true →
        (i ∈ ([.fiadd x m, .fisub x m, .fisubr x m, .fimul x m, .fidiv x m, .fidivr x m] : List Instr) →
          underflows i)))

/-- Every coprocessor instruction that stores a number completes when it is ready and the operand can be written
(R424, R482, R488, R490 to R493): it stores the bytes of ST(0) in the operand's format, as the conversion of R488 or R493
gives them (`npxStored` of Safety), and pops if it is a popping form; or it stores nothing and pops nothing, only with an
exception that is not masked. No other byte and no register changes. Bytes are free for a pre-standard operand of the
80287 (log entry 52), and where no coprocessor is fitted (R424; the model's choice, log entry 56). -/
def Obligations.NpxStoresComplete : Prop :=
  ∀ (i : Instr) (s : State) (m : MemOp) (n al : Nat),
    let p := s.fpu
    let top := p.status.top
    let pops : Bool := (s.npxStored i).2
    Instr.npxDest i = some (m, n, al) → s.npxReaches m n true al = true →
    (s.npxReady = true → ∃ (f : Fpu) (l : NpxLink) (d : Nat) (bs : List Byte),
      exec i s = .next ((s.putBytes (s.linOf (s.memSeg m) (s.ea m)) bs).npxDone f l d) ∧
      (i = .fstpM80 m → p.isEmpty 0#3 = false → bs = leBytes 10 (p.st 0#3).toNat) ∧ f.regs = p.regs ∧
      ((bs = [] ∧ f.status.es = true ∧ f.unmasked = true ∧ f.status.top = top ∧ f.tags = p.tags) ∨
       (bs.length = n ∧ (∀ stored, (s.npxStored i).1 = some stored → bs = stored) ∧
        f.status.top = (if pops then top + 1#3 else top) ∧
        f.tags = (if pops then p.tags.set top .empty else p.tags)))) ∧
    (s.npxMissing = true → ∃ (bs : List Byte) (d : Nat), bs.length = n ∧
      exec i s = .next ((s.putBytes (s.linOf (s.memSeg m) (s.ea m)) bs).setDraws d).advance)

/-- The coprocessor's control instructions (R538 to R548): FINIT, FSETPM of the 80287, the encodings an external
coprocessor ignores (R552), without check and record (the model's choices, log entries 55 and 77), FSTSW AX, FCLEX; FLDCW, FSTCW, FSTSW; FSTENV, which also
masks all exceptions, FLDENV; FSAVE, which also initialises, FRSTOR. The image stored and loaded is that of R560, by
operand size and mode: control, status and tag word, instruction pointer with opcode, data pointer; in 32 bits the
reserved halves and the unused bits are free (U18, log entry 66). A loaded tag is that of its register but for 'empty',
on the 80287 the loaded one (R473). The condition codes no rule states are free values (log entry 29); B is stored as
a copy of ES, on the 80287 too (log entry 42); a loaded real-mode pointer is kept as selector 0 and its linear address
(log entry 33); FOP is free after a 16-bit protected image, which has no opcode field (log entry 78). That FSTSW AX
records no pointer (log entry 69), and that FCLEX leaves the request of IRQ 13 that the error made (log entry 13), are the
model's choices. -/
def Obligations.NpxControlComplete : Prop :=
  ∀ (s : State) (m : MemOp),
    let p := s.fpu
    let lin := s.linOf (s.memSeg m) (s.ea m)
    let wide : Bool := s.os == .s32
    let e : Nat := if wide then 28 else 14
    let al : Nat := if wide then 4 else 2
    let real : Bool := if s.n287 then !p.pm287 else !s.protMode
    let zero : FarPtr := ⟨0#16, 0#32⟩
    let codes (f : Fpu) (c3 c2 c1 c0 : Bool) : Fpu :=
      { f with status := { f.status with c3 := c3, c2 := c2, c1 := c1, c0 := c0 } }
    let t4 := s.setDraws (s.draws + 4)
    let cw : BitVec 16 := (p.cw &&& 0x1F3F#16) ||| 0x40#16
    let sw : BitVec 16 := p.status.word p.status.es
    let ip20 := (p.fip.sel.setWidth 32 <<< 4) + p.fip.off
    let dp20 := (p.fdp.sel.setWidth 32 <<< 4) + p.fdp.off
    let words : List (BitVec 16) := [cw, sw, p.tagWord] ++
      (if real then [ip20.extractLsb' 0 16, ip20.extractLsb' 16 4 ++ 0#1 ++ p.fop, dp20.extractLsb' 0 16,
         dp20.extractLsb' 16 4 ++ 0#12]
       else [p.fip.off.extractLsb' 0 16, p.fip.sel, p.fdp.off.extractLsb' 0 16, p.fdp.sel])
    let dwords (u : Nat → BitVec 16) (n : BitVec 4) (b : BitVec 1) : List (BitVec 32) :=
      [u 0 ++ cw, u 1 ++ sw, u 2 ++ p.tagWord] ++
      (if real then [u 3 ++ ip20.extractLsb' 0 16, n ++ ip20.extractLsb' 16 16 ++ b ++ p.fop,
         u 4 ++ dp20.extractLsb' 0 16, 0#4 ++ dp20.extractLsb' 16 16 ++ 0#12]
       else [p.fip.off, n ++ 0#1 ++ p.fop ++ p.fip.sel, p.fdp.off, u 4 ++ p.fdp.sel])
    let image (bs : List Byte) : Prop :=
      (wide = false → bs = words.flatMap (fun x => leBytes 2 x.toNat)) ∧
      (wide = true → ∃ (u : Nat → BitVec 16) (n : BitVec 4) (b : BitVec 1),
        bs = (dwords u n b).flatMap (fun x => leBytes 4 x.toNat))
    let w16 (k : Nat) : BitVec 16 := leVal 16 (s.bytesAt (lin + BitVec.ofNat 32 ((if wide then 4 else 2) * k)) 2)
    let w32 (k : Nat) : BitVec 32 := leVal 32 (s.bytesAt (lin + BitVec.ofNat 32 (4 * k)) 4)
    let loaded (f : Fpu) : Prop :=
      f.cw = w16 0 ∧ f.status = { FpuStatus.ofWord (w16 1) with
        es := f.unmasked, sf := (w16 1).getLsbD 6 && !s.n287 } ∧
      (∀ j : BitVec 3, f.tags.get j =
        let code : BitVec 2 := (w16 2).extractLsb' (2 * j.toNat) 2
        if s.n287 = true ∨ code = 3#2 then Tag.ofCode code else tTag (f.regs.get j)) ∧
      ∃ u : BitVec 11, (f.fip, f.fdp, f.fop) =
        (match wide, real with
        | false, true => (⟨0#16, 0#12 ++ (w16 4).extractLsb' 12 4 ++ w16 3⟩,
            ⟨0#16, 0#12 ++ (w16 6).extractLsb' 12 4 ++ w16 5⟩, (w16 4).extractLsb' 0 11)
        | false, false => (⟨w16 4, (w16 3).setWidth 32⟩, ⟨w16 6, (w16 5).setWidth 32⟩, u)
        | true, true => (⟨0#16, (w32 4).extractLsb' 12 16 ++ w16 3⟩,
            ⟨0#16, (w32 6).extractLsb' 12 16 ++ w16 5⟩, (w32 4).extractLsb' 0 11)
        | true, false => (⟨w16 4, w32 3⟩, ⟨w16 6, w32 5⟩, (w32 4).extractLsb' 16 11))
    s.sys.cr0.em = false → s.sys.cr0.ts = false → s.cfg.npx ≠ .absent →
    (exec .finit s = .next ((s.setFpu { s.fpu with
      cw := 0x037F#16, status := FpuStatus.ofWord 0#16, tags := Oct.all .empty
      fip := if s.n287 then s.fpu.fip else zero
      fdp := if s.n287 then s.fpu.fdp else zero
      fop := if s.n287 then s.fpu.fop else 0#11 }).setLink { s.link with irq13 := false }).advance) ∧
    (s.n287 = true → exec .fsetpm s = .next (s.setFpu { s.fpu with pm287 := true }).advance) ∧
    (s.cfg.npx = .n387 → exec .fsetpm s = .next s.advance) ∧
    (s.cfg.npx ≠ .integrated → ∀ rm : RM, rm ∈ ([.reg 0#3, .reg 1#3, .reg 4#3] : List RM) →
      exec (.esc 3#3 4#3 rm) s = .next s.advance) ∧
    (∃ c3 c2 c1 c0 : Bool, exec .fstswAx s =
      .next ((t4.regPut .w16 rAX sw).setFpu (codes s.fpu c3 c2 c1 c0)).advance) ∧
    (∃ c3 c2 c1 c0 : Bool, exec .fclex s = .next (t4.setFpu (codes { s.fpu with status := { s.fpu.status with
      ie := false, de := false, ze := false, oe := false, ue := false, pe := false, sf := false, es := false } }
      c3 c2 c1 c0)).advance) ∧
    (s.npxReaches m 2 true 2 = true →
      ∃ c3 c2 c1 c0 : Bool,
        exec (.fstcw m) s = .next ((t4.putBytes lin (leBytes 2 cw.toNat)).setFpu (codes s.fpu c3 c2 c1 c0)).advance ∧
        exec (.fstsw m) s = .next ((t4.putBytes lin (leBytes 2 sw.toNat)).setFpu (codes s.fpu c3 c2 c1 c0)).advance) ∧
    (s.npxReady = true → s.npxReaches m 2 false 2 = true →
      ∃ (f : Fpu) (l : NpxLink) (d : Nat), exec (.fldcw m) s = .next (s.npxDone f l d) ∧
        f.cw = leVal 16 (s.bytesAt lin 2) ∧ f.regs = s.fpu.regs ∧ f.tags = s.fpu.tags ∧
        f.status.top = s.fpu.status.top ∧ f.status.es = f.unmasked) ∧
    (s.npxReaches m e true al = true →
      ∃ (f : Fpu) (d : Nat) (bs : List Byte), image bs ∧
        exec (.fstenv m) s = .next ((s.putBytes lin bs).npxDone f s.link d) ∧
        f.cw = (s.fpu.cw ||| 0x3F#16) ∧ f.regs = s.fpu.regs ∧ f.tags = s.fpu.tags ∧
        f.status.top = s.fpu.status.top ∧ f.status.es = false) ∧
    (s.npxReady = true → s.npxReaches m e false al = true →
      ∃ (f : Fpu) (l : NpxLink) (d : Nat), exec (.fldenv m) s = .next (s.npxDone f l d) ∧ loaded f ∧
        f.regs = s.fpu.regs) ∧
    (s.npxReaches m (e + 80) true al = true →
      ∃ (f : Fpu) (d : Nat) (bs : List Byte), image bs ∧
        exec (.fsave m) s = .next ((s.putBytes lin (bs ++ [0#3, 1#3, 2#3, 3#3, 4#3, 5#3, 6#3, 7#3].flatMap
          (fun k => leBytes 10 (s.fpu.st k).toNat))).npxDone f { s.link with irq13 := false } d) ∧
        f.cw = 0x037F#16 ∧ f.status = FpuStatus.ofWord 0#16 ∧ f.tags = Oct.all .empty) ∧
    (s.npxReady = true → s.npxReaches m (e + 80) false al = true →
      ∃ (f : Fpu) (l : NpxLink) (d : Nat), exec (.frstor m) s = .next (s.npxDone f l d) ∧ loaded f ∧
        (∀ k : BitVec 3, f.st k = leVal 80 (s.bytesAt (lin + BitVec.ofNat 32 (e + 10 * k.toNat)) 10)))

/-- The load-constant instructions (R507 to R513): the value each rule gives is pushed, on the 80387 and 80486 for
RC = nearest where the constant is not exact. -/
def Obligations.NpxConstants : Prop :=
  ∀ (s : State),
    let pushesValue (i : Instr) (code : BitVec 8) (v : BitVec 80) : Prop :=
      encode i = [0xD9#8, code] ∧
      ∃ (f : Fpu) (l : NpxLink) (d : Nat), exec i s = .next (s.npxDone f l d) ∧
        f.status.top = s.fpu.status.top - 1#3 ∧ f.regs = s.fpu.regs.set f.status.top v ∧
        f.tags = s.fpu.tags.set f.status.top (if v = 0#80 then .zero else .valid)
    s.npxReady = true → s.fpu.isEmpty 7#3 = true →
    pushesValue .fldz 0xEE#8 0x00000000000000000000#80 ∧
    pushesValue .fld1 0xE8#8 0x3FFF8000000000000000#80 ∧
    (s.n287 = false → s.fpu.cw.extractLsb' 10 2 = 0#2 →
      pushesValue .fldpi 0xEB#8 0x4000C90FDAA22168C235#80 ∧
      pushesValue .fldl2t 0xE9#8 0x4000D49A784BCD1B8AFE#80 ∧
      pushesValue .fldl2e 0xEA#8 0x3FFFB8AA3B295C17F0BC#80 ∧
      pushesValue .fldlg2 0xEC#8 0x3FFD9A209A84FBCFF799#80 ∧
      pushesValue .fldln2 0xED#8 0x3FFEB17217F7D1CF79AC#80)

/-- The instructions that move coprocessor registers (R487, R489, R494, R495, R528, R529, R549 to R551, R553): FLD, FST
and FSTP of a register, FXCH, FABS and FCHS, FINCSTP, FDECSTP, FFREE, FNOP, with operands that are not empty. -/
def Obligations.NpxRegisterMoves : Prop :=
  ∀ (s : State) (k : BitVec 3),
    let p := s.fpu
    let top := p.status.top
    let st (j : BitVec 3) : BitVec 80 := p.regs.get (top + j)
    let runs (i : Instr) (t : BitVec 3) (r : Oct (BitVec 80)) (g : Oct Tag) : Prop :=
      ∃ (f : Fpu) (l : NpxLink) (d : Nat), exec i s = .next (s.npxDone f l d) ∧
        f.status.top = t ∧ f.regs = r ∧ f.tags = g ∧ f.cw = p.cw
    s.npxReady = true →
    runs .fincstp (top + 1#3) p.regs p.tags ∧ runs .fdecstp (top - 1#3) p.regs p.tags ∧
    runs (.ffree k) top p.regs (p.tags.set (top + k) .empty) ∧ runs .fnop top p.regs p.tags ∧
    (p.isEmpty k = false → p.isEmpty 7#3 = true →
      runs (.fldSt k) (top - 1#3) (p.regs.set (top - 1#3) (st k)) (p.tags.set (top - 1#3) (tTag (st k)))) ∧
    (p.isEmpty 0#3 = false →
      runs (.fstSt k) top (p.regs.set (top + k) (st 0#3)) (p.tags.set (top + k) (tTag (st 0#3))) ∧
      runs (.fstpSt k) (top + 1#3) (p.regs.set (top + k) (st 0#3))
        ((p.tags.set (top + k) (tTag (st 0#3))).set top .empty) ∧
      runs .fabs top (p.regs.set top (0#1 ++ (st 0#3).extractLsb' 0 79))
        (p.tags.set top (tTag (0#1 ++ (st 0#3).extractLsb' 0 79))) ∧
      runs .fchs top (p.regs.set top (~~~ (st 0#3).extractLsb' 79 1 ++ (st 0#3).extractLsb' 0 79))
        (p.tags.set top (tTag (~~~ (st 0#3).extractLsb' 79 1 ++ (st 0#3).extractLsb' 0 79)))) ∧
    (p.isEmpty 0#3 = false → p.isEmpty k = false →
      runs (.fxch k) top ((p.regs.set top (st k)).set (top + k) (st 0#3))
        ((p.tags.set top (p.tag k)).set (top + k) (p.tag 0#3)))

/-- The fields d, P and R of FADD, FMUL, FSUB, FSUBR, FDIV and FDIVR (R481). Register forms, by the bits of their
words: d selects the destination, ST(0) or ST(i), which takes the result; with P = 1 ST(0) is popped; of subtraction and
division with d = 0 R exchanges the operands, with d = 1 the sense of R is reversed. Memory forms: the destination is
ST(0), and R = 1 exchanges the operands. For results that are numbers, of operands that are no denormals unless that
exception is masked. -/
def Obligations.NpxOperandOrder : Prop :=
  ∀ (s : State) (k : BitVec 3) (op : ArOp) (d r p : Bool) (i : Instr) (v : BitVec 80) (oe ue pe up : Bool)
      (mem : MemOp) (int x : Bool),
    let u := s.fpu
    let top := u.status.top
    let b (x : Bool) : BitVec 1 := BitVec.ofBool x
    let dst : BitVec 3 := if d then k else 0#3
    let src : BitVec 3 := if d then 0#3 else k
    let ordered : Bool := op = .sub || op = .div
    let reversed : Bool := ordered && (if d then !r else r)
    let mid : BitVec 3 :=
      match op with
      | .add => 0#3
      | .mul => 1#3
      | .sub => 2#2 ++ b r
      | .div => 3#2 ++ b r
    let fmt : NumFmt := if int then intFmt x else realFmt x
    let row : Instr :=
      match op, int, r with
      | .add, false, _ => .faddMem x mem
      | .add, true, _ => .fiadd x mem
      | .mul, false, _ => .fmulMem x mem
      | .mul, true, _ => .fimul x mem
      | .sub, false, false => .fsubMem x mem
      | .sub, false, true => .fsubrMem x mem
      | .sub, true, false => .fisub x mem
      | .sub, true, true => .fisubr x mem
      | .div, false, false => .fdivMem x mem
      | .div, false, true => .fdivrMem x mem
      | .div, true, false => .fidiv x mem
      | .div, true, true => .fidivr x mem
    let number := fmt.load false (leNat (s.bytesAt (s.linOf (s.memSeg mem) (s.ea mem)) fmt.bytes))
    (ordered = false → r = false) → s.npxReady = true → u.isEmpty 0#3 = false →
    ((p = true → d = true) →
      decode ⟨.p486, .integrated, .s16, .s16, none⟩
        [0x1B#5 ++ b d ++ b p ++ 0#1, 3#2 ++ mid ++ k] = .instr i 2 →
      u.isEmpty k = false →
      (s.npxMask 1 = true ∨ (tIsDenormal (u.st dst) = false ∧ tIsDenormal (u.st src) = false)) →
      arith s.n287 u.cw op (u.st (if reversed then src else dst)) (u.st (if reversed then dst else src)) =
        .value v oe ue pe up →
      ∃ (f : Fpu) (l : NpxLink) (n : Nat), exec i s = .next (s.npxDone f l n) ∧
        f.regs = u.regs.set (top + dst) v ∧ f.status.top = (if p then top + 1#3 else top) ∧
        f.tags = (if p then (u.tags.set (top + dst) (tTag v)).set top .empty else u.tags.set (top + dst) (tTag v))) ∧
    (s.npxReaches mem fmt.bytes false fmt.bytes = true →
      (int = true ∨ s.npxMask 1 = true ∨ (tIsDenormal (u.st 0#3) = false ∧ number.2 = false)) →
      arith s.n287 u.cw op (if r then number.1 else u.st 0#3) (if r then u.st 0#3 else number.1) =
        .value v oe ue pe up →
      encode row =
        (0x1B#5 ++ (if int then b x ++ 1#1 ++ 0#1 else b x ++ 0#2)) :: encMem mid mem ∧
      ∃ (f : Fpu) (l : NpxLink) (n : Nat), exec row s = .next (s.npxDone f l n) ∧
        f.regs = u.regs.set top v ∧ f.status.top = top ∧ f.tags = u.tags.set top (tTag v))

/-- The arithmetic is exact where the result fits the 64 bits of a temporary real (R475, R477, R483, R488): sums,
differences, products and exact quotients of integers, their order, and the way from memory and back for integers and
for reals; no exception is raised. -/
def Obligations.NpxExactArithmetic : Prop :=
  ∀ (n287 keep : Bool) (cw : BitVec 16) (a b : Int) (v : Nat),
    let exact (r : Res) (n : Int) : Prop := n.natAbs < 2 ^ 64 → n ≠ 0 → r = .value (ofInt n) false false false false
    (a.natAbs < 2 ^ 64 → b.natAbs < 2 ^ 64 → cwPc cw = some 64 →
      exact (arith n287 cw .add (ofInt a) (ofInt b)) (a + b) ∧
      exact (arith n287 cw .sub (ofInt a) (ofInt b)) (a - b) ∧
      exact (arith n287 cw .mul (ofInt a) (ofInt b)) (a * b) ∧
      (b ≠ 0 → (a * b).natAbs < 2 ^ 64 → a ≠ 0 →
        arith n287 cw .div (ofInt (a * b)) (ofInt b) = .value (ofInt a) false false false false) ∧
      cmpValues (ofInt a) (ofInt b) = (if b < a then .greater else if a < b then .less else .equal)) ∧
    (v < 2 ^ 64 → NumFmt.int64.store n287 cw (NumFmt.int64.load keep v).1 = .value v false false false false) ∧
    (v < 2 ^ 32 → NumFmt.int32.store n287 cw (NumFmt.int32.load keep v).1 = .value v false false false false) ∧
    (v < 2 ^ 16 → NumFmt.int16.store n287 cw (NumFmt.int16.load keep v).1 = .value v false false false false) ∧
    (v < 2 ^ 64 → 0 < v / 2 ^ 52 % 2 ^ 11 → v / 2 ^ 52 % 2 ^ 11 < 2047 →
      NumFmt.real64.store n287 cw (NumFmt.real64.load keep v).1 = .value v false false false false) ∧
    (v < 2 ^ 32 → 0 < v / 2 ^ 23 % 2 ^ 8 → v / 2 ^ 23 % 2 ^ 8 < 255 →
      NumFmt.real32.store n287 cw (NumFmt.real32.load keep v).1 = .value v false false false false)

/-- When the coprocessor cannot run an instruction (R424, R641, R642, R552): with EM or TS every coprocessor
instruction is #NM; WAIT is #NM with MP and TS; a pending error with NE = 1 is #MF before a waiting instruction has any
effect, whose memory operand is checked before (R424); an encoding that no row assigns is #UD on the 80486 (log entry
36). Each is taken from the unchanged state; ESC completes by that entry, given in full for real-address mode. -/
def Obligations.NpxTraps : Prop :=
  ∀ (s : State) (i : Instr) (m : MemOp) (ttt lll : BitVec 3) (rm : RM),
    let nm : Host.Outcome State Fault Refusal := deliver ⟨7#8, .fault, s.eip, none⟩ s
    let mf : Host.Outcome State Fault Refusal := deliver ⟨16#8, .fault, s.eip, none⟩ s
    let ud : Event := ⟨6#8, .fault, s.eip, none⟩
    let e : Nat := if s.os = .s32 then 28 else 14
    let ad : Nat := if s.os = .s32 then 4 else 2
    (s.sys.cr0.em = true ∨ s.sys.cr0.ts = true →
      (Instr.npxStackOp i = true ∨ (Instr.npxSource i).isSome = true ∨ (Instr.npxDest i).isSome = true ∨
        i ∈ ([.finit, .fsetpm, .fstswAx, .fclex, .fldcw m, .fstcw m, .fstsw m, .fstenv m, .fldenv m, .fsave m,
          .frstor m] : List Instr)) → exec i s = nm) ∧
    (s.sys.cr0.mp = true → s.sys.cr0.ts = true → exec .wait s = nm) ∧
    (s.nativeErrors = true → s.fpu.status.es = true → s.sys.cr0.em = false → s.sys.cr0.ts = false →
      s.cfg.npx ≠ .absent →
      (Instr.npxStackOp i = true ∨ i = .wait → exec i s = mf) ∧
      (∀ n al : Nat, Instr.npxSource i = some (m, n, al) → s.npxReaches m n false al = true → exec i s = mf) ∧
      (∀ n al : Nat, Instr.npxDest i = some (m, n, al) → s.npxReaches m n true al = true → exec i s = mf) ∧
      (s.npxReaches m 2 false 2 = true → exec (.fldcw m) s = mf) ∧
      (s.npxReaches m e false ad = true → exec (.fldenv m) s = mf) ∧
      (s.npxReaches m (e + 80) false ad = true → exec (.frstor m) s = mf)) ∧
    (s.cfg.npx = .integrated → exec (.esc ttt lll rm) s = deliver ud s) ∧
    (s.cfg.npx = .integrated → s.entersReal ud = true → exec (.esc ttt lll rm) s = .next (s.enteredReal ud))

/-! Memory, paging and exceptions. -/

/-- What a store changes (R70, R71, R74), of memory in its canonical form: a byte outside the stored ones reads as before,
the stored ones read back, in little-endian order, and no other part of the state changes but the note of stored bytes
(R117). And what an access to memory is turned away for (R90, R224, R110), shown by MOV: in protected mode a segment that
is not usable or does not allow the access, in every mode an operand that is not wholly within the segment, and on the
80486 a misaligned operand at level 3 with CR0.AM and AC; each is taken from the unchanged state. -/
def Obligations.StoresChangeTheirBytes : Prop :=
  ∀ (s : State) (lin : BitVec 32) (bs : List Byte) (w : Width) (v : Val w) (a i : Nat) (wb : Bool) (reg : RegNum)
      (m : MemOp),
    let t := s.putBytes lin bs
    let u := s.putBytes lin (leBytes w.bytes v.toNat)
    let k := s.memSeg m
    let off := (s.ea m).toNat
    let r := s.segs.get k
    let n := (s.opW wb).bytes
    let outside : Prop :=
      if arExpandDown r.access then off ≤ r.limit.toNat ∨ (if r.db then 2 ^ 32 else 2 ^ 16) < off + n
      else r.limit.toNat + 1 < off + n
    let load := exec (.movRegRm wb reg (.mem m)) s
    let store := exec (.movRmReg wb reg (.mem m)) s
    let trap (x : BitVec 8) : Host.Outcome State Fault Refusal := deliver ⟨x, .fault, s.eip, some 0#16⟩ s
    let segTrap := trap (if k = .ss then 12#8 else 13#8)
    let granted (right : BitVec 8 → Bool) : Prop := s.protMode = false ∨ (r.usable = true ∧ right r.access = true)
    let misaligned : Prop := s.has486 = true ∧ s.sys.cr0.am = true ∧ s.flags.ac = true ∧ s.cpl = 3#2 ∧
      (s.linOf k (s.ea m)).toNat % n ≠ 0
    (Memory.wf s.mem = true →
      t = (s.setMem t.mem).setStored t.stored ∧
      (s.within lin bs.length a = false → memGet t.mem a = memGet s.mem a) ∧
      (bs.length ≤ 2 ^ 20 → t.bytesAt lin bs.length = bs) ∧
      (i < w.bytes → memGet u.mem (s.flat (lin + BitVec.ofNat 32 i)) = (v >>> (8 * i)).setWidth 8) ∧
      leVal w.bits (u.bytesAt lin w.bytes) = v) ∧
    (s.protMode = true → r.usable = false → load = segTrap ∧ store = segTrap) ∧
    (s.protMode = true → r.usable = true → arReadable r.access = false → load = trap 13#8) ∧
    (s.protMode = true → r.usable = true → arWritable r.access = false → store = trap 13#8) ∧
    (granted arReadable → outside → load = segTrap) ∧ (granted arWritable → outside → store = segTrap) ∧
    (misaligned → s.paging = false →
      (granted arReadable → ¬ outside → load = trap 17#8) ∧ (granted arWritable → ¬ outside → store = trap 17#8))

/-- Translation of an address that no cached entry covers (R101, R103, R104, R33): the directory entry and the table
entry that the upper 10 and the next 10 bits select, the page frame linked with the lower 12 bits; an entry that is not
present or does not allow the access is a page fault that leaves the address in CR2. With memory in its canonical form,
both entries have then A set, the table entry D as well after a write, and no other byte has changed (R105). A byte loaded
by MOV is the one at the translated address. -/
def Obligations.PagingTranslates : Prop :=
  ∀ (s : State) (lin : BitVec 32) (write : Bool) (addr : Off),
    let user : Bool := s.cpl == 3#2
    let ram (a : Nat) : Prop := kindAt s.cfg.memmap (busAddr s.cfg a) = .ram
    let at4 (mem : List Host.Cell) (a : Nat) : BitVec 32 :=
      leVal 32 ([a, a + 1, a + 2, a + 3].map (fun x => memGet mem (busAddr s.cfg x)))
    let dir := (s.sys.cr3 &&& 0xFFFFF000#32).toNat + (lin.extractLsb' 22 10).toNat * 4
    let pde := at4 s.mem dir
    let tab := (pde &&& 0xFFFFF000#32).toNat + (lin.extractLsb' 12 10).toNat * 4
    let pte := at4 s.mem tab
    let phys : BitVec 32 := (pte &&& 0xFFFFF000#32) ||| (lin &&& 0xFFF#32)
    let both (k : Nat) : Bool := pde.getLsbD k && pte.getLsbD k
    let allowed (write : Bool) : Bool :=
      if user then both 2 && (!write || both 1) else !write || both 1 || !(s.sys.cr0.wp && s.has486)
    let code (write : Bool) : BitVec 16 := 0#13 ++ BitVec.ofBool user ++ BitVec.ofBool write ++ BitVec.ofBool (both 0)
    let failed : State := s.setSys { s.sys with cr2 := lin }
    s.paging = true → tlbFind s.tlb (lin.extractLsb' 12 20) = none → (∀ i, i < 4 → ram (dir + i)) →
    (pde.getLsbD 0 = true → ∀ i, i < 4 → ram (tab + i)) →
    (both 0 = true → allowed write = true →
      ∃ t : State, linAddrs lin 1 write user s = .ok [phys.toNat] t ∧
        t = ((s.setMem t.mem).setStored t.stored).setTlb t.tlb ∧
        (Memory.wf s.mem = true →
          at4 t.mem tab = pte ||| (if write then 0x60#32 else 0x20#32) ∧
          (busAddr s.cfg dir ≠ busAddr s.cfg tab → at4 t.mem dir = pde ||| 0x20#32) ∧
          (∀ x, (∀ i, i < 4 → x ≠ busAddr s.cfg (dir + i) ∧ x ≠ busAddr s.cfg (tab + i)) →
            memGet t.mem x = memGet s.mem x))) ∧
    (both 0 = false ∨ allowed write = false →
      linAddrs lin 1 write user s = .error (.exc ⟨14#8, some (code write)⟩) failed) ∧
    (s.linOf s.directSeg (Off.val addr) = lin → s.allows s.directSeg (Off.val addr) 1 false 1 = true →
      (both 0 = true → allowed false = true → ram phys.toNat →
        ∃ t : State, exec (.movAccMem false addr) s = .next t ∧
          t.reg .w8 rAL = memGet t.mem (busAddr s.cfg phys.toNat)) ∧
      (both 0 = false ∨ allowed false = false →
        exec (.movAccMem false addr) s = deliver ⟨14#8, .fault, s.eip, some (code false)⟩ failed))

/-- Taking an interrupt or exception in protected mode and from virtual-8086 mode (R611, R612, R602): INT n, INT 3 and a
taken INTO (R409 to R411), a fault with or without an error code, a trap, an interrupt from outside. The tests of R612
come in its order, each with the vector and the error code it raises: what is raised is delivered (one of the eight rounds
of log entry 18 is used), or, beside a first exception, the double fault; while the double fault is delivered it is a
shutdown (R604); the first event recurs as `BoundaryEvents` says. Past the tests, to the same level, the flags (RF as
R606 has it, 0 for an abort, log entry 71), CS, the return offset and the error code if there is one are pushed as items
of the gate's size (CS under a free half in 32 bits). To an inner level the stack of that level is first loaded from the
task state segment (without one #TS, log entry 22), and the old SS and stack pointer are pushed below the frame; from
virtual-8086 mode GS, FS, DS and ES too, which become null. CS is loaded with the new level as its requested level; TF,
NT, RF and VM are cleared, and IF by an interrupt gate. Descriptors may stand in the global or the local table; an
accessed bit that is 0 is set in memory (R91). Choices of this model: a stack pointer word of an 80286 task state segment
is zero-extended into all of ESP where the new stack segment is a 32-bit one (log entry 63); a pending single-step trap is
dropped on the 80286 too, where R635 says it of the others alone (log entry 43), and so is an interrupt shadow. -/
def Obligations.ProtectedEntry : Prop :=
  ∀ (s : State) (e : Event) (i : Instr) (d n : Desc),
    let v := e.vector
    let o := deliver e s
    let software : Bool := e.kind == .software
    let exception : Bool := e.kind == .fault || e.kind == .abort
    let ext : BitVec 16 := if software then 0#16 else 1#16
    let idt : BitVec 16 := BitVec.ofNat 16 (8 * v.toNat + 2) + ext
    let code (sel : BitVec 16) : BitVec 16 := (sel &&& 0xFFFC#16) + ext
    let second (x : BitVec 8) (c : BitVec 16) : Event :=
      if exception = true ∧ v ∈ [0#8, 10#8, 11#8, 12#8, 13#8, 14#8] then ⟨8#8, .abort, s.eip, some 0#16⟩
      else ⟨x, .fault, s.eip, some c⟩
    let fails (x : BitVec 8) (c : BitVec 16) : Prop :=
      o = if exception = true ∧ v = 8#8 then .next ((s.setCur Cur.start).setCtl { s.ctl with activity := .shutdown })
        else deliverWithin 7 (second x c) (s.recurring e)
    let a : BitVec 32 := s.sys.idtr.base + BitVec.ofNat 32 (v.toNat * 8)
    let lo : BitVec 32 := leVal 32 (s.bytesAt a 4)
    let hi : BitVec 32 := leVal 32 (s.bytesAt (a + 4#32) 4)
    let gate : BitVec 8 := hi.extractLsb' 8 8
    let wide : Bool := arType gate == 14 || arType gate == 15
    let known : Bool := !arSegment gate &&
      (arType gate == 5 || arType gate == 6 || arType gate == 7 || (s.has386 && wide))
    let w : Width := if wide then .w32 else .w16
    let sel : BitVec 16 := lo.extractLsb' 16 16
    let off : BitVec 32 := (if wide then hi.extractLsb' 16 16 else 0#16) ++ lo.extractLsb' 0 16
    let flags : BitVec 32 := { s.flags with rf := e.kind == EventKind.fault && (s.flags.rf || s.has386) }.word
    let level : BitVec 2 := arDpl d.access
    let coded (u : State) : State :=
      match e.code with
      | none => u
      | some c => u.pushed w (c.setWidth w.bits)
    let room (k : Nat) : Nat := if e.code.isSome then k + 1 else k
    let framed (u : State) : State := u.framed w flags s.segs.cs.sel e.ret
    let fits (u : State) : Prop :=
      u.frames w flags s.segs.cs.sel = true ∧ (e.code.isSome = true → (framed u).pushes w = true)
    let entered (u : State) (level : BitVec 2) : State :=
      let m := u.marked d
      (((((m.setSegs (m.segs.put .cs (d.asSeg (sel.extractLsb' 2 14 ++ level)))).setEip off).setFlags { s.flags with
        tf := false, nt := false, rf := false, vm := false
        ie := s.flags.ie && arType gate != 14 && arType gate != 6 }).setStored []).setCur Cur.start).setCtl { s.ctl with
          activity := .running, shadow := .none, prevShadow := .none, dbPending := false }
    let tr := s.sys.tr
    let t32 : Bool := arType tr.access == 9 || arType tr.access == 11
    let slot : Nat := if t32 then 4 + 8 * level.toNat else 2 + 4 * level.toNat
    let noStack : Bool := !tr.usable || !(t32 || arType tr.access == 1 || arType tr.access == 3) ||
      decide (tr.limit.toNat < slot + (if t32 then 5 else 3))
    let spAt : BitVec 32 := tr.base + BitVec.ofNat 32 slot
    let ssAt : BitVec 32 := tr.base + BitVec.ofNat 32 (slot + (if t32 then 4 else 2))
    let nsp : BitVec 32 := leVal 32 (s.bytesAt spAt (if t32 then 4 else 2))
    let nss : BitVec 16 := leVal 16 (s.bytesAt ssAt 2)
    let n1 := (((s.setFlags { s.flags with vm := false }).marked n).setSys { s.sys with cpl := level }).setSegs
      (s.segs.put .ss (n.asSeg nss))
    let n2 := n1.setGpr
      (if t32 || n.db then regWrite s.gpr .w32 rSP nsp else regWrite s.gpr .w16 rSP (nsp.extractLsb' 0 16))
    let g1 := n2.pushedSel .w32 s.segs.gs.sel
    let g2 := g1.pushedSel .w32 s.segs.fs.sel
    let g3 := g2.pushedSel .w32 s.segs.ds.sel
    let g4 := g3.pushedSel .w32 s.segs.es.sel
    let null (r : SegReg) : SegReg := { r with sel := 0#16, usable := false }
    let v86 : State := g4.setSegs { g4.segs with
      gs := null s.segs.gs, fs := null s.segs.fs, ds := null s.segs.ds, es := null s.segs.es }
    let n2' : State := if s.v86 then v86 else n2
    let n3 := n2'.pushedSel w s.segs.ss.sel
    let n4 := n3.pushed w (s.reg w rSP)
    let inner : Prop :=
      if s.v86 = true ∧ level ≠ 0#2 then fails 13#8 (code sel)
      else if s.v86 = true ∧ wide = false then o = .refused .gate16FromV86
      else if noStack then fails 10#8 (code tr.sel)
      else s.plain spAt (if t32 then 4 else 2) = true → s.plain ssAt 2 = true →
        if selNull nss then fails 10#8 (code nss)
        else (s.descAddr nss = none → fails 10#8 (code nss)) ∧ (s.names nss n = true →
          if selRpl nss ≠ level ∨ arWritable n.access = false ∨ arDpl n.access ≠ level then fails 10#8 (code nss)
          else if arPresent n.access = false then fails 12#8 (code nss)
          else if stackHolds (n.asSeg nss) (if n.db then nsp else nsp &&& 0xFFFF#32) w.bytes
              (room (if s.v86 then 9 else 5)) = false then fails 12#8 0#16
          else if d.limit.toNat < off.toNat then fails 13#8 0#16
          else
            (s.v86 = true → n2.pushes .w32 = true ∧ g1.pushes .w32 = true ∧ g2.pushes .w32 = true ∧
              g3.pushes .w32 = true) →
            n2'.pushes w = true → n3.pushes w = true → fits n4 → o = .next (entered (coded (framed n4)) level))
    let same : Prop :=
      if s.v86 then fails 13#8 (code sel)
      else if s.holds w (room 3) = false then fails 12#8 0#16
      else if d.limit.toNat < off.toNat then fails 13#8 0#16
      else fits s → o = .next (entered (coded (framed s)) s.cpl)
    s.sys.cr0.pe = true →
    ((i = .intN v ∧ (s.v86 = false ∨ s.flags.iopl = 3#2)) ∨ (i = .int3 ∧ v = 3#8) ∨
        (i = .into ∧ v = 4#8 ∧ s.flags.ovf = true) →
      e = ⟨v, .software, s.nextIP, none⟩ → exec i s = o) ∧
    (s.sys.idtr.limit.toNat < v.toNat * 8 + 7 → fails 13#8 idt) ∧
    (v.toNat * 8 + 7 ≤ s.sys.idtr.limit.toNat → s.plain a 4 = true → s.plain (a + 4#32) 4 = true →
      if known = false then fails 13#8 idt
      else if software = true ∧ (arDpl gate).toNat < s.cpl.toNat then fails 13#8 idt
      else if arPresent gate = false then fails 11#8 idt
      else if arType gate = 5 then o = .refused .taskGate
      else if selNull sel then fails 13#8 ext
      else (s.descAddr sel = none → fails 13#8 (code sel)) ∧ (s.names sel d = true →
        if arCode d.access = false ∨ s.cpl.toNat < level.toNat then fails 13#8 (code sel)
        else if arPresent d.access = false then fails 11#8 (code sel)
        else if arConforming d.access = false ∧ level.toNat < s.cpl.toNat then inner
        else same))

/-- Far jumps, calls, returns and IRET in protected mode (R380, R383, R413, R373, R374, R378, R379, R384). JMP and CALL
go to a code segment at the current level, conforming or not, whose selector CS takes with the current level; CALL has
pushed CS (under a free half in 32 bits) and the next offset. RET and IRET go back to the same level, or to an outer one
whose stack they then load, releasing the immediate from both stacks and dropping the data segment registers that level
may not keep. IRET also restores the flags it may change; at level 0, with the VM bit in the 32-bit image, it returns
to virtual-8086 mode, whose segments take the rights and the B/D and G bits of log entry 20. A 16-bit outer stack pointer
is zero-extended in a 32-bit stack segment (log entry 63), and a data segment register that is already unusable keeps its
selector (log entry 68); the usable ones hold the rights of code or data, as the invariant has it. Descriptors may stand
in either table; an accessed bit that is 0 is set in memory (R91). -/
def Obligations.ProtectedFarTransfers : Prop :=
  ∀ (s : State) (off : Off) (sel : BitVec 16) (m : MemOp) (k : BitVec 16) (d n : Desc),
    let w := s.os.width
    let code (sel : BitVec 16) (o : BitVec 32) : Prop :=
      s.names sel d = true ∧ arCode d.access = true ∧ arPresent d.access = true ∧ o.toNat ≤ d.limit.toNat
    let into (t : State) (sel : BitVec 16) (level : BitVec 2) (o : BitVec 32) : State :=
      ((t.marked d).setSegs (t.segs.put .cs (d.asSeg (sel.extractLsb' 2 14 ++ level)))).jumped o
    let allowed (sel : BitVec 16) : Prop :=
      if arConforming d.access then (arDpl d.access).toNat ≤ s.cpl.toNat
      else (selRpl sel).toNat ≤ s.cpl.toNat ∧ arDpl d.access = s.cpl
    let jumps (sel : BitVec 16) (o : BitVec 32) (r : Host.Outcome State Fault Refusal) : Prop :=
      code sel (ipMask s.os o) → allowed sel → r = .next (into s sel s.cpl (ipMask s.os o))
    let calls (sel : BitVec 16) (o : BitVec 32) (r : Host.Outcome State Fault Refusal) : Prop :=
      let i16 : List (Val .w16) := [s.segs.cs.sel, s.nextIP.setWidth 16]
      let t := s.setDraws (s.draws + 1)
      let i32 : List (Val .w32) := [Config.freeWord s.draws ++ s.segs.cs.sel, s.nextIP]
      code sel (ipMask s.os o) → allowed sel → s.holds w 2 = true →
      (s.os = .s16 → s.pushesAll .w16 i16 = true →
        r = .next (into (s.pushedAll .w16 i16) sel s.cpl (ipMask s.os o))) ∧
      (s.os = .s32 → t.pushesAll .w32 i32 = true →
        r = .next (into (t.pushedAll .w32 i32) sel s.cpl (ipMask s.os o)))
    let moff : BitVec 32 := (s.memVal w (s.memSeg m) (s.ea m)).setWidth 32
    let msel : BitVec 16 := s.memVal .w16 (s.memSeg m) (s.ea m + BitVec.ofNat 32 w.bytes)
    let o : BitVec 32 := (s.popVals w 0).setWidth 32
    let psel : BitVec 16 := (s.popVals w 1).setWidth 16
    let fl : BitVec 32 := (s.popVals w 2).setWidth 32
    let level := selRpl psel
    let rights : Prop :=
      if arConforming d.access then (arDpl d.access).toNat ≤ level.toNat else arDpl d.access = level
    let drop (r : SegReg) : SegReg :=
      if r.usable = true ∧ arConforming r.access = false ∧ (arDpl r.access).toNat < level.toNat ∧
          (arData r.access = true ∨ arCode r.access = true) then { r with sel := 0#16, usable := false } else r
    let same (items : Nat) (k : BitVec 32) : State :=
      let t := s.poppedTimes w items
      into (t.setGpr (t.gprWithSp (t.spAdd k))) psel s.cpl o
    let spAt (items : Nat) (k : BitVec 32) : BitVec 32 := s.spAdd (BitVec.ofNat 32 (items * w.bytes) + k)
    let ssAt (items : Nat) (k : BitVec 32) : BitVec 32 := s.spAdd (BitVec.ofNat 32 ((items + 1) * w.bytes) + k)
    let nss (items : Nat) (k : BitVec 32) : BitVec 16 := (s.memVal w .ss (ssAt items k)).setWidth 16
    let outward (items : Nat) (k : BitVec 32) : Prop :=
      (∀ q ∈ [SReg.ds, .es, .fs, .gs], (s.segs.get q).usable = true → arSegment (s.segs.get q).access = true) ∧
      s.reaches .ss (spAt items k) w.bytes false w.bytes = true ∧
      s.reaches .ss (ssAt items k) w.bytes false w.bytes = true ∧ s.names (nss items k) n = true ∧
      selRpl (nss items k) = level ∧ arWritable n.access = true ∧ arDpl n.access = level ∧ arPresent n.access = true
    let outer (items : Nat) (k : BitVec 32) : State :=
      let g := s.segs
      let nsp : BitVec 32 := (s.memVal w .ss (spAt items k)).setWidth 32 + k
      let t := (s.marked d).marked n
      (((t.setSegs { g with
        cs := d.asSeg psel, ss := n.asSeg (nss items k)
        ds := drop g.ds, es := drop g.es, fs := drop g.fs, gs := drop g.gs }).setSys
          { s.sys with cpl := level }).setGpr
        (if n.db then regWrite s.gpr .w32 rSP nsp else regWrite s.gpr .w16 rSP (nsp.extractLsb' 0 16))).jumped o
    let afterIret : Ctl :=
      { s.ctl with nmiBlocked := false, dbPending := s.ctl.dbPending || s.ctl.trapHeld, trapHeld := false }
    let loaded : Flags :=
      { cf := fl.getLsbD 0, pf := fl.getLsbD 2, af := fl.getLsbD 4, zf := fl.getLsbD 6, sf := fl.getLsbD 7
        tf := fl.getLsbD 8, df := fl.getLsbD 10, ovf := fl.getLsbD 11, nt := fl.getLsbD 14
        ie := if s.cpl.toNat ≤ s.flags.iopl.toNat then fl.getLsbD 9 else s.flags.ie
        iopl := if s.cpl = 0#2 then fl.extractLsb' 12 2 else s.flags.iopl
        rf := if s.os = .s32 then fl.getLsbD 16 else s.flags.rf
        vm := s.flags.vm
        ac := if s.os = .s32 ∧ s.cfg.cpu = .p486 then fl.getLsbD 18 else s.flags.ac }
    let returned (t : State) : State := (t.setFlags loaded).setCtl afterIret
    let item (j : Nat) : BitVec 16 := (s.popVals .w32 j).extractLsb' 0 16
    let v86 (sel : BitVec 16) (access : BitVec 8) : SegReg :=
      ⟨sel, sel.setWidth 32 <<< 4, 0xFFFF#32, access, false, false, true⟩
    let f86 : Flags :=
      { cf := fl.getLsbD 0, pf := fl.getLsbD 2, af := fl.getLsbD 4, zf := fl.getLsbD 6, sf := fl.getLsbD 7
        tf := fl.getLsbD 8, ie := fl.getLsbD 9, df := fl.getLsbD 10, ovf := fl.getLsbD 11, iopl := fl.extractLsb' 12 2
        nt := fl.getLsbD 14, rf := fl.getLsbD 16, vm := true, ac := fl.getLsbD 18 && s.cfg.cpu == .p486 }
    s.protMode = true →
    jumps sel (Off.val off) (exec (.jmpFar off sel) s) ∧ calls sel (Off.val off) (exec (.callFar off sel) s) ∧
    (s.reaches (s.memSeg m) (s.ea m) w.bytes false w.bytes = true →
      s.reaches (s.memSeg m) (s.ea m + BitVec.ofNat 32 w.bytes) 2 false 2 = true →
      jumps msel moff (exec (.jmpMemFar m) s) ∧ calls msel moff (exec (.callMemFar m) s)) ∧
    (s.popsTimes w 2 = true → code psel o → rights →
      (level = s.cpl → exec .retFar s = .next (same 2 0#32) ∧
        exec (.retFarImm k) s = .next (same 2 (k.setWidth 32))) ∧
      (s.cpl.toNat < level.toNat →
        (outward 2 0#32 → exec .retFar s = .next (outer 2 0#32)) ∧
        (outward 2 (k.setWidth 32) → exec (.retFarImm k) s = .next (outer 2 (k.setWidth 32))))) ∧
    (s.flags.nt = false → s.popsTimes w 3 = true → code psel o → rights →
      (s.os = .s16 ∨ fl.getLsbD 17 = false ∨ s.cpl ≠ 0#2) →
      (level = s.cpl → exec .iret s = .next (returned (same 3 0#32))) ∧
      (s.cpl.toNat < level.toNat → outward 3 0#32 → exec .iret s = .next (returned (outer 3 0#32)))) ∧
    (s.flags.nt = false → s.os = .s32 → s.cpl = 0#2 → s.popsTimes .w32 9 = true →
      (s.popVals .w32 2).getLsbD 17 = true →
      exec .iret s = .next ((((((s.setFlags f86).setSegs
        { cs := v86 (item 1) 0x9B#8, ss := v86 (item 4) 0x93#8, es := v86 (item 5) 0x93#8
          ds := v86 (item 6) 0x93#8, fs := v86 (item 7) 0x93#8, gs := v86 (item 8) 0x93#8 }).setSys
        { s.sys with cpl := 3#2 }).setGpr (regWrite s.gpr .w32 rSP (s.popVals .w32 3))).setCtl
        afterIret).jumped (s.popVals .w32 0 &&& 0xFFFF#32)))

/-! The step of the machine. -/

/-- A step runs the decoded instruction (R25, R130, R131): when nothing is taken at the boundary, or in the middle of
an instruction after a prefix, and the bytes at the program counter decode to `i`, which the prefixes before it fit,
the step is `exec i` in the state that counts its bytes; bytes that decode to #UD take interrupt 6. -/
def Obligations.StepRunsDecoded : Prop :=
  ∀ (s : State) (i : Instr) (n m : Nat),
    let t := if s.cur.len = 0 then s.begin else s
    s.ctl.activity ≠ .shutdown → (s.cur.len = 0 → s.quiet = true) →
    m ≤ s.cfg.maxInsnLen - s.cur.len → s.fetches m = true →
    (decode s.ctx (s.codeAt m) = .instr i n → s.prefixesFit i = true → step s = exec i (t.fetched n)) ∧
    (decode s.ctx (s.codeAt m) = .stop .ud → step s = deliver ⟨6#8, .fault, s.eip, none⟩ t)

/-- What is taken at an instruction boundary, highest first (R605, R617, R618, R620, R635, R641): the single-step trap,
NMI, the coprocessor's request, the interrupt controller; nothing after a load of SS. Where the gate of such an event in
protected mode is not present, #NP is delivered and the event recurs (R604): the trap is held and the NMI latched until
the next IRET, a request of the stream is its next again, the coprocessor's holds (log entry 80, the model's choice; one
of the eight rounds of log entry 18 is used). A halted processor that nothing can wake (whatever IF: the streams of
interrupts are exhausted) ends the run with the model's fault `endOfRun` (D5, log entry 16). -/
def Obligations.BoundaryEvents : Prop :=
  ∀ (s : State),
    let t := s.sampleNmi
    let ev (v : BitVec 8) (k : EventKind) : Event := ⟨v, k, s.eip, none⟩
    let stepped : State := if s.has386 then t.setSys { s.sys with dr6 := s.sys.dr6 ||| 0x4000#32 } else t
    let gateAbsent (v : BitVec 8) : Prop :=
      let lin := s.sys.idtr.base + BitVec.ofNat 32 (8 * v.toNat)
      let access : BitVec 8 := memGet s.mem (s.flat (lin + 5#32))
      s.sys.cr0.pe = true ∧ 8 * v.toNat + 7 ≤ s.sys.idtr.limit.toNat ∧ s.plain lin 4 = true ∧
      s.plain (lin + 4#32) 4 = true ∧ access.getLsbD 7 = false ∧
      (access.extractLsb' 0 5 ∈ [5#5, 6#5, 7#5] ∨ (s.has386 = true ∧ access.extractLsb' 0 5 ∈ [14#5, 15#5]))
    let notPresent (v : BitVec 8) (u : State) : Host.Outcome State Fault Refusal :=
      deliverWithin 7 ⟨11#8, .fault, s.eip, some (BitVec.ofNat 16 (8 * v.toNat + 3))⟩ u
    let nmi : Prop := t.ctl.nmiPending = true ∧ s.ctl.nmiBlocked = false
    s.ctl.activity ≠ .shutdown → s.cur.len = 0 →
    (s.ctl.dbPending = true → s.ctl.shadow ≠ .ss →
      step s = deliver (ev 1#8 .trap) stepped ∧
      (gateAbsent 1#8 → step s = notPresent 1#8 (stepped.setCtl { t.ctl with trapHeld := true }))) ∧
    (s.ctl.dbPending = false → s.ctl.shadow ≠ .ss → nmi →
      step s = deliver (ev 2#8 .nmi) (t.setCtl { t.ctl with nmiPending := false, nmiBlocked := true }) ∧
      (gateAbsent 2#8 → step s = notPresent 2#8 (t.setCtl { t.ctl with nmiPending := true, nmiBlocked := true }))) ∧
    (s.ctl.dbPending = false → s.ctl.shadow = .none → ¬ nmi → s.flags.ie = true →
      (s.link.irq13 = true → step s = deliver (ev s.cfg.irq13Vector .irq13) t ∧
        (gateAbsent s.cfg.irq13Vector → step s = notPresent s.cfg.irq13Vector t)) ∧
      (s.link.irq13 = false → ∀ (v : BitVec 8) (rest : List (Option (BitVec 8))), s.env.irqIn = some v :: rest →
        step s = deliver (ev v .request) (t.setEnv { t.env with irqIn := rest }) ∧
        (gateAbsent v → step s = notPresent v t))) ∧
    (s.ctl.dbPending = false → s.ctl.activity = .halted → s.ctl.nmiPending = false → s.env.nmiIn = [] →
      s.link.irq13 = false → s.env.irqIn = [] → step s = .fault .endOfRun)

/-- Decoding the encoding of a well-formed instruction gives the instruction and its length, whatever bytes follow; a
bare repeat prefix needs a byte behind it that is no string opcode (R130 to R171). -/
def Obligations.DecodeEncode : Prop :=
  ∀ (c : Ctx) (i : Instr) (rest : List Byte),
    c.ok = true → Instr.wf c i = true →
    (i = .repPrefix ∨ i = .repnePrefix → ∃ (b : Byte) (r : List Byte), rest = b :: r ∧ stringOp none b = none) →
    decode c (encode i ++ rest) = .instr i (encode i).length

/-- The field s (R154), in every context, for every r/m operand: the words of the immediate group, PUSH and IMUL with an
immediate carry 8 bits where s = 1 or w = 0 and else the operand's bits; the immediate stands for its sign-extension,
which changes only 8 bits under a wider operand. On the 80286 s = 1 of AND, OR and XOR is no row (R162). And some words
written out from the forms of their rows, one for each family, decode to their instructions, with 16-bit and with 32-bit
attributes. -/
def Obligations.DecodeWords : Prop :=
  let c16 : Ctx := ⟨.p486, .integrated, .s16, .s16, none⟩
  let c32 : Ctx := ⟨.p486, .integrated, .s32, .s32, none⟩
  decode c16 [0x8B#8, 0x46#8, 0xFE#8] = .instr (.movRegRm true rAX (.mem (.a16 6#3 (.d8 0xFE#8)))) 3 ∧
  decode c32 [0x8B#8, 0x44#8, 0x8E#8, 0x10#8] =
    .instr (.movRegRm true rAX (.mem (.sib 2#2 rCX rSI (.d8 0x10#8)))) 4 ∧
  decode c16 [0x81#8, 0xC3#8, 0x34#8, 0x12#8] = .instr (.addRmImm false true (.reg rBX) (.i16 0x1234#16)) 4 ∧
  decode c16 [0xC1#8, 0xE2#8, 0x05#8] = .instr (.shl true (.reg rDX) (.imm 5#8)) 3 ∧
  decode c16 [0xF3#8, 0xA4#8] = .instr (.repMovs false) 2 ∧
  decode c16 [0x0F#8, 0xBA#8, 0xE1#8, 0x07#8] = .instr (.btImm (.reg rCX) 7#8) 4 ∧
  decode c32 [0x0F#8, 0x84#8, 0x00#8, 0x01#8, 0x00#8, 0x00#8] = .instr (.jE (.i32 0x100#32)) 6 ∧
  decode c16 [0xEA#8, 0x00#8, 0x01#8, 0x00#8, 0xF0#8] = .instr (.jmpFar (.o16 0x100#16) 0xF000#16) 5 ∧
  decode c16 [0x0F#8, 0x22#8, 0xC3#8] = .instr (.movToCr .cr0 rBX) 3 ∧
  decode c16 [0xDC#8, 0xE9#8] = .instr (.fsubSt true 1#3) 2 ∧
  decode c16 [0x0F#8, 0xC1#8, 0xC8#8] = .instr (.xadd true rCX (.reg rAX)) 3 ∧
  ∀ (c : Ctx) (op : AluOp) (s w : Bool) (reg : RegNum) (rm : RM) (x : BitVec 8) (y : BitVec 16) (z : BitVec 32)
      (rest : List Byte),
    let bit (a : Bool) : BitVec 1 := if a then 1#1 else 0#1
    let mid : BitVec 3 :=
      match op with
      | .add => 0#3
      | .or => 1#3
      | .adc => 2#3
      | .sbb => 3#3
      | .and => 4#3
      | .sub => 5#3
      | .xor => 6#3
      | .cmp => 7#3
    let full : Imm := if c.os = .s16 then .i16 y else .i32 z
    let data (short : Bool) : Imm := if short then .i8 x else full
    let reads (b : Byte) (mrm : List Byte) (d : Imm) (i : Instr) : Prop :=
      decode c (b :: (mrm ++ encImm d ++ rest)) = .instr i (1 + mrm.length + (encImm d).length)
    c.ok = true → rmOk c.adr rm = true →
      ((c.cpu = .p286 → s = true → op.logic = false) →
        reads (0x20#6 ++ bit s ++ bit w) (encRM mid rm) (data (s || !w)) (op.rmImm s w rm (data (s || !w)))) ∧
      reads (0x1A#6 ++ bit s ++ 0#1) [] (data s) (.pushImm s (data s)) ∧
      reads (0x1A#6 ++ bit s ++ 1#1) (encRM reg rm) (data s) (.imulRegRmImm s reg rm (data s)) ∧
      Imm.val .w8 (.i8 x) = x ∧ Imm.val .w16 (.i8 x) = x.signExtend 16 ∧ Imm.val .w32 (.i8 x) = x.signExtend 32 ∧
      Imm.val .w16 (.i16 y) = y ∧ Imm.val .w32 (.i32 z) = z

/-! Invariants. -/

/-- The invariant of the machine (`State.Inv` of Safety) is kept by every step from every state. -/
def Obligations.StepKeepsInv : Prop := ∀ (s t : State), s.Inv → step s = .next t → t.Inv

/-- The invariant holds after reset, for every legal pair of processor and coprocessor. -/
def Obligations.ResetHasInv : Prop :=
  ∀ (c : Config), Config.legalPair c.cpu c.npx = true → (State.resetFor c).Inv

/-- What reset leaves on the 80486 (R50, R51, R661, R662, whose table is the spec's own general knowledge): flags, EIP,
the code segment at the top of the physical space, data segments, CR0, IDTR, DR7, level 0, no interrupt shadow, no
blocked NMI, running; the first fetch is from FFFFFFF0. -/
def Obligations.ResetValues : Prop :=
  let s := State.reset
  let data (r : SegReg) : Prop := r.sel = 0#16 ∧ r.base = 0#32 ∧ r.limit = 0xFFFF#32 ∧ r.access = 0x93#8
  s.flags.word = 2#32 ∧ s.eip = 0xFFF0#32 ∧
  s.segs.cs.sel = 0xF000#16 ∧ s.segs.cs.base = 0xFFFF0000#32 ∧ s.segs.cs.limit = 0xFFFF#32 ∧
  s.segs.cs.access = 0x9B#8 ∧
  data s.segs.ds ∧ data s.segs.es ∧ data s.segs.ss ∧ data s.segs.fs ∧ data s.segs.gs ∧
  s.sys.cr0.word = 0x60000010#32 ∧ s.sys.idtr.base = 0#32 ∧ s.sys.idtr.limit = 0x3FF#16 ∧ s.sys.dr7 = 0#32 ∧
  s.cpl = 0#2 ∧ s.tlb = [] ∧ s.stored = [] ∧ s.ctl.shadow = .none ∧ s.ctl.nmiBlocked = false ∧
  s.ctl.activity = .running ∧ (s.reg .w8 6#3) = 4#8 ∧
  s.flat (s.linear s.segs.cs s.eip) = 0xFFFFFFF0

/-- No step that starts outside level 0 changes a privileged register (R626, R627, R603, R39):
whatever the program does and whatever is taken, the control, debug, test and table registers, LDTR, TR and IOPL stay,
but for CR2 of a page fault and BS in DR6 of a single-step trap. -/
def Obligations.PrivilegedStateKept : Prop :=
  ∀ (s t : State), s.sys.cr0.pe = true → s.cpl ≠ 0#2 → step s = .next t →
    t.sys = { s.sys with cr2 := t.sys.cr2, dr6 := t.sys.dr6, cpl := t.sys.cpl } ∧
    (t.sys.dr6 = s.sys.dr6 ∨ t.sys.dr6 = (s.sys.dr6 ||| 0x4000#32)) ∧
    t.flags.iopl = s.flags.iopl ∧ t.cfg = s.cfg
end

