-- ==== Sys2Proof/Laws/State.lean ====
section
/-! SUPPORT. One lemma per field per named update of State, so that no proof unfolds a record update. -/

namespace Sys2Proof.Machine

variable (s : State)

@[simp] theorem State.setGpr_cfg (v : Oct (BitVec 32)) : (s.setGpr v).cfg = s.cfg := rfl
@[simp] theorem State.setGpr_gpr (v : Oct (BitVec 32)) : (s.setGpr v).gpr = v := rfl
@[simp] theorem State.setGpr_eip (v : Oct (BitVec 32)) : (s.setGpr v).eip = s.eip := rfl
@[simp] theorem State.setGpr_segs (v : Oct (BitVec 32)) : (s.setGpr v).segs = s.segs := rfl
@[simp] theorem State.setGpr_flags (v : Oct (BitVec 32)) : (s.setGpr v).flags = s.flags := rfl
@[simp] theorem State.setGpr_sys (v : Oct (BitVec 32)) : (s.setGpr v).sys = s.sys := rfl
@[simp] theorem State.setGpr_fpu (v : Oct (BitVec 32)) : (s.setGpr v).fpu = s.fpu := rfl
@[simp] theorem State.setGpr_link (v : Oct (BitVec 32)) : (s.setGpr v).link = s.link := rfl
@[simp] theorem State.setGpr_mem (v : Oct (BitVec 32)) : (s.setGpr v).mem = s.mem := rfl
@[simp] theorem State.setGpr_tlb (v : Oct (BitVec 32)) : (s.setGpr v).tlb = s.tlb := rfl
@[simp] theorem State.setGpr_stored (v : Oct (BitVec 32)) : (s.setGpr v).stored = s.stored := rfl
@[simp] theorem State.setGpr_cur (v : Oct (BitVec 32)) : (s.setGpr v).cur = s.cur := rfl
@[simp] theorem State.setGpr_ctl (v : Oct (BitVec 32)) : (s.setGpr v).ctl = s.ctl := rfl
@[simp] theorem State.setGpr_env (v : Oct (BitVec 32)) : (s.setGpr v).env = s.env := rfl
@[simp] theorem State.setGpr_draws (v : Oct (BitVec 32)) : (s.setGpr v).draws = s.draws := rfl
@[simp] theorem State.setGpr_setGpr (v v' : Oct (BitVec 32)) : (s.setGpr v).setGpr v' = s.setGpr v' := rfl

@[simp] theorem State.setEip_cfg (v : BitVec 32) : (s.setEip v).cfg = s.cfg := rfl
@[simp] theorem State.setEip_gpr (v : BitVec 32) : (s.setEip v).gpr = s.gpr := rfl
@[simp] theorem State.setEip_eip (v : BitVec 32) : (s.setEip v).eip = v := rfl
@[simp] theorem State.setEip_segs (v : BitVec 32) : (s.setEip v).segs = s.segs := rfl
@[simp] theorem State.setEip_flags (v : BitVec 32) : (s.setEip v).flags = s.flags := rfl
@[simp] theorem State.setEip_sys (v : BitVec 32) : (s.setEip v).sys = s.sys := rfl
@[simp] theorem State.setEip_fpu (v : BitVec 32) : (s.setEip v).fpu = s.fpu := rfl
@[simp] theorem State.setEip_link (v : BitVec 32) : (s.setEip v).link = s.link := rfl
@[simp] theorem State.setEip_mem (v : BitVec 32) : (s.setEip v).mem = s.mem := rfl
@[simp] theorem State.setEip_tlb (v : BitVec 32) : (s.setEip v).tlb = s.tlb := rfl
@[simp] theorem State.setEip_stored (v : BitVec 32) : (s.setEip v).stored = s.stored := rfl
@[simp] theorem State.setEip_cur (v : BitVec 32) : (s.setEip v).cur = s.cur := rfl
@[simp] theorem State.setEip_ctl (v : BitVec 32) : (s.setEip v).ctl = s.ctl := rfl
@[simp] theorem State.setEip_env (v : BitVec 32) : (s.setEip v).env = s.env := rfl
@[simp] theorem State.setEip_draws (v : BitVec 32) : (s.setEip v).draws = s.draws := rfl
@[simp] theorem State.setEip_setEip (v v' : BitVec 32) : (s.setEip v).setEip v' = s.setEip v' := rfl

@[simp] theorem State.setSegs_cfg (v : SegRegs) : (s.setSegs v).cfg = s.cfg := rfl
@[simp] theorem State.setSegs_gpr (v : SegRegs) : (s.setSegs v).gpr = s.gpr := rfl
@[simp] theorem State.setSegs_eip (v : SegRegs) : (s.setSegs v).eip = s.eip := rfl
@[simp] theorem State.setSegs_segs (v : SegRegs) : (s.setSegs v).segs = v := rfl
@[simp] theorem State.setSegs_flags (v : SegRegs) : (s.setSegs v).flags = s.flags := rfl
@[simp] theorem State.setSegs_sys (v : SegRegs) : (s.setSegs v).sys = s.sys := rfl
@[simp] theorem State.setSegs_fpu (v : SegRegs) : (s.setSegs v).fpu = s.fpu := rfl
@[simp] theorem State.setSegs_link (v : SegRegs) : (s.setSegs v).link = s.link := rfl
@[simp] theorem State.setSegs_mem (v : SegRegs) : (s.setSegs v).mem = s.mem := rfl
@[simp] theorem State.setSegs_tlb (v : SegRegs) : (s.setSegs v).tlb = s.tlb := rfl
@[simp] theorem State.setSegs_stored (v : SegRegs) : (s.setSegs v).stored = s.stored := rfl
@[simp] theorem State.setSegs_cur (v : SegRegs) : (s.setSegs v).cur = s.cur := rfl
@[simp] theorem State.setSegs_ctl (v : SegRegs) : (s.setSegs v).ctl = s.ctl := rfl
@[simp] theorem State.setSegs_env (v : SegRegs) : (s.setSegs v).env = s.env := rfl
@[simp] theorem State.setSegs_draws (v : SegRegs) : (s.setSegs v).draws = s.draws := rfl
@[simp] theorem State.setSegs_setSegs (v v' : SegRegs) : (s.setSegs v).setSegs v' = s.setSegs v' := rfl

@[simp] theorem State.setFlags_cfg (v : Flags) : (s.setFlags v).cfg = s.cfg := rfl
@[simp] theorem State.setFlags_gpr (v : Flags) : (s.setFlags v).gpr = s.gpr := rfl
@[simp] theorem State.setFlags_eip (v : Flags) : (s.setFlags v).eip = s.eip := rfl
@[simp] theorem State.setFlags_segs (v : Flags) : (s.setFlags v).segs = s.segs := rfl
@[simp] theorem State.setFlags_flags (v : Flags) : (s.setFlags v).flags = v := rfl
@[simp] theorem State.setFlags_sys (v : Flags) : (s.setFlags v).sys = s.sys := rfl
@[simp] theorem State.setFlags_fpu (v : Flags) : (s.setFlags v).fpu = s.fpu := rfl
@[simp] theorem State.setFlags_link (v : Flags) : (s.setFlags v).link = s.link := rfl
@[simp] theorem State.setFlags_mem (v : Flags) : (s.setFlags v).mem = s.mem := rfl
@[simp] theorem State.setFlags_tlb (v : Flags) : (s.setFlags v).tlb = s.tlb := rfl
@[simp] theorem State.setFlags_stored (v : Flags) : (s.setFlags v).stored = s.stored := rfl
@[simp] theorem State.setFlags_cur (v : Flags) : (s.setFlags v).cur = s.cur := rfl
@[simp] theorem State.setFlags_ctl (v : Flags) : (s.setFlags v).ctl = s.ctl := rfl
@[simp] theorem State.setFlags_env (v : Flags) : (s.setFlags v).env = s.env := rfl
@[simp] theorem State.setFlags_draws (v : Flags) : (s.setFlags v).draws = s.draws := rfl
@[simp] theorem State.setFlags_setFlags (v v' : Flags) : (s.setFlags v).setFlags v' = s.setFlags v' := rfl

@[simp] theorem State.setSys_cfg (v : Sys) : (s.setSys v).cfg = s.cfg := rfl
@[simp] theorem State.setSys_gpr (v : Sys) : (s.setSys v).gpr = s.gpr := rfl
@[simp] theorem State.setSys_eip (v : Sys) : (s.setSys v).eip = s.eip := rfl
@[simp] theorem State.setSys_segs (v : Sys) : (s.setSys v).segs = s.segs := rfl
@[simp] theorem State.setSys_flags (v : Sys) : (s.setSys v).flags = s.flags := rfl
@[simp] theorem State.setSys_sys (v : Sys) : (s.setSys v).sys = v := rfl
@[simp] theorem State.setSys_fpu (v : Sys) : (s.setSys v).fpu = s.fpu := rfl
@[simp] theorem State.setSys_link (v : Sys) : (s.setSys v).link = s.link := rfl
@[simp] theorem State.setSys_mem (v : Sys) : (s.setSys v).mem = s.mem := rfl
@[simp] theorem State.setSys_tlb (v : Sys) : (s.setSys v).tlb = s.tlb := rfl
@[simp] theorem State.setSys_stored (v : Sys) : (s.setSys v).stored = s.stored := rfl
@[simp] theorem State.setSys_cur (v : Sys) : (s.setSys v).cur = s.cur := rfl
@[simp] theorem State.setSys_ctl (v : Sys) : (s.setSys v).ctl = s.ctl := rfl
@[simp] theorem State.setSys_env (v : Sys) : (s.setSys v).env = s.env := rfl
@[simp] theorem State.setSys_draws (v : Sys) : (s.setSys v).draws = s.draws := rfl
@[simp] theorem State.setSys_setSys (v v' : Sys) : (s.setSys v).setSys v' = s.setSys v' := rfl

@[simp] theorem State.setFpu_cfg (v : Fpu) : (s.setFpu v).cfg = s.cfg := rfl
@[simp] theorem State.setFpu_gpr (v : Fpu) : (s.setFpu v).gpr = s.gpr := rfl
@[simp] theorem State.setFpu_eip (v : Fpu) : (s.setFpu v).eip = s.eip := rfl
@[simp] theorem State.setFpu_segs (v : Fpu) : (s.setFpu v).segs = s.segs := rfl
@[simp] theorem State.setFpu_flags (v : Fpu) : (s.setFpu v).flags = s.flags := rfl
@[simp] theorem State.setFpu_sys (v : Fpu) : (s.setFpu v).sys = s.sys := rfl
@[simp] theorem State.setFpu_fpu (v : Fpu) : (s.setFpu v).fpu = v := rfl
@[simp] theorem State.setFpu_link (v : Fpu) : (s.setFpu v).link = s.link := rfl
@[simp] theorem State.setFpu_mem (v : Fpu) : (s.setFpu v).mem = s.mem := rfl
@[simp] theorem State.setFpu_tlb (v : Fpu) : (s.setFpu v).tlb = s.tlb := rfl
@[simp] theorem State.setFpu_stored (v : Fpu) : (s.setFpu v).stored = s.stored := rfl
@[simp] theorem State.setFpu_cur (v : Fpu) : (s.setFpu v).cur = s.cur := rfl
@[simp] theorem State.setFpu_ctl (v : Fpu) : (s.setFpu v).ctl = s.ctl := rfl
@[simp] theorem State.setFpu_env (v : Fpu) : (s.setFpu v).env = s.env := rfl
@[simp] theorem State.setFpu_draws (v : Fpu) : (s.setFpu v).draws = s.draws := rfl
@[simp] theorem State.setFpu_setFpu (v v' : Fpu) : (s.setFpu v).setFpu v' = s.setFpu v' := rfl

@[simp] theorem State.setLink_cfg (v : NpxLink) : (s.setLink v).cfg = s.cfg := rfl
@[simp] theorem State.setLink_gpr (v : NpxLink) : (s.setLink v).gpr = s.gpr := rfl
@[simp] theorem State.setLink_eip (v : NpxLink) : (s.setLink v).eip = s.eip := rfl
@[simp] theorem State.setLink_segs (v : NpxLink) : (s.setLink v).segs = s.segs := rfl
@[simp] theorem State.setLink_flags (v : NpxLink) : (s.setLink v).flags = s.flags := rfl
@[simp] theorem State.setLink_sys (v : NpxLink) : (s.setLink v).sys = s.sys := rfl
@[simp] theorem State.setLink_fpu (v : NpxLink) : (s.setLink v).fpu = s.fpu := rfl
@[simp] theorem State.setLink_link (v : NpxLink) : (s.setLink v).link = v := rfl
@[simp] theorem State.setLink_mem (v : NpxLink) : (s.setLink v).mem = s.mem := rfl
@[simp] theorem State.setLink_tlb (v : NpxLink) : (s.setLink v).tlb = s.tlb := rfl
@[simp] theorem State.setLink_stored (v : NpxLink) : (s.setLink v).stored = s.stored := rfl
@[simp] theorem State.setLink_cur (v : NpxLink) : (s.setLink v).cur = s.cur := rfl
@[simp] theorem State.setLink_ctl (v : NpxLink) : (s.setLink v).ctl = s.ctl := rfl
@[simp] theorem State.setLink_env (v : NpxLink) : (s.setLink v).env = s.env := rfl
@[simp] theorem State.setLink_draws (v : NpxLink) : (s.setLink v).draws = s.draws := rfl
@[simp] theorem State.setLink_setLink (v v' : NpxLink) : (s.setLink v).setLink v' = s.setLink v' := rfl

@[simp] theorem State.setMem_cfg (v : List Host.Cell) : (s.setMem v).cfg = s.cfg := rfl
@[simp] theorem State.setMem_gpr (v : List Host.Cell) : (s.setMem v).gpr = s.gpr := rfl
@[simp] theorem State.setMem_eip (v : List Host.Cell) : (s.setMem v).eip = s.eip := rfl
@[simp] theorem State.setMem_segs (v : List Host.Cell) : (s.setMem v).segs = s.segs := rfl
@[simp] theorem State.setMem_flags (v : List Host.Cell) : (s.setMem v).flags = s.flags := rfl
@[simp] theorem State.setMem_sys (v : List Host.Cell) : (s.setMem v).sys = s.sys := rfl
@[simp] theorem State.setMem_fpu (v : List Host.Cell) : (s.setMem v).fpu = s.fpu := rfl
@[simp] theorem State.setMem_link (v : List Host.Cell) : (s.setMem v).link = s.link := rfl
@[simp] theorem State.setMem_mem (v : List Host.Cell) : (s.setMem v).mem = v := rfl
@[simp] theorem State.setMem_tlb (v : List Host.Cell) : (s.setMem v).tlb = s.tlb := rfl
@[simp] theorem State.setMem_stored (v : List Host.Cell) : (s.setMem v).stored = s.stored := rfl
@[simp] theorem State.setMem_cur (v : List Host.Cell) : (s.setMem v).cur = s.cur := rfl
@[simp] theorem State.setMem_ctl (v : List Host.Cell) : (s.setMem v).ctl = s.ctl := rfl
@[simp] theorem State.setMem_env (v : List Host.Cell) : (s.setMem v).env = s.env := rfl
@[simp] theorem State.setMem_draws (v : List Host.Cell) : (s.setMem v).draws = s.draws := rfl
@[simp] theorem State.setMem_setMem (v v' : List Host.Cell) : (s.setMem v).setMem v' = s.setMem v' := rfl

@[simp] theorem State.setTlb_cfg (v : List TlbEntry) : (s.setTlb v).cfg = s.cfg := rfl
@[simp] theorem State.setTlb_gpr (v : List TlbEntry) : (s.setTlb v).gpr = s.gpr := rfl
@[simp] theorem State.setTlb_eip (v : List TlbEntry) : (s.setTlb v).eip = s.eip := rfl
@[simp] theorem State.setTlb_segs (v : List TlbEntry) : (s.setTlb v).segs = s.segs := rfl
@[simp] theorem State.setTlb_flags (v : List TlbEntry) : (s.setTlb v).flags = s.flags := rfl
@[simp] theorem State.setTlb_sys (v : List TlbEntry) : (s.setTlb v).sys = s.sys := rfl
@[simp] theorem State.setTlb_fpu (v : List TlbEntry) : (s.setTlb v).fpu = s.fpu := rfl
@[simp] theorem State.setTlb_link (v : List TlbEntry) : (s.setTlb v).link = s.link := rfl
@[simp] theorem State.setTlb_mem (v : List TlbEntry) : (s.setTlb v).mem = s.mem := rfl
@[simp] theorem State.setTlb_tlb (v : List TlbEntry) : (s.setTlb v).tlb = v := rfl
@[simp] theorem State.setTlb_stored (v : List TlbEntry) : (s.setTlb v).stored = s.stored := rfl
@[simp] theorem State.setTlb_cur (v : List TlbEntry) : (s.setTlb v).cur = s.cur := rfl
@[simp] theorem State.setTlb_ctl (v : List TlbEntry) : (s.setTlb v).ctl = s.ctl := rfl
@[simp] theorem State.setTlb_env (v : List TlbEntry) : (s.setTlb v).env = s.env := rfl
@[simp] theorem State.setTlb_draws (v : List TlbEntry) : (s.setTlb v).draws = s.draws := rfl
@[simp] theorem State.setTlb_setTlb (v v' : List TlbEntry) : (s.setTlb v).setTlb v' = s.setTlb v' := rfl

@[simp] theorem State.setStored_cfg (v : List Host.Cell) : (s.setStored v).cfg = s.cfg := rfl
@[simp] theorem State.setStored_gpr (v : List Host.Cell) : (s.setStored v).gpr = s.gpr := rfl
@[simp] theorem State.setStored_eip (v : List Host.Cell) : (s.setStored v).eip = s.eip := rfl
@[simp] theorem State.setStored_segs (v : List Host.Cell) : (s.setStored v).segs = s.segs := rfl
@[simp] theorem State.setStored_flags (v : List Host.Cell) : (s.setStored v).flags = s.flags := rfl
@[simp] theorem State.setStored_sys (v : List Host.Cell) : (s.setStored v).sys = s.sys := rfl
@[simp] theorem State.setStored_fpu (v : List Host.Cell) : (s.setStored v).fpu = s.fpu := rfl
@[simp] theorem State.setStored_link (v : List Host.Cell) : (s.setStored v).link = s.link := rfl
@[simp] theorem State.setStored_mem (v : List Host.Cell) : (s.setStored v).mem = s.mem := rfl
@[simp] theorem State.setStored_tlb (v : List Host.Cell) : (s.setStored v).tlb = s.tlb := rfl
@[simp] theorem State.setStored_stored (v : List Host.Cell) : (s.setStored v).stored = v := rfl
@[simp] theorem State.setStored_cur (v : List Host.Cell) : (s.setStored v).cur = s.cur := rfl
@[simp] theorem State.setStored_ctl (v : List Host.Cell) : (s.setStored v).ctl = s.ctl := rfl
@[simp] theorem State.setStored_env (v : List Host.Cell) : (s.setStored v).env = s.env := rfl
@[simp] theorem State.setStored_draws (v : List Host.Cell) : (s.setStored v).draws = s.draws := rfl
@[simp] theorem State.setStored_setStored (v v' : List Host.Cell) : (s.setStored v).setStored v' = s.setStored v' := rfl

@[simp] theorem State.setCur_cfg (v : Cur) : (s.setCur v).cfg = s.cfg := rfl
@[simp] theorem State.setCur_gpr (v : Cur) : (s.setCur v).gpr = s.gpr := rfl
@[simp] theorem State.setCur_eip (v : Cur) : (s.setCur v).eip = s.eip := rfl
@[simp] theorem State.setCur_segs (v : Cur) : (s.setCur v).segs = s.segs := rfl
@[simp] theorem State.setCur_flags (v : Cur) : (s.setCur v).flags = s.flags := rfl
@[simp] theorem State.setCur_sys (v : Cur) : (s.setCur v).sys = s.sys := rfl
@[simp] theorem State.setCur_fpu (v : Cur) : (s.setCur v).fpu = s.fpu := rfl
@[simp] theorem State.setCur_link (v : Cur) : (s.setCur v).link = s.link := rfl
@[simp] theorem State.setCur_mem (v : Cur) : (s.setCur v).mem = s.mem := rfl
@[simp] theorem State.setCur_tlb (v : Cur) : (s.setCur v).tlb = s.tlb := rfl
@[simp] theorem State.setCur_stored (v : Cur) : (s.setCur v).stored = s.stored := rfl
@[simp] theorem State.setCur_cur (v : Cur) : (s.setCur v).cur = v := rfl
@[simp] theorem State.setCur_ctl (v : Cur) : (s.setCur v).ctl = s.ctl := rfl
@[simp] theorem State.setCur_env (v : Cur) : (s.setCur v).env = s.env := rfl
@[simp] theorem State.setCur_draws (v : Cur) : (s.setCur v).draws = s.draws := rfl
@[simp] theorem State.setCur_setCur (v v' : Cur) : (s.setCur v).setCur v' = s.setCur v' := rfl

@[simp] theorem State.setCtl_cfg (v : Ctl) : (s.setCtl v).cfg = s.cfg := rfl
@[simp] theorem State.setCtl_gpr (v : Ctl) : (s.setCtl v).gpr = s.gpr := rfl
@[simp] theorem State.setCtl_eip (v : Ctl) : (s.setCtl v).eip = s.eip := rfl
@[simp] theorem State.setCtl_segs (v : Ctl) : (s.setCtl v).segs = s.segs := rfl
@[simp] theorem State.setCtl_flags (v : Ctl) : (s.setCtl v).flags = s.flags := rfl
@[simp] theorem State.setCtl_sys (v : Ctl) : (s.setCtl v).sys = s.sys := rfl
@[simp] theorem State.setCtl_fpu (v : Ctl) : (s.setCtl v).fpu = s.fpu := rfl
@[simp] theorem State.setCtl_link (v : Ctl) : (s.setCtl v).link = s.link := rfl
@[simp] theorem State.setCtl_mem (v : Ctl) : (s.setCtl v).mem = s.mem := rfl
@[simp] theorem State.setCtl_tlb (v : Ctl) : (s.setCtl v).tlb = s.tlb := rfl
@[simp] theorem State.setCtl_stored (v : Ctl) : (s.setCtl v).stored = s.stored := rfl
@[simp] theorem State.setCtl_cur (v : Ctl) : (s.setCtl v).cur = s.cur := rfl
@[simp] theorem State.setCtl_ctl (v : Ctl) : (s.setCtl v).ctl = v := rfl
@[simp] theorem State.setCtl_env (v : Ctl) : (s.setCtl v).env = s.env := rfl
@[simp] theorem State.setCtl_draws (v : Ctl) : (s.setCtl v).draws = s.draws := rfl
@[simp] theorem State.setCtl_setCtl (v v' : Ctl) : (s.setCtl v).setCtl v' = s.setCtl v' := rfl

@[simp] theorem State.setEnv_cfg (v : Env) : (s.setEnv v).cfg = s.cfg := rfl
@[simp] theorem State.setEnv_gpr (v : Env) : (s.setEnv v).gpr = s.gpr := rfl
@[simp] theorem State.setEnv_eip (v : Env) : (s.setEnv v).eip = s.eip := rfl
@[simp] theorem State.setEnv_segs (v : Env) : (s.setEnv v).segs = s.segs := rfl
@[simp] theorem State.setEnv_flags (v : Env) : (s.setEnv v).flags = s.flags := rfl
@[simp] theorem State.setEnv_sys (v : Env) : (s.setEnv v).sys = s.sys := rfl
@[simp] theorem State.setEnv_fpu (v : Env) : (s.setEnv v).fpu = s.fpu := rfl
@[simp] theorem State.setEnv_link (v : Env) : (s.setEnv v).link = s.link := rfl
@[simp] theorem State.setEnv_mem (v : Env) : (s.setEnv v).mem = s.mem := rfl
@[simp] theorem State.setEnv_tlb (v : Env) : (s.setEnv v).tlb = s.tlb := rfl
@[simp] theorem State.setEnv_stored (v : Env) : (s.setEnv v).stored = s.stored := rfl
@[simp] theorem State.setEnv_cur (v : Env) : (s.setEnv v).cur = s.cur := rfl
@[simp] theorem State.setEnv_ctl (v : Env) : (s.setEnv v).ctl = s.ctl := rfl
@[simp] theorem State.setEnv_env (v : Env) : (s.setEnv v).env = v := rfl
@[simp] theorem State.setEnv_draws (v : Env) : (s.setEnv v).draws = s.draws := rfl
@[simp] theorem State.setEnv_setEnv (v v' : Env) : (s.setEnv v).setEnv v' = s.setEnv v' := rfl

@[simp] theorem State.setDraws_cfg (v : Nat) : (s.setDraws v).cfg = s.cfg := rfl
@[simp] theorem State.setDraws_gpr (v : Nat) : (s.setDraws v).gpr = s.gpr := rfl
@[simp] theorem State.setDraws_eip (v : Nat) : (s.setDraws v).eip = s.eip := rfl
@[simp] theorem State.setDraws_segs (v : Nat) : (s.setDraws v).segs = s.segs := rfl
@[simp] theorem State.setDraws_flags (v : Nat) : (s.setDraws v).flags = s.flags := rfl
@[simp] theorem State.setDraws_sys (v : Nat) : (s.setDraws v).sys = s.sys := rfl
@[simp] theorem State.setDraws_fpu (v : Nat) : (s.setDraws v).fpu = s.fpu := rfl
@[simp] theorem State.setDraws_link (v : Nat) : (s.setDraws v).link = s.link := rfl
@[simp] theorem State.setDraws_mem (v : Nat) : (s.setDraws v).mem = s.mem := rfl
@[simp] theorem State.setDraws_tlb (v : Nat) : (s.setDraws v).tlb = s.tlb := rfl
@[simp] theorem State.setDraws_stored (v : Nat) : (s.setDraws v).stored = s.stored := rfl
@[simp] theorem State.setDraws_cur (v : Nat) : (s.setDraws v).cur = s.cur := rfl
@[simp] theorem State.setDraws_ctl (v : Nat) : (s.setDraws v).ctl = s.ctl := rfl
@[simp] theorem State.setDraws_env (v : Nat) : (s.setDraws v).env = s.env := rfl
@[simp] theorem State.setDraws_draws (v : Nat) : (s.setDraws v).draws = v := rfl
@[simp] theorem State.setDraws_setDraws (v v' : Nat) : (s.setDraws v).setDraws v' = s.setDraws v' := rfl

/-! The registers of eight. -/

@[simp] theorem Oct.get_set_self {α : Type} (o : Oct α) (i : BitVec 3) (v : α) : (o.set i v).get i = v := by
  revert o; revert i; intro i; fin_cases i <;> intro o <;> rfl

theorem Oct.get_set_ne {α : Type} (o : Oct α) {i j : BitVec 3} (v : α) (h : j ≠ i) :
    (o.set i v).get j = o.get j := by
  revert h; fin_cases i <;> fin_cases j <;> intro h <;> first | rfl | exact absurd rfl h

theorem Oct.ext_get {α : Type} {o p : Oct α} (h : ∀ i, o.get i = p.get i) : o = p := by
  cases o; cases p
  have h0 := h 0#3; have h1 := h 1#3; have h2 := h 2#3; have h3 := h 3#3
  have h4 := h 4#3; have h5 := h 5#3; have h6 := h 6#3; have h7 := h 7#3
  simp only [Oct.get] at h0 h1 h2 h3 h4 h5 h6 h7
  simp_all

@[simp] theorem SegRegs.get_put_self (r : SegRegs) (k : SReg) (v : SegReg) : (r.put k v).get k = v := by
  cases k <;> rfl

theorem SegRegs.get_put_ne (r : SegRegs) {k j : SReg} (v : SegReg) (h : j ≠ k) : (r.put k v).get j = r.get j := by
  cases k <;> cases j <;> first | rfl | exact absurd rfl h

end Sys2Proof.Machine
end

