-- ==== Sys2Proof/Laws/Monad.lean ====
section
/-! SUPPORT. How a computation of a meaning runs: one equation for each way of building one, so that a meaning is
evaluated by rewriting, and what `complete` makes of it. -/

namespace Sys2Proof.Machine

variable {α β : Type}

@[simp] theorem M.pure_run (a : α) (s : State) : (pure a : M α) s = .ok a s := rfl

@[simp] theorem M.bind_run (x : M α) (f : α → M β) (s : State) :
    (x >>= f) s = match x s with
      | .ok a t => f a t
      | .error e t => .error e t := by
  show EStateM.bind x f s = _
  unfold EStateM.bind; cases x s <;> rfl

@[simp] theorem M.map_run (f : α → β) (x : M α) (s : State) :
    (f <$> x) s = match x s with
      | .ok a t => .ok (f a) t
      | .error e t => .error e t := by
  show EStateM.map f x s = _
  unfold EStateM.map; cases x s <;> rfl

@[simp] theorem M.throw_run (e : Stop) (s : State) : (throw e : M α) s = .error e s := rfl

@[simp] theorem getS_run (s : State) : getS s = .ok s s := rfl
@[simp] theorem updS_run (f : State → State) (s : State) : updS f s = .ok () (f s) := rfl
@[simp] theorem readS_run (f : State → α) (s : State) : readS f s = .ok (f s) s := rfl
@[simp] theorem refuse_run (r : Refusal) (s : State) : (refuse r : M α) s = .error (.refuse r) s := rfl
@[simp] theorem raiseExc_run (v : BitVec 8) (c : Option (BitVec 16)) (s : State) :
    (raiseExc v c : M α) s = .error (.exc ⟨v, c⟩) s := rfl

@[simp] theorem drawBit_run (s : State) :
    drawBit s = .ok (Config.freeBit s.draws) (s.setDraws (s.draws + 1)) := rfl
@[simp] theorem drawByte_run (s : State) :
    drawByte s = .ok (Config.freeByte s.draws) (s.setDraws (s.draws + 1)) := rfl
@[simp] theorem drawWord_run (s : State) :
    drawWord s = .ok (Config.freeWord s.draws) (s.setDraws (s.draws + 1)) := rfl
@[simp] theorem drawDword_run (s : State) :
    drawDword s = .ok (Config.freeDword s.draws) (s.setDraws (s.draws + 1)) := rfl
@[simp] theorem drawTemp_run (s : State) :
    drawTemp s = .ok (Config.freeTemp s.draws) (s.setDraws (s.draws + 1)) := rfl

@[simp] theorem updFlags_run (f : Flags → Flags) (s : State) : updFlags f s = .ok () (s.setFlags (f s.flags)) := rfl
@[simp] theorem updSys_run (f : Sys → Sys) (s : State) : updSys f s = .ok () (s.setSys (f s.sys)) := rfl
@[simp] theorem updCtl_run (f : Ctl → Ctl) (s : State) : updCtl f s = .ok () (s.setCtl (f s.ctl)) := rfl
@[simp] theorem updCr0_run (f : Cr0 → Cr0) (s : State) :
    updCr0 f s = .ok () (s.setSys { s.sys with cr0 := f s.sys.cr0 }) := rfl
@[simp] theorem setReg_run (w : Width) (i : RegNum) (v : Val w) (s : State) :
    setReg w i v s = .ok () (s.setGpr (regWrite s.gpr w i v)) := rfl
@[simp] theorem getReg_run (w : Width) (i : RegNum) (s : State) : getReg w i s = .ok (s.reg w i) s := rfl
@[simp] theorem putSeg_run (k : SReg) (v : SegReg) (s : State) :
    putSeg k v s = .ok () (s.setSegs (s.segs.put k v)) := rfl
@[simp] theorem advance_run (s : State) : advance s = .ok () s.advance := rfl
@[simp] theorem jumpTo_run (t : BitVec 32) (s : State) :
    jumpTo t s = .ok () (((s.setEip t).setCur Cur.start).setStored []) := rfl
@[simp] theorem flushQueue_run (s : State) : flushQueue s = .ok () (s.setStored []) := rfl

/-- The outcome of a computation that ends well. -/
theorem finish_ok {m : M Unit} {s t : State} (h : m s = .ok () t) : finish m s = .next t := by
  unfold finish; rw [h]

/-- The outcome of a computation that raises an exception: it is taken in the state a fault restores (R606). -/
theorem finish_exc {m : M Unit} {s t : State} {x : Exc} (h : m s = .error (.exc x) t) :
    finish m s = deliver (excEvent x s.eip) (restore s t) := by
  unfold finish; rw [h]

/-- An instruction that computes without stopping goes on at next IP (R25). -/
theorem complete_ok {m : M Unit} {s t : State} (h : m s = .ok () t) : complete m s = .next t.advance := by
  unfold complete; apply finish_ok; simp [h]

/-- An instruction that raises an exception. -/
theorem complete_exc {m : M Unit} {s t : State} {x : Exc} (h : m s = .error (.exc x) t) :
    complete m s = deliver (excEvent x s.eip) (restore s t) := by
  unfold complete; apply finish_exc; simp [h]

/-- When a computation ends well, so did the meaning before the advance. -/
theorem complete_next {m : M Unit} {s t : State} (h : m s = .ok () t) (u : State) :
    complete m s = .next u ↔ u = t.advance := by
  rw [complete_ok h]; constructor
  · intro e; cases e; rfl
  · intro e; rw [e]

@[simp] theorem State.advance_gpr (s : State) : s.advance.gpr = s.gpr := rfl
@[simp] theorem State.advance_eip (s : State) : s.advance.eip = s.nextIP := rfl
@[simp] theorem State.advance_segs (s : State) : s.advance.segs = s.segs := rfl
@[simp] theorem State.advance_flags (s : State) : s.advance.flags = s.flags := rfl
@[simp] theorem State.advance_sys (s : State) : s.advance.sys = s.sys := rfl
@[simp] theorem State.advance_fpu (s : State) : s.advance.fpu = s.fpu := rfl
@[simp] theorem State.advance_link (s : State) : s.advance.link = s.link := rfl
@[simp] theorem State.advance_mem (s : State) : s.advance.mem = s.mem := rfl
@[simp] theorem State.advance_tlb (s : State) : s.advance.tlb = s.tlb := rfl
@[simp] theorem State.advance_stored (s : State) : s.advance.stored = s.stored := rfl
@[simp] theorem State.advance_cur (s : State) : s.advance.cur = Cur.start := rfl
@[simp] theorem State.advance_ctl (s : State) : s.advance.ctl = s.ctl := rfl
@[simp] theorem State.advance_env (s : State) : s.advance.env = s.env := rfl
@[simp] theorem State.advance_draws (s : State) : s.advance.draws = s.draws := rfl
@[simp] theorem State.advance_cfg (s : State) : s.advance.cfg = s.cfg := rfl

end Sys2Proof.Machine
end

