-- ==== Sys2Proof/Laws/Memory.lean ====
section
/-! SUPPORT. Memory: every operation keeps the canonical form, a read after a write gives the value written, and a
write leaves every other byte alone. -/

namespace Sys2Proof.Machine

/-- An address is above an optional bound. -/
def aboveLo : Option Nat → Nat → Prop
  | none, _ => True
  | some l, x => l < x

theorem wfAbove_cons (lo : Option Nat) (a : Nat) (b : Byte) (m : List Host.Cell) :
    Memory.wfAbove lo ((a, b) :: m) = true ↔ aboveLo lo a ∧ b ≠ unlisted ∧ Memory.wfAbove (some a) m = true := by
  cases lo <;> simp [Memory.wfAbove, aboveLo, and_assoc]

theorem wfAbove_weaken {lo : Option Nat} {a : Nat} {m : List Host.Cell} (ha : aboveLo lo a)
    (h : Memory.wfAbove (some a) m = true) : Memory.wfAbove lo m = true := by
  cases m with
  | nil => rfl
  | cons c m =>
    obtain ⟨x, b⟩ := c
    rw [wfAbove_cons] at h ⊢
    refine ⟨?_, h.2⟩
    have hx : a < x := h.1
    cases lo with
    | none => trivial
    | some l => exact lt_trans ha hx

/-- Below the bound there is nothing. -/
theorem memGet_le {a x : Nat} {m : List Host.Cell} (h : Memory.wfAbove (some a) m = true) (hx : x ≤ a) :
    memGet m x = unlisted := by
  induction m generalizing a with
  | nil => rfl
  | cons c m ih =>
    obtain ⟨y, b⟩ := c
    rw [wfAbove_cons] at h
    have hy : a < y := h.1
    have hne : ¬ y = x := by omega
    simp only [memGet, if_neg hne]
    exact ih h.2.2 (by omega)

theorem wfAbove_memCons {lo : Option Nat} {x : Nat} {v : Byte} {m : List Host.Cell} (hx : aboveLo lo x)
    (h : Memory.wfAbove (some x) m = true) : Memory.wfAbove lo (memCons x v m) = true := by
  unfold memCons
  split
  · exact wfAbove_weaken hx h
  · rename_i hv
    exact (wfAbove_cons _ _ _ _).2 ⟨hx, hv, h⟩

/-- Writing a byte keeps the canonical form, above any bound the address respects. -/
theorem wfAbove_memSet {lo : Option Nat} {m : List Host.Cell} {x : Nat} (v : Byte) (hx : aboveLo lo x)
    (h : Memory.wfAbove lo m = true) : Memory.wfAbove lo (memSet m x v) = true := by
  induction m generalizing lo with
  | nil => exact wfAbove_memCons hx rfl
  | cons c m ih =>
    obtain ⟨a, b⟩ := c
    rw [wfAbove_cons] at h
    simp only [memSet]
    split
    · rename_i hlt
      exact wfAbove_memCons hx ((wfAbove_cons _ _ _ _).2 ⟨hlt, h.2⟩)
    · split
      · rename_i he
        subst he
        exact wfAbove_memCons hx h.2.2
      · rename_i h1 h2
        refine (wfAbove_cons _ _ _ _).2 ⟨h.1, h.2.1, ih ?_ h.2.2⟩
        show a < x
        omega

/-- Writing a byte keeps the canonical form. -/
theorem wf_memSet {m : List Host.Cell} (x : Nat) (v : Byte) (h : Memory.wf m = true) :
    Memory.wf (memSet m x v) = true := wfAbove_memSet v trivial h

theorem memGet_memCons_self {x : Nat} {v : Byte} {m : List Host.Cell} (h : Memory.wfAbove (some x) m = true) :
    memGet (memCons x v m) x = v := by
  unfold memCons
  split
  · rename_i hv
    rw [hv]; exact memGet_le h (le_refl x)
  · simp [memGet]

theorem memGet_memCons_ne {x y : Nat} {v : Byte} {m : List Host.Cell} (h : y ≠ x) :
    memGet (memCons x v m) y = memGet m y := by
  unfold memCons
  split
  · rfl
  · have hne : ¬ x = y := fun e => h e.symm
    simp [memGet, hne]

/-- A read after a write to the same place gives the value written. -/
theorem memGet_memSet_self {lo : Option Nat} {m : List Host.Cell} {x : Nat} (v : Byte)
    (h : Memory.wfAbove lo m = true) : memGet (memSet m x v) x = v := by
  induction m generalizing lo with
  | nil => exact memGet_memCons_self rfl
  | cons c m ih =>
    obtain ⟨a, b⟩ := c
    rw [wfAbove_cons] at h
    simp only [memSet]
    split
    · rename_i hlt
      exact memGet_memCons_self ((wfAbove_cons _ _ _ _).2 ⟨hlt, h.2⟩)
    · split
      · rename_i he
        subst he
        exact memGet_memCons_self h.2.2
      · rename_i h1 h2
        have hne : ¬ a = x := fun e => h2 e.symm
        simp only [memGet, if_neg hne]
        exact ih h.2.2

/-- A write leaves every other byte alone. -/
theorem memGet_memSet_ne {m : List Host.Cell} {x y : Nat} (v : Byte) (h : y ≠ x) :
    memGet (memSet m x v) y = memGet m y := by
  induction m with
  | nil => exact memGet_memCons_ne h
  | cons c m ih =>
    obtain ⟨a, b⟩ := c
    simp only [memSet]
    split
    · exact memGet_memCons_ne h
    · split
      · rename_i h1 he
        subst he
        have hne : ¬ x = y := fun e => h e.symm
        simp [memGet_memCons_ne h, memGet, hne]
      · simp only [memGet, ih]

/-- The addresses a write may list. -/
theorem mem_memSet {m : List Host.Cell} {x : Nat} {v : Byte} {c : Host.Cell} (h : c ∈ memSet m x v) :
    c.1 = x ∨ c ∈ m := by
  have hc : ∀ (l : List Host.Cell), c ∈ memCons x v l → c.1 = x ∨ c ∈ l := by
    intro l hl
    unfold memCons at hl
    split at hl
    · exact .inr hl
    · rcases List.mem_cons.1 hl with rfl | h'
      · exact .inl rfl
      · exact .inr h'
  induction m with
  | nil => exact hc _ h
  | cons d m ih =>
    obtain ⟨a, b⟩ := d
    simp only [memSet] at h
    split at h
    · exact hc _ h
    · split at h
      · rcases hc _ h with h' | h'
        · exact .inl h'
        · exact .inr (List.mem_cons_of_mem _ h')
      · rcases List.mem_cons.1 h with rfl | h'
        · exact .inr List.mem_cons_self
        · rcases ih h' with h'' | h''
          · exact .inl h''
          · exact .inr (List.mem_cons_of_mem _ h'')

/-- A bus address is a physical address. -/
theorem busAddr_lt (c : Config) (a : Nat) : busAddr c a < 2 ^ c.physBits := by
  have h : a % 2 ^ c.physBits < 2 ^ c.physBits := Nat.mod_lt _ (by positivity)
  unfold busAddr
  simp only
  split <;> omega

/-! Stored bytes: what `State.storeByte` and `State.putBytes` change. -/

@[simp] theorem State.storeByte_mem (s : State) (a : Nat) (v : Byte) : (s.storeByte a v).mem = memSet s.mem a v := rfl
@[simp] theorem State.storeByte_cfg (s : State) (a : Nat) (v : Byte) : (s.storeByte a v).cfg = s.cfg := rfl
@[simp] theorem State.storeByte_gpr (s : State) (a : Nat) (v : Byte) : (s.storeByte a v).gpr = s.gpr := rfl
@[simp] theorem State.storeByte_eip (s : State) (a : Nat) (v : Byte) : (s.storeByte a v).eip = s.eip := rfl
@[simp] theorem State.storeByte_segs (s : State) (a : Nat) (v : Byte) : (s.storeByte a v).segs = s.segs := rfl
@[simp] theorem State.storeByte_flags (s : State) (a : Nat) (v : Byte) : (s.storeByte a v).flags = s.flags := rfl
@[simp] theorem State.storeByte_sys (s : State) (a : Nat) (v : Byte) : (s.storeByte a v).sys = s.sys := rfl
@[simp] theorem State.storeByte_fpu (s : State) (a : Nat) (v : Byte) : (s.storeByte a v).fpu = s.fpu := rfl
@[simp] theorem State.storeByte_link (s : State) (a : Nat) (v : Byte) : (s.storeByte a v).link = s.link := rfl
@[simp] theorem State.storeByte_tlb (s : State) (a : Nat) (v : Byte) : (s.storeByte a v).tlb = s.tlb := rfl
@[simp] theorem State.storeByte_cur (s : State) (a : Nat) (v : Byte) : (s.storeByte a v).cur = s.cur := rfl
@[simp] theorem State.storeByte_ctl (s : State) (a : Nat) (v : Byte) : (s.storeByte a v).ctl = s.ctl := rfl
@[simp] theorem State.storeByte_env (s : State) (a : Nat) (v : Byte) : (s.storeByte a v).env = s.env := rfl
@[simp] theorem State.storeByte_draws (s : State) (a : Nat) (v : Byte) : (s.storeByte a v).draws = s.draws := rfl

/-- `putBytes` changes memory and the record of stored bytes only. -/
theorem State.putBytes_frame (s : State) (lin : BitVec 32) (bs : List Byte) :
    s.putBytes lin bs = (s.setMem (s.putBytes lin bs).mem).setStored (s.putBytes lin bs).stored := by
  induction bs generalizing s lin with
  | nil => rfl
  | cons b bs ih =>
    show (s.storeByte (s.flat lin) b).putBytes (lin + 1#32) bs = _
    rw [ih]; rfl

@[simp] theorem State.putBytes_cfg (s : State) (lin : BitVec 32) (bs : List Byte) : (s.putBytes lin bs).cfg = s.cfg := by
  rw [State.putBytes_frame]; rfl
@[simp] theorem State.putBytes_gpr (s : State) (lin : BitVec 32) (bs : List Byte) : (s.putBytes lin bs).gpr = s.gpr := by
  rw [State.putBytes_frame]; rfl
@[simp] theorem State.putBytes_eip (s : State) (lin : BitVec 32) (bs : List Byte) : (s.putBytes lin bs).eip = s.eip := by
  rw [State.putBytes_frame]; rfl
@[simp] theorem State.putBytes_segs (s : State) (lin : BitVec 32) (bs : List Byte) :
    (s.putBytes lin bs).segs = s.segs := by rw [State.putBytes_frame]; rfl
@[simp] theorem State.putBytes_flags (s : State) (lin : BitVec 32) (bs : List Byte) :
    (s.putBytes lin bs).flags = s.flags := by rw [State.putBytes_frame]; rfl
@[simp] theorem State.putBytes_sys (s : State) (lin : BitVec 32) (bs : List Byte) : (s.putBytes lin bs).sys = s.sys := by
  rw [State.putBytes_frame]; rfl
@[simp] theorem State.putBytes_fpu (s : State) (lin : BitVec 32) (bs : List Byte) : (s.putBytes lin bs).fpu = s.fpu := by
  rw [State.putBytes_frame]; rfl
@[simp] theorem State.putBytes_link (s : State) (lin : BitVec 32) (bs : List Byte) :
    (s.putBytes lin bs).link = s.link := by rw [State.putBytes_frame]; rfl
@[simp] theorem State.putBytes_tlb (s : State) (lin : BitVec 32) (bs : List Byte) : (s.putBytes lin bs).tlb = s.tlb := by
  rw [State.putBytes_frame]; rfl
@[simp] theorem State.putBytes_cur (s : State) (lin : BitVec 32) (bs : List Byte) : (s.putBytes lin bs).cur = s.cur := by
  rw [State.putBytes_frame]; rfl
@[simp] theorem State.putBytes_ctl (s : State) (lin : BitVec 32) (bs : List Byte) : (s.putBytes lin bs).ctl = s.ctl := by
  rw [State.putBytes_frame]; rfl
@[simp] theorem State.putBytes_env (s : State) (lin : BitVec 32) (bs : List Byte) : (s.putBytes lin bs).env = s.env := by
  rw [State.putBytes_frame]; rfl
@[simp] theorem State.putBytes_draws (s : State) (lin : BitVec 32) (bs : List Byte) :
    (s.putBytes lin bs).draws = s.draws := by rw [State.putBytes_frame]; rfl

/-- A byte outside the stored range reads as before. -/
theorem State.putBytes_get_ne (s : State) (lin : BitVec 32) (bs : List Byte) (a : Nat)
    (h : s.within lin bs.length a = false) : memGet (s.putBytes lin bs).mem a = memGet s.mem a := by
  induction bs generalizing s lin with
  | nil => rfl
  | cons b bs ih =>
    simp only [List.length_cons, State.within, Bool.or_eq_false_iff, beq_eq_false_iff_ne] at h
    show memGet ((s.storeByte (s.flat lin) b).putBytes (lin + 1#32) bs).mem a = _
    rw [ih (s.storeByte (s.flat lin) b) (lin + 1#32) ?_, State.storeByte_mem, memGet_memSet_ne _ h.1]
    have hw : ∀ (n : Nat) (l : BitVec 32), (s.storeByte (s.flat lin) b).within l n a = s.within l n a := by
      intro n; induction n with
      | zero => intro l; rfl
      | succ n ihn => intro l; simp only [State.within, ihn]; rfl
    rw [hw]; exact h.2

/-- Storing bytes keeps the canonical form. -/
theorem State.putBytes_wf (s : State) (lin : BitVec 32) (bs : List Byte) (h : Memory.wf s.mem = true) :
    Memory.wf (s.putBytes lin bs).mem = true := by
  induction bs generalizing s lin with
  | nil => exact h
  | cons b bs ih => exact ih _ _ (wf_memSet _ _ h)

/-! Byte order (R74). -/

theorem leBytes_length (n v : Nat) : (leBytes n v).length = n := by
  induction n generalizing v with
  | zero => rfl
  | succ n ih => simp [leBytes, ih]

theorem leNat_leBytes (n v : Nat) : leNat (leBytes n v) = v % 256 ^ n := by
  induction n generalizing v with
  | zero => simp [leBytes, leNat, Nat.mod_one]
  | succ n ih =>
    have h : v % 256 ^ (n + 1) = v % 256 + 256 * (v / 256 % 256 ^ n) := by
      rw [Nat.pow_succ, Nat.mul_comm (256 ^ n) 256, Nat.mod_mul]
    rw [h]
    simp only [leBytes, leNat, ih, BitVec.toNat_ofNat]

/-- What is stored little-endian is what is read. -/
theorem leVal_leBytes (w : Width) (v : Val w) : leVal w.bits (leBytes w.bytes v.toNat) = v := by
  unfold leVal
  rw [leNat_leBytes]
  cases w <;> (apply BitVec.eq_of_toNat_eq; simp [Width.bytes, Width.bits]; have := v.isLt; omega)

end Sys2Proof.Machine
end

