-- ==== Sys2Proof/Laws/Access.lean ====
section
/-! SUPPORT. What an access does when the protection rules let it through to plain memory: one equation for each
operation over memory, operands and the stack. -/

namespace Sys2Proof.Machine

theorem raise_run {α : Type} (v : BitVec 8) (c : Option (BitVec 16)) (s : State) :
    (raiseExc v c : M α) s = .error (.exc ⟨v, c⟩) s := rfl

/-- The alignment check passes an address it does not apply to (R110). -/
theorem alignCheck_ok {s : State} {lin : BitVec 32} {al : Nat} (h : s.aligned lin al = true) :
    alignCheck lin al s = .ok () s := by
  unfold State.aligned at h
  unfold alignCheck
  simp only [M.bind_run, getS_run]
  split
  · rename_i hc; rw [hc] at h; exact absurd h (by decide)
  · rfl

/-- An access that the segment lets through: the linear address (R90). -/
theorem segCheck_ok {s : State} {k : SReg} {off : BitVec 32} {n : Nat} {write : Bool} {al : Nat}
    (h : s.allows k off n write al = true) : segCheck k off n write s = .ok (s.linOf k off) s := by
  unfold State.allows at h
  simp only [Bool.and_eq_true] at h
  obtain ⟨⟨hp, hh⟩, -⟩ := h
  unfold segCheck State.linOf
  simp only [M.bind_run, getS_run]
  cases hpm : s.protMode
  · simp [hh]
  · rw [hpm] at hp
    simp only [Bool.not_true, Bool.false_or, Bool.and_eq_true] at hp
    cases write <;> simp_all

/-- The physical addresses of a plain range. -/
def State.flats (s : State) (lin : BitVec 32) : (n : Nat) → List Nat
  | 0 => []
  | n + 1 => lin.toNat :: s.flats (lin + 1#32) n

theorem State.flats_eq (s : State) (lin : BitVec 32) (n : Nat) :
    (List.range n).map (fun i => (lin + BitVec.ofNat 32 i).toNat) = s.flats lin n := by
  induction n generalizing lin with
  | zero => rfl
  | succ n ih =>
    rw [List.range_succ_eq_map, List.map_cons, List.map_map, State.flats, ← ih]
    congr 1
    · simp
    · apply List.map_congr_left
      intro i _
      simp only [Function.comp, Nat.succ_eq_add_one]
      congr 1
      apply BitVec.eq_of_toNat_eq
      simp [BitVec.toNat_add, BitVec.toNat_ofNat]; omega

theorem State.plain_paging {s : State} {lin : BitVec 32} {n : Nat} (h : s.plain lin n = true) :
    s.paging = false := by
  induction n generalizing lin with
  | zero => simpa [State.plain] using h
  | succ n ih => simp only [State.plain, Bool.and_eq_true] at h; exact ih h.2

/-- Without paging the linear addresses are the physical ones (R100). -/
theorem linAddrs_plain {s : State} {lin : BitVec 32} {n : Nat} (write user : Bool) (h : s.paging = false) :
    linAddrs lin n write user s = .ok (s.flats lin n) s := by
  unfold linAddrs
  simp only [M.bind_run, getS_run, h, Bool.not_false, if_true, M.pure_run]
  rw [State.flats_eq s]

theorem physReadAll_plain {s : State} {lin : BitVec 32} {n : Nat} (h : s.plain lin n = true) :
    physReadAll (s.flats lin n) s = .ok (s.bytesAt lin n) s := by
  induction n generalizing lin with
  | zero => rfl
  | succ n ih =>
    simp only [State.plain, Bool.and_eq_true, beq_iff_eq] at h
    have h1 : physRead lin.toNat s = .ok (memGet s.mem (s.flat lin)) s := by
      unfold physRead
      have hk := h.1
      unfold State.flat at hk ⊢
      simp only [hk]
    simp only [State.flats, physReadAll, State.bytesAt, M.bind_run, h1, ih h.2, M.pure_run]

theorem physWriteAll_plain {s : State} {lin : BitVec 32} {bs : List Byte} (h : s.plain lin bs.length = true) :
    physWriteAll (s.flats lin bs.length) bs s = .ok () (s.putBytes lin bs) := by
  induction bs generalizing s lin with
  | nil => rfl
  | cons b bs ih =>
    simp only [List.length_cons, State.plain, Bool.and_eq_true, beq_iff_eq] at h
    have h1 : physWrite lin.toNat b s = .ok () (s.storeByte (s.flat lin) b) := by
      unfold physWrite
      have hk := h.1
      unfold State.flat at hk ⊢
      simp only [hk]
    have hp : ∀ (n : Nat) (l : BitVec 32), (s.storeByte (s.flat lin) b).plain l n = s.plain l n := by
      intro n; induction n with
      | zero => intro l; rfl
      | succ n ihn => intro l; simp only [State.plain, ihn]; rfl
    have hf : ∀ (n : Nat) (l : BitVec 32), (s.storeByte (s.flat lin) b).flats l n = s.flats l n := by
      intro n; induction n with
      | zero => intro l; rfl
      | succ n ihn => intro l; simp only [State.flats, ihn]
    simp only [List.length_cons, State.flats, physWriteAll, M.bind_run, h1]
    rw [← hf]
    exact ih ((hp _ _).trans h.2)

/-- The checks pass: the physical addresses (R90, R100, R110). -/
theorem segAddrs_ok {s : State} {k : SReg} {off : BitVec 32} {n : Nat} {write : Bool} {al : Nat}
    (h : s.reaches k off n write al = true) :
    segAddrs k off n write al s = .ok (s.flats (s.linOf k off) n) s := by
  simp only [State.reaches, Bool.and_eq_true] at h
  have ha : s.aligned (s.linOf k off) al = true := by
    have hc := h.1
    simp only [State.allows, Bool.and_eq_true] at hc
    exact hc.2
  unfold segAddrs pageCheck
  simp only [M.bind_run, getS_run, segCheck_ok h.1, linAddrs_plain _ _ (State.plain_paging h.2), alignCheck_ok ha,
    M.pure_run]

theorem State.reaches_plain {s : State} {k : SReg} {off : BitVec 32} {n : Nat} {write : Bool} {al : Nat}
    (h : s.reaches k off n write al = true) : s.plain (s.linOf k off) n = true := by
  simp only [State.reaches, Bool.and_eq_true] at h; exact h.2

/-- `SegRead` of plain memory (R90). -/
theorem segRead_ok {s : State} {k : SReg} {off : BitVec 32} {n al : Nat} (h : s.reaches k off n false al = true) :
    segRead k off n al s = .ok (s.bytesAt (s.linOf k off) n) s := by
  unfold segRead
  simp only [M.bind_run, segAddrs_ok h, physReadAll_plain (State.reaches_plain h)]

/-- `SegWrite` to plain memory (R90). -/
theorem segWrite_ok {s : State} {k : SReg} {off : BitVec 32} {bs : List Byte} {al : Nat}
    (h : s.reaches k off bs.length true al = true) :
    segWrite k off bs al s = .ok () (s.putBytes (s.linOf k off) bs) := by
  unfold segWrite
  simp only [M.bind_run, segAddrs_ok h, physWriteAll_plain (State.reaches_plain h)]

/-- The checks alone pass. -/
theorem probe_ok {s : State} {k : SReg} {off : BitVec 32} {n al : Nat} {write : Bool}
    (h : s.reaches k off n write al = true) : probe k off n write al s = .ok () s := by
  unfold probe
  simp only [M.bind_run, segAddrs_ok h, M.pure_run]

/-- A memory operand is read (R71, R74). -/
theorem segReadV_ok {s : State} {w : Width} {k : SReg} {off : BitVec 32}
    (h : s.reaches k off w.bytes false w.bytes = true) : segReadV w k off s = .ok (s.memVal w k off) s := by
  unfold segReadV
  simp only [M.bind_run, segRead_ok h, M.pure_run]; rfl

/-- A memory operand is written (R71, R74). -/
theorem segWriteV_ok {s : State} {w : Width} {k : SReg} {off : BitVec 32} (v : Val w)
    (h : s.reaches k off w.bytes true w.bytes = true) : segWriteV w k off v s = .ok () (s.memPut w k off v) := by
  unfold segWriteV
  rw [segWrite_ok (by rw [leBytes_length]; exact h)]; rfl

/-- The write check passes (R572). -/
theorem probeWrite_ok {s : State} {k : SReg} {off : BitVec 32} {n al : Nat}
    (h : s.reaches k off n true al = true) : probeWrite k off n al s = .ok () s := by
  unfold probeWrite; exact probe_ok h

/-- An operand is read. -/
theorem readRM_ok {s : State} {w : Width} {rm : RM} (h : s.rmReads w rm = true) :
    readRM w rm s = .ok (s.rmVal w rm) s := by
  cases rm with
  | reg r => rfl
  | mem m => unfold readRM; simp only [M.bind_run, getS_run]; exact segReadV_ok h

/-- An operand is written. -/
theorem writeRM_ok {s : State} {w : Width} {rm : RM} (v : Val w) (h : s.rmWrites w rm = true) :
    writeRM w rm v s = .ok () (s.rmPut w rm v) := by
  cases rm with
  | reg r => rfl
  | mem m => unfold writeRM; simp only [M.bind_run, getS_run]; exact segWriteV_ok v h

/-- A push stores below the stack pointer and moves it (R112). -/
theorem push_ok {s : State} {w : Width} (v : Val w) (h : s.pushes w = true) : push w v s = .ok () (s.pushed w v) := by
  simp only [State.pushes, Bool.and_eq_true, Bool.not_eq_true', Bool.and_eq_false_iff] at h
  unfold push
  simp only [M.bind_run, getS_run]
  split
  · rename_i hc; simp_all
  · have hw := segWriteV_ok v h.2
    unfold State.pushOff at hw
    simp only [M.bind_run, hw]
    unfold setSp State.pushed State.pushOff
    simp only [updS_run]
    have hg : ∀ (x : BitVec 32) (lin : BitVec 32) (bs : List Byte),
        (s.putBytes lin bs).gprWithSp x = s.gprWithSp x := by
      intro x lin bs; unfold State.gprWithSp State.stack32; simp
    unfold State.memPut
    rw [hg]

/-- A pop reads at the stack pointer and moves it (R112). -/
theorem pop_ok {s : State} {w : Width} (h : s.pops w = true) : pop w s = .ok (s.popVal w) (s.popped w) := by
  unfold pop
  simp only [M.bind_run, getS_run, segReadV_ok h, setSp, updS_run, M.pure_run]; rfl

/-- An item above the top is read without popping. -/
theorem peek_ok {s : State} {w : Width} {k : Nat}
    (h : s.reaches .ss (s.spAdd (BitVec.ofNat 32 k)) w.bytes false w.bytes = true) :
    peek w k s = .ok (s.memVal w .ss (s.spAdd (BitVec.ofNat 32 k))) s := by
  unfold peek
  simp only [M.bind_run, getS_run]; exact segReadV_ok h

/-! What an access depends on: two states that agree on it reach the same operands. -/

/-- The parts of the state that decide an access: the parameters, the segment and system registers, and the flags VM
and AC. -/
structure SameAccess (s t : State) : Prop where
  cfg : t.cfg = s.cfg
  segs : t.segs = s.segs
  sys : t.sys = s.sys
  vm : t.flags.vm = s.flags.vm
  ac : t.flags.ac = s.flags.ac

theorem SameAccess.has386 {s t : State} (h : SameAccess s t) : t.has386 = s.has386 := by
  unfold State.has386; rw [h.cfg]

theorem SameAccess.has486 {s t : State} (h : SameAccess s t) : t.has486 = s.has486 := by
  unfold State.has486; rw [h.cfg]

theorem SameAccess.paging {s t : State} (h : SameAccess s t) : t.paging = s.paging := by
  unfold State.paging; rw [h.has386, h.sys]

theorem SameAccess.protMode {s t : State} (h : SameAccess s t) : t.protMode = s.protMode := by
  unfold State.protMode; rw [h.vm, h.sys]

theorem SameAccess.cpl {s t : State} (h : SameAccess s t) : t.cpl = s.cpl := by
  simp only [State.cpl, h.vm, h.sys]

theorem SameAccess.flat {s t : State} (h : SameAccess s t) (lin : BitVec 32) : t.flat lin = s.flat lin := by
  unfold State.flat; rw [h.cfg]

theorem SameAccess.plain {s t : State} (h : SameAccess s t) (lin : BitVec 32) (n : Nat) :
    t.plain lin n = s.plain lin n := by
  induction n generalizing lin with
  | zero => simp only [State.plain, h.paging]
  | succ n ih => simp only [State.plain, ih, h.flat, h.cfg]

theorem SameAccess.linOf {s t : State} (h : SameAccess s t) (k : SReg) (off : BitVec 32) :
    t.linOf k off = s.linOf k off := by
  simp only [State.linOf, State.linear, h.has386, h.segs]

theorem SameAccess.reaches {s t : State} (h : SameAccess s t) (k : SReg) (off : BitVec 32) (n : Nat) (w : Bool)
    (al : Nat) : t.reaches k off n w al = s.reaches k off n w al := by
  simp only [State.reaches, h.plain, h.linOf, State.allows, h.protMode, State.aligned, h.has486, h.cpl, h.segs, h.sys,
    h.ac]

/-- With the same registers and prefixes an operand is the same operand. -/
theorem SameAccess.rmWrites {s t : State} (h : SameAccess s t) (hg : t.gpr = s.gpr) (hc : t.cur = s.cur) (w : Width)
    (rm : RM) : t.rmWrites w rm = s.rmWrites w rm := by
  cases rm with
  | reg r => rfl
  | mem m =>
    simp only [State.rmWrites, h.reaches, State.memSeg, hc]
    congr 1
    cases m <;> simp only [State.ea, State.base16, State.scaled, State.reg, hg]

theorem SameAccess.rmReads {s t : State} (h : SameAccess s t) (hg : t.gpr = s.gpr) (hc : t.cur = s.cur) (w : Width)
    (rm : RM) : t.rmReads w rm = s.rmReads w rm := by
  cases rm with
  | reg r => rfl
  | mem m =>
    simp only [State.rmReads, h.reaches, State.memSeg, hc]
    congr 1
    cases m <;> simp only [State.ea, State.base16, State.scaled, State.reg, hg]

/-- Drawing undefined values changes no access. -/
theorem sameAccess_draws (s : State) (n : Nat) : SameAccess s (s.setDraws n) := ⟨rfl, rfl, rfl, rfl, rfl⟩

/-- Storing bytes changes no access. -/
theorem sameAccess_putBytes (s : State) (lin : BitVec 32) (bs : List Byte) : SameAccess s (s.putBytes lin bs) := by
  constructor <;> simp

/-- Flags with the same VM and AC change no access. -/
theorem sameAccess_flags (s : State) (f : Flags) (h1 : f.vm = s.flags.vm) (h2 : f.ac = s.flags.ac) :
    SameAccess s (s.setFlags f) := ⟨rfl, rfl, rfl, h1, h2⟩

/-- Writing a general register changes no access. -/
theorem sameAccess_gpr (s : State) (g : Oct (BitVec 32)) : SameAccess s (s.setGpr g) := ⟨rfl, rfl, rfl, rfl, rfl⟩

/-- An access that does not read a changed part stays the same. -/
theorem SameAccess.trans {s t u : State} (h : SameAccess s t) (k : SameAccess t u) : SameAccess s u :=
  ⟨k.cfg.trans h.cfg, k.segs.trans h.segs, k.sys.trans h.sys, k.vm.trans h.vm, k.ac.trans h.ac⟩

/-- A 32-bit value from its halves. -/
theorem bv_halves (x : BitVec 32) : x.extractLsb' 16 16 ++ x.extractLsb' 0 16 = x := by
  apply BitVec.eq_of_getLsbD_eq; intro i hi
  rw [BitVec.getLsbD_append]
  simp only [BitVec.getLsbD_extractLsb']
  split
  · simp_all
  · rw [show 16 + (i - 16) = i by omega]; simp; intro; omega

/-- A 32-bit value from its low byte and the rest. -/
theorem bv_low (x : BitVec 32) : x.extractLsb' 8 24 ++ x.extractLsb' 0 8 = x := by
  apply BitVec.eq_of_getLsbD_eq; intro i hi
  rw [BitVec.getLsbD_append]
  simp only [BitVec.getLsbD_extractLsb']
  split
  · simp_all
  · rw [show 8 + (i - 8) = i by omega]; simp; intro; omega

/-- A 32-bit value from its second byte and the rest. -/
theorem bv_high (x : BitVec 32) : x.extractLsb' 16 16 ++ x.extractLsb' 8 8 ++ x.extractLsb' 0 8 = x := by
  apply BitVec.eq_of_getLsbD_eq; intro i hi
  rw [BitVec.getLsbD_append, BitVec.getLsbD_append]
  simp only [BitVec.getLsbD_extractLsb']
  by_cases h1 : i < 8
  · simp [h1]
  · by_cases h2 : i < 16
    · have h3 : i - 8 < 8 := by omega
      simp [h1, h3, show 8 + (i - 8) = i by omega]
    · have h3 : ¬ i - 8 < 8 := by omega
      simp [h1, h3, show 16 + (i - 8 - 8) = i by omega, show i - 8 - 8 < 16 by omega]

/-- A register keeps its value when it is written with it. -/
theorem regPut_self (s : State) (w : Width) (r : RegNum) : s.regPut w r (s.reg w r) = s := by
  unfold State.regPut State.reg
  have h : regWrite s.gpr w r (regRead s.gpr w r) = s.gpr := by
    apply Oct.ext_get
    intro j
    cases w <;> simp only [regWrite, regRead]
    · split
      · by_cases hj : j = r - 4#3
        · subst hj; rw [Oct.get_set_self]; exact bv_high _
        · rw [Oct.get_set_ne _ _ hj]
      · by_cases hj : j = r
        · subst hj; rw [Oct.get_set_self]; exact bv_low _
        · rw [Oct.get_set_ne _ _ hj]
    · by_cases hj : j = r
      · subst hj; rw [Oct.get_set_self]; exact bv_halves _
      · rw [Oct.get_set_ne _ _ hj]
    · by_cases hj : j = r
      · subst hj; rw [Oct.get_set_self]
      · rw [Oct.get_set_ne _ _ hj]
  rw [h]; rfl

end Sys2Proof.Machine
end

