-- ==== Sys2Proof/Laws/Ops.lean ====
section
/-! SUPPORT. The shared operations over the stack, segment registers and pointers: one lemma each that says what it
does where it goes through. -/

namespace Sys2Proof.Machine

/-- The stack pointer reads the same where the registers and SS are the same. -/
theorem SameAccess.spAdd {s t : State} (h : SameAccess s t) (hg : t.gpr = s.gpr) (d : BitVec 32) :
    t.spAdd d = s.spAdd d := by
  simp only [State.spAdd, State.sp, State.stack32, State.reg, h.segs, hg]

theorem SameAccess.sp {s t : State} (h : SameAccess s t) (hg : t.gpr = s.gpr) : t.sp = s.sp := by
  simp only [State.sp, State.stack32, State.reg, h.segs, hg]

theorem SameAccess.pushes {s t : State} (h : SameAccess s t) (hg : t.gpr = s.gpr) (w : Width) :
    t.pushes w = s.pushes w := by
  simp only [State.pushes, h.reaches, State.pushOff, h.spAdd hg, h.sp hg, h.cfg, h.sys]

theorem SameAccess.pops {s t : State} (h : SameAccess s t) (hg : t.gpr = s.gpr) (w : Width) :
    t.pops w = s.pops w := by
  simp only [State.pops, h.reaches, h.sp hg]

@[simp] theorem selItem_16 (sel : BitVec 16) (s : State) : selItem .w16 sel s = .ok sel s := rfl

@[simp] theorem selItem_32 (sel : BitVec 16) (s : State) :
    selItem .w32 sel s = .ok (Config.freeWord s.draws ++ sel) (s.setDraws (s.draws + 1)) := rfl

/-- Loading a segment register in real-address and virtual-8086 mode (R27, R91). -/
theorem loadSeg_real {s : State} (k : SReg) (sel : BitVec 16) (h : s.protMode = false) :
    loadSeg k sel s = .ok () (s.setSegs (s.segs.put k ((s.segs.get k).toReal sel))) := by
  unfold loadSeg; simp [h]

/-- A far pointer in memory is read (R76). -/
theorem readFarPtr_ok {s : State} {m : MemOp}
    (h1 : s.reaches (s.memSeg m) (s.ea m) s.os.width.bytes false s.os.width.bytes = true)
    (h2 : s.reaches (s.memSeg m) (s.ea m + BitVec.ofNat 32 s.os.width.bytes) 2 false 2 = true) :
    readFarPtr m s = .ok (s.memVal .w16 (s.memSeg m) (s.ea m + BitVec.ofNat 32 s.os.width.bytes),
      (s.memVal s.os.width (s.memSeg m) (s.ea m)).setWidth 32) s := by
  unfold readFarPtr
  simp only [M.bind_run, getS_run, segReadV_ok h1]
  rw [segReadV_ok (w := .w16) h2]
  rfl

/-- A pointer load in real-address and virtual-8086 mode (R230 to R234). -/
theorem loadPointer_real {s : State} {k : SReg} {reg : RegNum} {m : MemOp} (hp : s.protMode = false)
    (h1 : s.reaches (s.memSeg m) (s.ea m) s.os.width.bytes false s.os.width.bytes = true)
    (h2 : s.reaches (s.memSeg m) (s.ea m + BitVec.ofNat 32 s.os.width.bytes) 2 false 2 = true) :
    loadPointer k reg m s = .ok () ((s.setSegs (s.segs.put k ((s.segs.get k).toReal
      (s.memVal .w16 (s.memSeg m) (s.ea m + BitVec.ofNat 32 s.os.width.bytes))))).regPut s.os.width reg
        (s.memVal s.os.width (s.memSeg m) (s.ea m))) := by
  unfold loadPointer
  simp only [M.bind_run, getS_run, readFarPtr_ok h1 h2, loadSeg_real _ _ hp, setReg_run]
  unfold State.regPut
  congr 3
  rcases s.os with _ | _ <;> (apply BitVec.eq_of_toNat_eq; simp [Width.bits]; try omega)

/-- Pops one after another: the n-th succeeds from the state after the pops before it. -/
theorem popsTimes_pops {s : State} {w : Width} {n k : Nat} (h : s.popsTimes w n = true) (hk : k < n) :
    (s.poppedTimes w k).pops w = true := by
  induction n with
  | zero => omega
  | succ n ih =>
    simp only [State.popsTimes, Bool.and_eq_true] at h
    by_cases he : k = n
    · rw [he]; exact h.2
    · exact ih h.1 (by omega)

end Sys2Proof.Machine
end

