-- ==== Sys2Proof/Laws/Entry.lean ====
section
/-! SUPPORT. What pushing several items does, what a coprocessor instruction does where a coprocessor is fitted and
where none is, what drawing undefined bytes changes, that a shutdown guard passes on what goes through, and how one
round of delivering an event ends. -/

namespace Sys2Proof.Machine

/-- Several pushes in order, each of which goes through. -/
theorem pushAll_ok {w : Width} {vs : List (Val w)} {s : State} (h : s.pushesAll w vs = true) :
    pushAll w vs s = .ok () (s.pushedAll w vs) := by
  induction vs generalizing s with
  | nil => rfl
  | cons v vs ih =>
    simp only [State.pushesAll, Bool.and_eq_true] at h
    unfold pushAll
    simp only [M.bind_run, push_ok v h.1]
    exact ih h.2

/-- A coprocessor is fitted, and no `#NM` (R424). -/
theorem whenFitted_fitted {s : State} (u m : M Unit) (he : s.sys.cr0.em = false) (ht : s.sys.cr0.ts = false)
    (hn : s.cfg.npx ≠ .absent) : whenFitted u m s = m s := by
  unfold whenFitted npxGate
  simp [he, ht, hn]

/-- No coprocessor is fitted, and no `#NM` (R424, U13). -/
theorem whenFitted_missing {s : State} (u m : M Unit) (he : s.sys.cr0.em = false) (ht : s.sys.cr0.ts = false)
    (hn : s.cfg.npx = .absent) : whenFitted u m s = u s := by
  unfold whenFitted npxGate
  simp [he, ht, hn]

/-- `#NM` comes before everything else (R424, R642). -/
theorem whenFitted_nm {s : State} (u m : M Unit) (h : s.sys.cr0.em = true ∨ s.sys.cr0.ts = true) :
    whenFitted u m s = .error (.exc ⟨7#8, none⟩) s := by
  unfold whenFitted npxGate raiseNM
  rcases h with h | h <;> simp [h]

/-- Undefined bytes, as many as are asked for; only the counter moves. -/
theorem drawBytes_ok (n : Nat) (s : State) :
    ∃ bs : List Byte, bs.length = n ∧ drawBytes n s = .ok bs (s.setDraws (s.draws + n)) := by
  induction n generalizing s with
  | zero => exact ⟨[], rfl, rfl⟩
  | succ n ih =>
    obtain ⟨bs, hl, hb⟩ := ih (s.setDraws (s.draws + 1))
    refine ⟨Config.freeByte s.draws :: bs, by simp [hl], ?_⟩
    unfold drawBytes
    simp only [M.bind_run, drawByte_run, hb, M.pure_run]
    rw [show (s.setDraws (s.draws + 1)).draws + n = s.draws + (n + 1) from by
      show s.draws + 1 + n = s.draws + (n + 1); omega]
    rfl

/-- What goes through is not changed by `orShutdown` (R610). -/
theorem orShutdown_ok {α : Type} {m : M α} {s t : State} {a : α} (h : m s = .ok a t) : orShutdown m s = .ok a t := by
  unfold orShutdown; rw [h]

/-! One round of delivery (R604). -/

@[simp] theorem unblockNmi_run (s : State) : unblockNmi s = .ok () (s.setCtl s.ctl.afterIret) := rfl
@[simp] theorem Ctl.afterIret_nmiBlocked (c : Ctl) : c.afterIret.nmiBlocked = false := rfl
@[simp] theorem Ctl.afterIret_nmiPending (c : Ctl) : c.afterIret.nmiPending = c.nmiPending := rfl
@[simp] theorem Ctl.afterIret_dbPending (c : Ctl) : c.afterIret.dbPending = (c.dbPending || c.trapHeld) := rfl
@[simp] theorem Ctl.afterIret_trapHeld (c : Ctl) : c.afterIret.trapHeld = false := rfl

/-- An event that is entered is delivered. -/
theorem deliverWithin_ok {n : Nat} {e : Event} {s t : State} (h : enter e s = .ok () t) :
    deliverWithin (n + 1) e s = .next t := by
  unfold deliverWithin; rw [h]

/-- An exception that arises while another event than the double fault is entered is delivered, and the first recurs. -/
theorem deliverWithin_exc {n : Nat} {e : Event} {s t : State} {x : Exc} (h : enter e s = .error (.exc x) t)
    (hd : (e.isException && e.vector == 8#8) = false) :
    deliverWithin (n + 1) e s = deliverWithin n (nextEvent e x s.eip) ((restore s t).recurring e) := by
  conv_lhs => unfold deliverWithin
  rw [h]; simp only [hd]; rfl

/-- Only the boundary's state and the stream of requests know that an event recurs (R604). -/
theorem recurring_eq (s : State) (e : Event) :
    s.recurring e = (s.setCtl (s.recurring e).ctl).setEnv (s.recurring e).env := by
  cases s; cases e with
  | mk v k r c => cases k <;> rfl

end Sys2Proof.Machine
end

