-- ==== Sys2Proof/Laws/Flags.lean ====
section
/-! SUPPORT. The flag operations: one equation each. -/

namespace Sys2Proof.Machine

/-- The state with flags replaced and values drawn reaches the same operands. -/
theorem sameAccess_flagged (s : State) (f : Flags) (n : Nat) (h1 : f.vm = s.flags.vm) (h2 : f.ac = s.flags.ac) :
    SameAccess s (s.flagged f n) := ⟨rfl, rfl, rfl, h1, h2⟩

/-- A two-operand operation: the result, and the flags (R260 to R313). -/
theorem aluCompute_run (op : AluOp) {n : Nat} (a b : BitVec n) (s : State) :
    let o := op.out a b s.flags.cf (if op.logic then Config.freeBit s.draws else false)
    aluCompute op a b s = .ok o.r (s.flagged (s.flags.status o) (if op.logic then 1 else 0)) := by
  cases op <;> rfl

/-- Flags with the status flags of `f` replaced keep the control flags. -/
theorem sameControl_iff (f g : Flags) : f.sameControl g = true ↔
    f.tf = g.tf ∧ f.ie = g.ie ∧ f.df = g.df ∧ f.iopl = g.iopl ∧ f.nt = g.nt ∧ f.rf = g.rf ∧ f.vm = g.vm ∧
      f.ac = g.ac := by
  simp [Flags.sameControl, and_assoc]

/-- Six draws one after another are one draw of six. -/
theorem undefStatus_eq (s : State) : undefStatus s = .ok () (s.flagged { s.flags with
    cf := Config.freeBit s.draws, pf := Config.freeBit (s.draws + 1), af := Config.freeBit (s.draws + 2)
    zf := Config.freeBit (s.draws + 3), sf := Config.freeBit (s.draws + 4), ovf := Config.freeBit (s.draws + 5) }
    6) := by
  simp [undefStatus, State.flagged, State.setDraws, State.setFlags, Nat.add_assoc]

/-- All six status flags undefined (R277): six draws. -/
theorem undefStatus_run (s : State) : ∃ f : Flags, f.sameControl s.flags = true ∧
    undefStatus s = .ok () (s.flagged f 6) := by
  refine ⟨_, ?_, undefStatus_eq s⟩
  rw [sameControl_iff]; exact ⟨rfl, rfl, rfl, rfl, rfl, rfl, rfl, rfl⟩

/-- The flags of the multiplications (R273): CF and OF given, four draws. -/
theorem mulFlags_run (c : Bool) (s : State) : ∃ f : Flags, f.sameControl s.flags = true ∧ f.cf = c ∧ f.ovf = c ∧
    mulFlags c s = .ok () (s.flagged f 4) := by
  refine ⟨{ s.flags with
    cf := c, pf := Config.freeBit s.draws, af := Config.freeBit (s.draws + 1)
    zf := Config.freeBit (s.draws + 2), sf := Config.freeBit (s.draws + 3), ovf := c }, ?_, rfl, rfl, rfl⟩
  rw [sameControl_iff]; exact ⟨rfl, rfl, rfl, rfl, rfl, rfl, rfl, rfl⟩

/-- The flags of AAD and AAM (R279, R280): three draws. -/
theorem asciiFlags_run (al : BitVec 8) (s : State) : ∃ f : Flags, f.sameControl s.flags = true ∧ f.zf = zfOf al ∧
    f.sf = sfOf al ∧ f.pf = pfOf al ∧ asciiFlags al s = .ok () (s.flagged f 3) := by
  refine ⟨{ s.flags.zsp al with
    cf := Config.freeBit s.draws, af := Config.freeBit (s.draws + 1), ovf := Config.freeBit (s.draws + 2) },
    ?_, rfl, rfl, rfl, rfl⟩
  rw [sameControl_iff]; exact ⟨rfl, rfl, rfl, rfl, rfl, rfl, rfl, rfl⟩

/-- The flags and the result of a shift or rotate by a count that is not 0 (R300). -/
theorem shiftCompute_run (op : ShiftOp) {n : Nat} (a : BitVec n) (c : Nat) (s : State) :
    ∃ (f : Flags) (k : Nat), f.sameControl s.flags = true ∧
      (∀ b, (op.out a c s.flags.cf).cf = some b → f.cf = b) ∧ (c = 1 → f.ovf = (op.out a c s.flags.cf).ovf) ∧
      (op.isShift = true → f.zf = zfOf (op.out a c s.flags.cf).r ∧ f.sf = sfOf (op.out a c s.flags.cf).r ∧
        f.pf = pfOf (op.out a c s.flags.cf).r) ∧
      (op.isShift = false → f.zf = s.flags.zf ∧ f.sf = s.flags.sf ∧ f.pf = s.flags.pf ∧ f.af = s.flags.af) ∧
      shiftCompute op a c s = .ok (op.out a c s.flags.cf).r (s.flagged f k) := by
  have hd : ∀ (u v : Bool) (t : State), ∃ (b : Bool) (j : Nat), (u = false → b = v) ∧
      drawIf u v t = .ok b (t.setDraws (t.draws + j)) := by
    intro u v t
    cases u with
    | false => exact ⟨v, 0, fun _ => rfl, rfl⟩
    | true => exact ⟨Config.freeBit t.draws, 1, (fun h => by cases h), rfl⟩
  unfold shiftCompute
  simp only [M.bind_run, getS_run]
  generalize op.out a c s.flags.cf = o
  obtain ⟨cf, j1, h1, e1⟩ := hd o.cf.isNone (o.cf.getD false) s
  obtain ⟨ov, j2, h2, e2⟩ := hd (c != 1) o.ovf (s.setDraws (s.draws + j1))
  obtain ⟨af, j3, h3, e3⟩ := hd op.isShift s.flags.af
    ((s.setDraws (s.draws + j1)).setDraws ((s.setDraws (s.draws + j1)).draws + j2))
  simp only [e1, e2, e3, updFlags_run, M.pure_run]
  refine ⟨if op.isShift then { s.flags with cf := cf, ovf := ov, af := af }.zsp o.r
    else { s.flags with cf := cf, ovf := ov, af := af }, j1 + j2 + j3, ?_, ?_, ?_, ?_, ?_, ?_⟩
  · rw [sameControl_iff]; cases op.isShift <;> exact ⟨rfl, rfl, rfl, rfl, rfl, rfl, rfl, rfl⟩
  · intro b hb
    have : cf = b := by rw [h1 (by rw [hb]; rfl), hb]; rfl
    cases op.isShift <;> exact this
  · intro hc
    have : ov = o.ovf := h2 (by simp [hc])
    cases op.isShift <;> exact this
  · intro hs; simp only [hs, if_true]; exact ⟨rfl, rfl, rfl⟩
  · intro hs; simp only [hs, Bool.false_eq_true, if_false, true_and]; exact h3 hs
  · simp only [State.flagged, ← Nat.add_assoc]; rfl

end Sys2Proof.Machine
end

