-- ==== Sys2Proof/Laws/Keeps.lean ====
section
/-! SUPPORT. Relations that a computation keeps between the state before it and the state after it, however it ends:
one rule for each way of building a computation, one lemma for each shared operation over memory, operands and the
stack, and what follows for delivering an event and for an instruction. -/

namespace Sys2Proof.Machine

variable {α β : Type}

/-- From state `s` a computation keeps a relation. -/
def KeepsAt (R : State → State → Prop) (m : M α) (s : State) : Prop :=
  (∀ a t, m s = .ok a t → R s t) ∧ (∀ e t, m s = .error e t → R s t)

/-- From every state a computation keeps a relation. -/
def Keeps (R : State → State → Prop) (m : M α) : Prop := ∀ s, KeepsAt R m s

/-- A relation that every access to memory, every undefined value and every register write keeps. -/
structure Closed (R : State → State → Prop) : Prop where
  refl : ∀ s, R s s
  trans : ∀ s t u, R s t → R t u → R s u
  draws : ∀ s n, R s (s.setDraws n)
  env : ∀ s v, R s (s.setEnv v)
  store : ∀ s a v, R s (s.storeByte (busAddr s.cfg a) v)
  tlb : ∀ s v, R s (s.setTlb v)
  cr2 : ∀ s v, R s (s.setSys { s.sys with cr2 := v })
  gpr : ∀ s v, R s (s.setGpr v)

variable {R : State → State → Prop}

theorem KeepsAt.ok {m : M α} {s : State} {a : α} {t : State} (h : m s = .ok a t) (hr : R s t) : KeepsAt R m s := by
  constructor
  · intro b u hb; rw [h] at hb; cases hb; exact hr
  · intro e u he; rw [h] at he; cases he

theorem KeepsAt.error {m : M α} {s : State} {e : Stop} {t : State} (h : m s = .error e t) (hr : R s t) :
    KeepsAt R m s := by
  constructor
  · intro b u hb; rw [h] at hb; cases hb
  · intro e u he; rw [h] at he; cases he; exact hr

theorem Keeps.pure (h : Closed R) (a : α) : Keeps R (pure a : M α) := fun s => .ok rfl (h.refl s)

theorem Keeps.getS (h : Closed R) : Keeps R getS := fun s => .ok rfl (h.refl s)

theorem Keeps.throw (h : Closed R) (e : Stop) : Keeps R (throw e : M α) := fun s => .error rfl (h.refl s)

theorem Keeps.raise (h : Closed R) (v : BitVec 8) (c : Option (BitVec 16)) : Keeps R (raiseExc v c : M α) :=
  fun s => .error rfl (h.refl s)

theorem Keeps.refuse (h : Closed R) (r : Refusal) : Keeps R (refuse r : M α) := fun s => .error rfl (h.refl s)

theorem Keeps.upd {f : State → State} (h : ∀ s, R s (f s)) : Keeps R (updS f) := fun s => .ok rfl (h s)

theorem KeepsAt.upd {f : State → State} {s : State} (h : R s (f s)) : KeepsAt R (updS f) s := .ok rfl h

/-- A bind keeps the relation when its first part does and, from each state that part can reach, its second. -/
theorem KeepsAt.bind (hc : Closed R) {m : M α} {f : α → M β} {s : State} (h : KeepsAt R m s)
    (hf : ∀ a t, m s = .ok a t → KeepsAt R (f a) t) : KeepsAt R (m >>= f) s := by
  cases hm : m s with
  | ok a t =>
    have hst := h.1 a t hm
    have hk := hf a t hm
    constructor
    · intro b u hb
      rw [M.bind_run, hm] at hb
      exact hc.trans _ _ _ hst (hk.1 b u hb)
    · intro e u he
      rw [M.bind_run, hm] at he
      exact hc.trans _ _ _ hst (hk.2 e u he)
  | error e t => exact .error (by rw [M.bind_run, hm]) (h.2 e t hm)

theorem Keeps.bind (hc : Closed R) {m : M α} {f : α → M β} (h : Keeps R m) (hf : ∀ a, Keeps R (f a)) :
    Keeps R (m >>= f) := fun s => (h s).bind hc (fun a t _ => hf a t)

/-- Reading the state first: what follows runs from that state. -/
theorem KeepsAt.get (hc : Closed R) {f : State → M β} {s : State} (h : KeepsAt R (f s) s) :
    KeepsAt R (Sys2Proof.Machine.getS >>= f) s := by
  apply (Keeps.getS hc s).bind hc
  intro a t he
  cases he; exact h

theorem Keeps.get (hc : Closed R) {f : State → M β} (h : ∀ s, KeepsAt R (f s) s) :
    Keeps R (Sys2Proof.Machine.getS >>= f) := fun s => .get hc (h s)

theorem Keeps.ite {c : Prop} [Decidable c] {a b : M α} (ha : Keeps R a) (hb : Keeps R b) :
    Keeps R (if c then a else b) := by split <;> assumption

theorem KeepsAt.ite {c : Prop} [Decidable c] {a b : M α} {s : State} (ha : c → KeepsAt R a s)
    (hb : ¬ c → KeepsAt R b s) : KeepsAt R (if c then a else b) s := by
  split
  · rename_i h; exact ha h
  · rename_i h; exact hb h

/-! Undefined values, registers. -/

theorem Keeps.drawBit (h : Closed R) : Keeps R drawBit := fun s => .ok rfl (h.draws s _)
theorem Keeps.drawByte (h : Closed R) : Keeps R drawByte := fun s => .ok rfl (h.draws s _)
theorem Keeps.drawWord (h : Closed R) : Keeps R drawWord := fun s => .ok rfl (h.draws s _)
theorem Keeps.drawDword (h : Closed R) : Keeps R drawDword := fun s => .ok rfl (h.draws s _)
theorem Keeps.drawTemp (h : Closed R) : Keeps R drawTemp := fun s => .ok rfl (h.draws s _)

theorem Keeps.setReg (h : Closed R) (w : Width) (i : RegNum) (v : Val w) : Keeps R (setReg w i v) :=
  fun s => .ok rfl (h.gpr s _)

theorem Keeps.getReg (h : Closed R) (w : Width) (i : RegNum) : Keeps R (getReg w i) := fun s => .ok rfl (h.refl s)

theorem Keeps.setSp (h : Closed R) (v : BitVec 32) : Keeps R (setSp v) := fun s => .ok rfl (h.gpr s _)

/-! Physical memory and paging (R71, R101). -/

theorem Keeps.physRead (h : Closed R) (a : Nat) : Keeps R (physRead a) := by
  intro s
  constructor <;> intro b t hb <;> simp only [Machine.physRead] at hb <;> split at hb <;> cases hb
  · exact h.refl s
  · exact h.refl s
  · exact h.draws s _
  · exact h.env s _

theorem Keeps.physWrite (h : Closed R) (a : Nat) (v : Byte) : Keeps R (physWrite a v) := by
  intro s
  constructor <;> intro b t hb <;> simp only [Machine.physWrite] at hb <;> split at hb <;> cases hb
  · exact h.store s _ _
  · exact h.refl s
  · exact h.refl s
  · exact h.env s _

theorem Keeps.physReadAll (h : Closed R) (l : List Nat) : Keeps R (physReadAll l) := by
  induction l with
  | nil => exact .pure h _
  | cons a l ih =>
    unfold Machine.physReadAll
    exact .bind h (.physRead h a) fun _ => .bind h ih fun _ => .pure h _

theorem Keeps.physWriteAll (h : Closed R) (l : List Nat) (bs : List Byte) : Keeps R (physWriteAll l bs) := by
  induction l generalizing bs with
  | nil => unfold Machine.physWriteAll; exact .pure h _
  | cons a l ih =>
    cases bs with
    | nil => unfold Machine.physWriteAll; exact .pure h _
    | cons b bs =>
      unfold Machine.physWriteAll
      exact .bind h (.physWrite h a b) fun _ => ih bs

theorem Keeps.pageFault (h : Closed R) (lin : BitVec 32) (p w u : Bool) : Keeps R (pageFault lin p w u : M α) := by
  unfold Machine.pageFault
  exact .bind h (fun s => .ok rfl (h.cr2 s lin)) fun _ => .raise h _ _

theorem Keeps.walk (h : Closed R) (lin : BitVec 32) (w u : Bool) : Keeps R (walk lin w u) := by
  unfold Machine.walk physRead32 physWrite32
  refine .get h fun s => Keeps.bind h (.bind h (.physReadAll h _) fun _ => .pure h _) ?_ s
  intro pde
  refine .ite (.pageFault h _ _ _ _) (.bind h (.bind h (.physReadAll h _) fun _ => .pure h _) fun pte => ?_)
  refine .ite (.pageFault h _ _ _ _) (.ite (.pageFault h _ _ _ _) ?_)
  refine .bind h (.ite (.pure h _) (.physWriteAll h _ _)) fun _ => ?_
  refine .bind h (.ite (.pure h _) (.physWriteAll h _ _)) fun _ => ?_
  exact .bind h (.upd fun s => h.tlb s _) fun _ => .pure h _

theorem Keeps.sampleEvict (h : Closed R) : Keeps R sampleEvict := by
  intro s
  cases he : s.env.tlbEvict with
  | nil => exact .ok (by unfold Machine.sampleEvict; rw [he]) (h.refl s)
  | cons b l => exact .ok (by unfold Machine.sampleEvict; rw [he]) (h.env s _)

theorem Keeps.translate (h : Closed R) (lin : BitVec 32) (w u : Bool) : Keeps R (translate lin w u) := by
  unfold Machine.translate
  refine .get h fun s => ?_
  dsimp only
  split
  · exact Keeps.bind h (.walk h _ _ _) (fun _ => .pure h _) s
  · refine Keeps.bind h (.sampleEvict h) (fun d => ?_) s
    refine .ite (.pageFault h _ _ _ _) (.ite ?_ (.pure h _))
    exact .bind h (.upd fun s => h.tlb s _) fun _ => .bind h (.walk h _ _ _) fun _ => .pure h _

theorem Keeps.linAddrs (h : Closed R) (lin : BitVec 32) (n : Nat) (w u : Bool) : Keeps R (linAddrs lin n w u) := by
  unfold Machine.linAddrs
  refine .get h fun s => ?_
  refine Keeps.ite (.pure h _) (.bind h (.translate h _ _ _) fun p => ?_) s
  exact .ite (.pure h _) (.bind h (.translate h _ _ _) fun _ => .pure h _)

theorem Keeps.linRead (h : Closed R) (lin : BitVec 32) (n : Nat) (u : Bool) : Keeps R (linRead lin n u) :=
  .bind h (.linAddrs h _ _ _ _) fun _ => .physReadAll h _

theorem Keeps.linWrite (h : Closed R) (lin : BitVec 32) (bs : List Byte) (u : Bool) : Keeps R (linWrite lin bs u) :=
  .bind h (.linAddrs h _ _ _ _) fun _ => .physWriteAll h _ _

theorem Keeps.sysRead (h : Closed R) (lin : BitVec 32) (n : Nat) : Keeps R (sysRead lin n) := .linRead h _ _ _

theorem Keeps.sysWrite (h : Closed R) (lin : BitVec 32) (bs : List Byte) : Keeps R (sysWrite lin bs) :=
  .linWrite h _ _ _

/-! Segments, operands, the stack (R90, R112). -/

theorem Keeps.segFault (h : Closed R) (k : SReg) : Keeps R (segFault k : M α) := by
  cases k <;> exact .raise h _ _

theorem Keeps.segCheck (h : Closed R) (k : SReg) (off : BitVec 32) (n : Nat) (w : Bool) :
    Keeps R (segCheck k off n w) := by
  unfold Machine.segCheck
  refine .get h fun s => ?_
  dsimp only
  exact Keeps.ite (.segFault h k) (.ite (.raise h _ _) (.ite (.raise h _ _) (.ite (.segFault h k) (.pure h _)))) s

theorem Keeps.alignCheck (h : Closed R) (lin : BitVec 32) (al : Nat) : Keeps R (alignCheck lin al) :=
  .get h fun s => Keeps.ite (.raise h _ _) (.pure h _) s

theorem Keeps.pageCheck (h : Closed R) (lin : BitVec 32) (n : Nat) (w : Bool) (al : Nat) :
    Keeps R (pageCheck lin n w al) :=
  .get h fun s => Keeps.bind h (.linAddrs h _ _ _ _) (fun _ => .bind h (.alignCheck h _ _) fun _ => .pure h _) s

theorem Keeps.segAddrs (h : Closed R) (k : SReg) (off : BitVec 32) (n : Nat) (w : Bool) (al : Nat) :
    Keeps R (segAddrs k off n w al) :=
  .bind h (.segCheck h _ _ _ _) fun _ => .pageCheck h _ _ _ _

theorem Keeps.segRead (h : Closed R) (k : SReg) (off : BitVec 32) (n al : Nat) : Keeps R (segRead k off n al) :=
  .bind h (.segAddrs h _ _ _ _ _) fun _ => .physReadAll h _

theorem Keeps.segWrite (h : Closed R) (k : SReg) (off : BitVec 32) (bs : List Byte) (al : Nat) :
    Keeps R (segWrite k off bs al) :=
  .bind h (.segAddrs h _ _ _ _ _) fun _ => .physWriteAll h _ _

theorem Keeps.probe (h : Closed R) (k : SReg) (off : BitVec 32) (n : Nat) (w : Bool) (al : Nat) :
    Keeps R (probe k off n w al) :=
  .bind h (.segAddrs h _ _ _ _ _) fun _ => .pure h _

theorem Keeps.segReadV (h : Closed R) (w : Width) (k : SReg) (off : BitVec 32) : Keeps R (segReadV w k off) :=
  .bind h (.segRead h _ _ _ _) fun _ => .pure h _

theorem Keeps.segWriteV (h : Closed R) (w : Width) (k : SReg) (off : BitVec 32) (v : Val w) :
    Keeps R (segWriteV w k off v) := .segWrite h _ _ _ _

theorem Keeps.probeWrite (h : Closed R) (k : SReg) (off : BitVec 32) (n al : Nat) :
    Keeps R (probeWrite k off n al) := .probe h _ _ _ _ _

theorem Keeps.readMemBytes (h : Closed R) (m : MemOp) (n al : Nat) : Keeps R (readMemBytes m n al) :=
  .get h fun s => Keeps.segRead h _ _ _ _ s

theorem Keeps.writeMemBytes (h : Closed R) (m : MemOp) (bs : List Byte) (al : Nat) :
    Keeps R (writeMemBytes m bs al) := .get h fun s => Keeps.segWrite h _ _ _ _ s

theorem Keeps.readRM (h : Closed R) (w : Width) (rm : RM) : Keeps R (readRM w rm) := by
  cases rm with
  | reg r => exact .getReg h w r
  | mem m => exact .get h fun s => Keeps.segReadV h _ _ _ s

theorem Keeps.writeRM (h : Closed R) (w : Width) (rm : RM) (v : Val w) : Keeps R (writeRM w rm v) := by
  cases rm with
  | reg r => exact .setReg h w r v
  | mem m => exact .get h fun s => Keeps.segWriteV h _ _ _ _ s

theorem Keeps.push (h : Closed R) (w : Width) (v : Val w) : Keeps R (push w v) := by
  unfold Machine.push
  refine .get h fun s => ?_
  exact Keeps.ite (.throw h _) (.bind h (.segWriteV h _ _ _ _) fun _ => .setSp h _) s

theorem Keeps.pop (h : Closed R) (w : Width) : Keeps R (pop w) := by
  unfold Machine.pop
  exact .get h fun s => Keeps.bind h (.segReadV h _ _ _) (fun _ => .bind h (.setSp h _) fun _ => .pure h _) s

theorem Keeps.peek (h : Closed R) (w : Width) (k : Nat) : Keeps R (peek w k) :=
  .get h fun s => Keeps.segReadV h _ _ _ s

theorem Keeps.selItem (h : Closed R) (w : Width) (sel : BitVec 16) : Keeps R (selItem w sel) := by
  cases w with
  | w8 => exact .pure h _
  | w16 => exact .pure h _
  | w32 => exact .bind h (.drawWord h) fun _ => .pure h _

theorem Keeps.pushSel (h : Closed R) (w : Width) (sel : BitVec 16) : Keeps R (pushSel w sel) :=
  .bind h (.selItem h w sel) fun _ => .push h _ _

theorem Keeps.requireRoom (h : Closed R) (w : Width) (k : Nat) : Keeps R (requireRoom w k) :=
  .get h fun s => Keeps.ite (.pure h _) (.raise h _ _) s

theorem Keeps.requireRoomReal (h : Closed R) (w : Width) (k : Nat) : Keeps R (requireRoomReal w k) :=
  .get h fun s => Keeps.ite (.throw h _) (.requireRoom h _ _) s

theorem Keeps.checkPushes (h : Closed R) (w : Width) (k : Nat) : Keeps R (checkPushes w k) :=
  .get h fun s => Keeps.ite (.requireRoom h _ _) (.pure h _) s

theorem Keeps.readFarPtr (h : Closed R) (m : MemOp) : Keeps R (readFarPtr m) :=
  .get h fun s => Keeps.bind h (.segReadV h _ _ _) (fun _ => .bind h (.segReadV h _ _ _) fun _ => .pure h _) s

/-! Descriptors (R87, R91). -/

theorem Keeps.descAt (h : Closed R) (a : BitVec 32) : Keeps R (descAt a) :=
  .bind h (.sysRead h _ _) fun _ => .bind h (.sysRead h _ _) fun _ => .get h fun s => Keeps.pure h _ s

theorem Keeps.readDesc (h : Closed R) (sel : BitVec 16) {beyond : M Desc} (hb : Keeps R beyond) :
    Keeps R (readDesc sel beyond) := by
  unfold Machine.readDesc
  refine .get h fun s => ?_
  split
  · exact Keeps.descAt h _ s
  · exact hb s

theorem Keeps.setAccessed (h : Closed R) (d : Desc) : Keeps R (setAccessed d) := by
  unfold Machine.setAccessed
  exact .ite (.pure h _) (.sysWrite h _ _)

theorem Keeps.checkStackDesc (h : Closed R) (sel : BitVec 16) (d : Desc) (l : BitVec 2) {a b : M Unit}
    (ha : Keeps R a) (hb : Keeps R b) : Keeps R (checkStackDesc sel d l a b) := by
  unfold Machine.checkStackDesc
  exact .ite ha (.ite hb (.pure h _))

theorem Keeps.checkDataDesc (h : Closed R) (sel : BitVec 16) (d : Desc) (c : BitVec 2) :
    Keeps R (checkDataDesc sel d c) := by
  unfold Machine.checkDataDesc
  exact .ite (.raise h _ _) (.ite (.raise h _ _) (.ite (.raise h _ _) (.pure h _)))

/-- Loading a segment register keeps what every change of the segment registers keeps. -/
theorem Keeps.loadSeg (h : Closed R) (hs : ∀ s v, R s (s.setSegs v)) (k : SReg) (sel : BitVec 16) :
    Keeps R (loadSeg k sel) := by
  have hp : ∀ (k : SReg) (v : SegReg), Keeps R (putSeg k v) := fun k v s => .ok rfl (hs s _)
  unfold Machine.loadSeg
  refine .get h fun s => ?_
  refine Keeps.ite (hp _ _) (.ite (.ite (.raise h _ _) (hp _ _)) (.bind h (.readDesc h _ (.raise h _ _)) fun d => ?_)) s
  refine .bind h (.ite (.checkStackDesc h _ _ _ (.raise h _ _) (.raise h _ _)) (.checkDataDesc h _ _ _)) fun _ => ?_
  exact .bind h (.setAccessed h _) fun _ => hp _ _

/-! Delivery, and the outcome of an instruction. -/

/-- What entering an event keeps, delivering it keeps, if what a fault restores, an event that recurs and shutdown keep
it too. -/
theorem deliverWithin_keeps (h : Closed R) (hr : ∀ s t, R s t → R s (restore s t))
    (hrec : ∀ (s : State) (e : Event), R s (s.recurring e)) (hd : ∀ s : State, R s s.toShutdown)
    (he : ∀ e, Keeps R (enter e)) (n : Nat) (e : Event) (s t : State) (hn : deliverWithin n e s = .next t) : R s t := by
  induction n generalizing e s with
  | zero => simp [deliverWithin] at hn
  | succ n ih =>
    unfold deliverWithin at hn
    cases hm : enter e s with
    | ok a u =>
      rw [hm] at hn
      cases hn
      exact (he e s).1 a t hm
    | error x u =>
      have hu := hr s u ((he e s).2 x u hm)
      rw [hm] at hn
      cases x with
      | exc x =>
        dsimp only at hn
        split at hn
        · cases hn; exact h.trans _ _ _ hu (hd _)
        · exact h.trans _ _ _ hu (h.trans _ _ _ (hrec _ e) (ih _ _ hn))
      | waiting => cases hn
      | shutdown => cases hn; exact h.trans _ _ _ hu (hd _)
      | fault f => cases hn
      | refuse r => cases hn

theorem deliver_keeps (h : Closed R) (hr : ∀ s t, R s t → R s (restore s t))
    (hrec : ∀ (s : State) (e : Event), R s (s.recurring e)) (hd : ∀ s : State, R s s.toShutdown)
    (he : ∀ e, Keeps R (enter e)) {e : Event} {s t : State} (hn : deliver e s = .next t) : R s t :=
  deliverWithin_keeps h hr hrec hd he 8 e s t hn

/-- What a computation and delivery keep, the instruction keeps, if waiting keeps it. -/
theorem finish_keeps (h : Closed R) (hr : ∀ s t, R s t → R s (restore s t))
    (hrec : ∀ (s : State) (e : Event), R s (s.recurring e)) (hd : ∀ s : State, R s s.toShutdown)
    (he : ∀ e, Keeps R (enter e)) (hw : ∀ s t, waitAgain s = .next t → R s t) {m : M Unit} {s t : State}
    (hm : KeepsAt R m s) (hn : finish m s = .next t) : R s t := by
  unfold finish at hn
  cases hk : m s with
  | ok a u => rw [hk] at hn; cases hn; exact hm.1 a t hk
  | error x u =>
    have hu := hr s u (hm.2 x u hk)
    rw [hk] at hn
    cases x with
    | exc x => exact h.trans _ _ _ hu (deliver_keeps h hr hrec hd he hn)
    | waiting => exact h.trans _ _ _ hu (hw _ _ hn)
    | shutdown => cases hn; exact h.trans _ _ _ hu (hd _)
    | fault f => cases hn
    | refuse r => cases hn

/-- The same for an instruction that goes on at next IP. -/
theorem complete_keeps (h : Closed R) (hr : ∀ s t, R s t → R s (restore s t))
    (hrec : ∀ (s : State) (e : Event), R s (s.recurring e)) (hd : ∀ s : State, R s s.toShutdown)
    (he : ∀ e, Keeps R (enter e)) (hw : ∀ s t, waitAgain s = .next t → R s t) (ha : ∀ s : State, R s s.advance)
    {m : M Unit} {s t : State} (hm : KeepsAt R m s) (hn : complete m s = .next t) : R s t :=
  finish_keeps h hr hrec hd he hw (hm.bind h fun _ u _ => KeepsAt.ok (a := ()) rfl (ha u)) hn

end Sys2Proof.Machine
end

