-- ==== Sys2Proof/Tests/Slice0.lean ====
section
/-! SUPPORT. Tests. Ill-formed terms that well-formedness refuses; for every row of the opcode table a word written out
from its encoding, with what it decodes to; one step of many instructions on small states, the expected values from
95_test_vectors.md (named in each comment); and for every statement of the certificate with hypotheses a state and
operands that meet them. -/

open Sys2Proof Sys2Proof.Machine

namespace Sys2Proof.Tests

set_option maxRecDepth 100000

def c16 : Ctx := ⟨.p486, .integrated, .s16, .s16, none⟩
def c32 : Ctx := ⟨.p486, .integrated, .s32, .s32, none⟩
def c386 : Ctx := ⟨.p386, .n387, .s16, .s16, none⟩
def c286 : Ctx := ⟨.p286, .n287, .s16, .s16, none⟩

/-- The operand [BX + 12]. -/
abbrev bx : MemOp := .a16 7#3 (.d8 0x12#8)
/-- The operand [BX]. -/
abbrev atBx : MemOp := .a16 7#3 .none

/-! Well-formedness refuses, one ill-formed term a check. -/

theorem test_wf_immediate_width : Instr.wf c16 (.movRegImm true rAX (.i32 1#32)) = false ∧
    Instr.wf c16 (.movRegImm false rAX (.i16 1#16)) = false ∧ Instr.wf c32 (.movRegImm true rAX (.i16 1#16)) = false ∧
    Instr.wf c16 (.movRegImm true rAX (.i8 1#8)) = false := by decide
theorem test_wf_sign_extended : Instr.wf c16 (.addRmImm true true (.reg rAX) (.i16 1#16)) = false ∧
    Instr.wf c16 (.pushImm false (.i8 1#8)) = false := by decide
theorem test_wf_jump_displacement : Instr.wf c286 (.jE (.i16 1#16)) = false ∧ Instr.wf c16 (.jE (.i32 1#32)) = false ∧
    Instr.wf c32 (.jE (.i16 1#16)) = false := by decide
theorem test_wf_offset : Instr.wf c16 (.movAccMem true (.o32 1#32)) = false ∧
    Instr.wf c32 (.jmpFar (.o16 1#16) 0#16) = false := by decide
theorem test_wf_displacement : memOk .s16 (.a16 0#3 (.d32 1#32)) = false ∧ memOk .s32 (.a32 0#3 (.d16 1#16)) = false := by
  decide
theorem test_wf_address_size : memOk .s32 atBx = false ∧ memOk .s32 (.direct16 0#16) = false ∧
    memOk .s16 (.a32 0#3 .none) = false ∧ memOk .s16 (.direct32 0#32) = false ∧
    memOk .s16 (.sib 0#2 0#3 0#3 .none) = false ∧ memOk .s16 (.sibNoBase 0#2 0#3 0#32) = false := by decide
theorem test_wf_reserved_rows : memOk .s16 (.a16 6#3 .none) = false ∧ memOk .s32 (.a32 4#3 (.d8 0#8)) = false ∧
    memOk .s32 (.a32 5#3 .none) = false ∧ memOk .s32 (.sib 0#2 0#3 5#3 .none) = false := by decide
theorem test_wf_segment_registers : Instr.wf c16 (.movSregRm .cs (.reg rAX)) = false ∧
    Instr.wf c286 (.movSregRm .fs (.reg rAX)) = false ∧ Instr.wf c286 (.movRmSreg .gs (.reg rAX)) = false ∧
    Instr.wf c16 (.pushSreg .fs) = false := by decide
theorem test_wf_processor : Instr.wf c286 (.movsx true rAX (.reg rAX)) = false ∧
    Instr.wf c286 (.orRmImm true true (.reg rAX) (.i8 1#8)) = false ∧ Instr.wf c386 (.bswap rAX) = false ∧
    Instr.wf c386 .fsetpm = false ∧ Instr.wf c286 .fsin = false := by decide
theorem test_wf_other : Instr.wf c16 (.xchgAcc rAX) = false ∧
    Instr.wf { c16 with rep := some true } (.movs true) = false ∧ Instr.wf c16 (.esc 0#3 0#3 (.reg 0#3)) = false ∧
    Instr.wf c16 (.esc 0#3 0#3 (.mem bx)) = false ∧ Instr.wf { c286 with os := .s32 } .nop = true ∧
    Ctx.ok { c286 with os := .s32 } = false := by decide

/-! Decoding: a word for every row of the table, from its encoding, with r = 011 (BX), mod = 01 and r/m = 111 and
displacement 12, w = d = s = 1, and distinct operand bytes. -/

theorem test_decode_prefixes :
    decode c16 [0xF0#8] = .instr .lockPrefix 1 ∧
    decode c16 [0xF2#8, 0x90#8] = .instr .repnePrefix 1 ∧
    decode c16 [0xF3#8, 0x90#8] = .instr .repPrefix 1 ∧
    decode c16 [0x26#8] = .instr .esPrefix 1 ∧
    decode c16 [0x2E#8] = .instr .csPrefix 1 ∧
    decode c16 [0x36#8] = .instr .ssPrefix 1 ∧
    decode c16 [0x3E#8] = .instr .dsPrefix 1 ∧
    decode c16 [0x64#8] = .instr .fsPrefix 1 ∧
    decode c16 [0x65#8] = .instr .gsPrefix 1 ∧
    decode c16 [0x66#8] = .instr .opSizePrefix 1 ∧
    decode c16 [0x67#8] = .instr .addrSizePrefix 1 := by decide

theorem test_decode_dataTransfer1 :
    decode c16 [0x89#8, 0x5F#8, 0x12#8] = .instr (.movRmReg true 3#3 (.mem bx)) 3 ∧
    decode c16 [0x8B#8, 0x5F#8, 0x12#8] = .instr (.movRegRm true 3#3 (.mem bx)) 3 ∧
    decode c16 [0xC7#8, 0x47#8, 0x12#8, 0x34#8, 0x12#8] = .instr (.movRmImm true (.mem bx) (.i16 0x1234#16)) 5 ∧
    decode c16 [0xBB#8, 0x34#8, 0x12#8] = .instr (.movRegImm true 3#3 (.i16 0x1234#16)) 3 ∧
    decode c16 [0xA1#8, 0x78#8, 0x56#8] = .instr (.movAccMem true (.o16 0x5678#16)) 3 ∧
    decode c16 [0xA3#8, 0x78#8, 0x56#8] = .instr (.movMemAcc true (.o16 0x5678#16)) 3 ∧
    decode c16 [0x8E#8, 0x5F#8, 0x12#8] = .instr (.movSregRm .ds (.mem bx)) 3 ∧
    decode c16 [0x8C#8, 0x5F#8, 0x12#8] = .instr (.movRmSreg .ds (.mem bx)) 3 ∧
    decode c16 [0x0F#8, 0xBF#8, 0x5F#8, 0x12#8] = .instr (.movsx true 3#3 (.mem bx)) 4 ∧
    decode c16 [0x0F#8, 0xB7#8, 0x5F#8, 0x12#8] = .instr (.movzx true 3#3 (.mem bx)) 4 ∧
    decode c16 [0xFF#8, 0x77#8, 0x12#8] = .instr (.pushRm (.mem bx)) 3 ∧
    decode c16 [0x53#8] = .instr (.pushReg 3#3) 1 ∧
    decode c16 [0x1E#8] = .instr (.pushSreg .ds) 1 ∧
    decode c16 [0x0F#8, 0xA0#8] = .instr .pushFs 2 ∧
    decode c16 [0x0F#8, 0xA8#8] = .instr .pushGs 2 ∧
    decode c16 [0x6A#8, 0x85#8] = .instr (.pushImm true (.i8 0x85#8)) 2 ∧
    decode c16 [0x60#8] = .instr .pusha 1 ∧
    decode c16 [0x8F#8, 0x47#8, 0x12#8] = .instr (.popRm (.mem bx)) 3 ∧
    decode c16 [0x5B#8] = .instr (.popReg 3#3) 1 ∧
    decode c16 [0x07#8] = .instr .popEs 1 := by decide

theorem test_decode_dataTransfer2 :
    decode c16 [0x17#8] = .instr .popSs 1 ∧
    decode c16 [0x1F#8] = .instr .popDs 1 ∧
    decode c16 [0x0F#8, 0xA1#8] = .instr .popFs 2 ∧
    decode c16 [0x0F#8, 0xA9#8] = .instr .popGs 2 ∧
    decode c16 [0x61#8] = .instr .popa 1 ∧
    decode c16 [0x87#8, 0x5F#8, 0x12#8] = .instr (.xchgRmReg true 3#3 (.mem bx)) 3 ∧
    decode c16 [0x93#8] = .instr (.xchgAcc 3#3) 1 ∧
    decode c16 [0xE5#8, 0x60#8] = .instr (.inPort true 0x60#8) 2 ∧
    decode c16 [0xED#8] = .instr (.inDx true) 1 ∧
    decode c16 [0xE7#8, 0x60#8] = .instr (.outPort true 0x60#8) 2 ∧
    decode c16 [0xEF#8] = .instr (.outDx true) 1 ∧
    decode c16 [0x8D#8, 0x5F#8, 0x12#8] = .instr (.lea 3#3 bx) 3 ∧
    decode c16 [0xC5#8, 0x5F#8, 0x12#8] = .instr (.lds 3#3 bx) 3 ∧
    decode c16 [0xC4#8, 0x5F#8, 0x12#8] = .instr (.les 3#3 bx) 3 ∧
    decode c16 [0x0F#8, 0xB4#8, 0x5F#8, 0x12#8] = .instr (.lfs 3#3 bx) 4 ∧
    decode c16 [0x0F#8, 0xB5#8, 0x5F#8, 0x12#8] = .instr (.lgs 3#3 bx) 4 ∧
    decode c16 [0x0F#8, 0xB2#8, 0x5F#8, 0x12#8] = .instr (.lss 3#3 bx) 4 := by decide

theorem test_decode_flags :
    decode c16 [0xF8#8] = .instr .clc 1 ∧
    decode c16 [0xFC#8] = .instr .cld 1 ∧
    decode c16 [0xFA#8] = .instr .cli 1 ∧
    decode c16 [0x0F#8, 0x06#8] = .instr .clts 2 ∧
    decode c16 [0xF5#8] = .instr .cmc 1 ∧
    decode c16 [0x9F#8] = .instr .lahf 1 ∧
    decode c16 [0x9D#8] = .instr .popf 1 ∧
    decode c16 [0x9C#8] = .instr .pushf 1 ∧
    decode c16 [0x9E#8] = .instr .sahf 1 ∧
    decode c16 [0xF9#8] = .instr .stc 1 ∧
    decode c16 [0xFD#8] = .instr .std 1 ∧
    decode c16 [0xFB#8] = .instr .sti 1 := by decide

theorem test_decode_arithmetic1 :
    decode c16 [0x03#8, 0x5F#8, 0x12#8] = .instr (.addRmReg true true 3#3 (.mem bx)) 3 ∧
    decode c16 [0x83#8, 0x47#8, 0x12#8, 0x85#8] = .instr (.addRmImm true true (.mem bx) (.i8 0x85#8)) 4 ∧
    decode c16 [0x05#8, 0x34#8, 0x12#8] = .instr (.addAccImm true (.i16 0x1234#16)) 3 ∧
    decode c16 [0x13#8, 0x5F#8, 0x12#8] = .instr (.adcRmReg true true 3#3 (.mem bx)) 3 ∧
    decode c16 [0x83#8, 0x57#8, 0x12#8, 0x85#8] = .instr (.adcRmImm true true (.mem bx) (.i8 0x85#8)) 4 ∧
    decode c16 [0x15#8, 0x34#8, 0x12#8] = .instr (.adcAccImm true (.i16 0x1234#16)) 3 ∧
    decode c16 [0x1B#8, 0x5F#8, 0x12#8] = .instr (.sbbRmReg true true 3#3 (.mem bx)) 3 ∧
    decode c16 [0x83#8, 0x5F#8, 0x12#8, 0x85#8] = .instr (.sbbRmImm true true (.mem bx) (.i8 0x85#8)) 4 ∧
    decode c16 [0x1D#8, 0x34#8, 0x12#8] = .instr (.sbbAccImm true (.i16 0x1234#16)) 3 ∧
    decode c16 [0x2B#8, 0x5F#8, 0x12#8] = .instr (.subRmReg true true 3#3 (.mem bx)) 3 ∧
    decode c16 [0x83#8, 0x6F#8, 0x12#8, 0x85#8] = .instr (.subRmImm true true (.mem bx) (.i8 0x85#8)) 4 ∧
    decode c16 [0x2D#8, 0x34#8, 0x12#8] = .instr (.subAccImm true (.i16 0x1234#16)) 3 ∧
    decode c16 [0x3B#8, 0x5F#8, 0x12#8] = .instr (.cmpRmReg true true 3#3 (.mem bx)) 3 ∧
    decode c16 [0x83#8, 0x7F#8, 0x12#8, 0x85#8] = .instr (.cmpRmImm true true (.mem bx) (.i8 0x85#8)) 4 ∧
    decode c16 [0x3D#8, 0x34#8, 0x12#8] = .instr (.cmpAccImm true (.i16 0x1234#16)) 3 ∧
    decode c16 [0xFF#8, 0x47#8, 0x12#8] = .instr (.incRm true (.mem bx)) 3 ∧
    decode c16 [0x43#8] = .instr (.incReg 3#3) 1 ∧
    decode c16 [0xFF#8, 0x4F#8, 0x12#8] = .instr (.decRm true (.mem bx)) 3 ∧
    decode c16 [0x4B#8] = .instr (.decReg 3#3) 1 ∧
    decode c16 [0xF7#8, 0x5F#8, 0x12#8] = .instr (.neg true (.mem bx)) 3 := by decide

theorem test_decode_arithmetic2 :
    decode c16 [0x37#8] = .instr .aaa 1 ∧
    decode c16 [0x3F#8] = .instr .aas 1 ∧
    decode c16 [0x27#8] = .instr .daa 1 ∧
    decode c16 [0x2F#8] = .instr .das 1 ∧
    decode c16 [0xF7#8, 0x67#8, 0x12#8] = .instr (.mul true (.mem bx)) 3 ∧
    decode c16 [0xF7#8, 0x6F#8, 0x12#8] = .instr (.imulAcc true (.mem bx)) 3 ∧
    decode c16 [0x0F#8, 0xAF#8, 0x5F#8, 0x12#8] = .instr (.imulRegRm 3#3 (.mem bx)) 4 ∧
    decode c16 [0x6B#8, 0x5F#8, 0x12#8, 0x85#8] = .instr (.imulRegRmImm true 3#3 (.mem bx) (.i8 0x85#8)) 4 ∧
    decode c16 [0xF7#8, 0x77#8, 0x12#8] = .instr (.div true (.mem bx)) 3 ∧
    decode c16 [0xF7#8, 0x7F#8, 0x12#8] = .instr (.idiv true (.mem bx)) 3 ∧
    decode c16 [0xD5#8, 0x0A#8] = .instr .aad 2 ∧
    decode c16 [0xD4#8, 0x0A#8] = .instr .aam 2 ∧
    decode c16 [0x98#8] = .instr .cbw 1 ∧
    decode c16 [0x99#8] = .instr .cwd 1 := by decide

theorem test_decode_logic1 :
    decode c16 [0x0B#8, 0x5F#8, 0x12#8] = .instr (.orRmReg true true 3#3 (.mem bx)) 3 ∧
    decode c16 [0x83#8, 0x4F#8, 0x12#8, 0x85#8] = .instr (.orRmImm true true (.mem bx) (.i8 0x85#8)) 4 ∧
    decode c16 [0x0D#8, 0x34#8, 0x12#8] = .instr (.orAccImm true (.i16 0x1234#16)) 3 ∧
    decode c16 [0x23#8, 0x5F#8, 0x12#8] = .instr (.andRmReg true true 3#3 (.mem bx)) 3 ∧
    decode c16 [0x83#8, 0x67#8, 0x12#8, 0x85#8] = .instr (.andRmImm true true (.mem bx) (.i8 0x85#8)) 4 ∧
    decode c16 [0x25#8, 0x34#8, 0x12#8] = .instr (.andAccImm true (.i16 0x1234#16)) 3 ∧
    decode c16 [0x33#8, 0x5F#8, 0x12#8] = .instr (.xorRmReg true true 3#3 (.mem bx)) 3 ∧
    decode c16 [0x83#8, 0x77#8, 0x12#8, 0x85#8] = .instr (.xorRmImm true true (.mem bx) (.i8 0x85#8)) 4 ∧
    decode c16 [0x35#8, 0x34#8, 0x12#8] = .instr (.xorAccImm true (.i16 0x1234#16)) 3 ∧
    decode c16 [0xD1#8, 0x47#8, 0x12#8] = .instr (.rol true (.mem bx) .one) 3 ∧
    decode c16 [0xD3#8, 0x47#8, 0x12#8] = .instr (.rol true (.mem bx) .cl) 3 ∧
    decode c16 [0xC1#8, 0x47#8, 0x12#8, 0x09#8] = .instr (.rol true (.mem bx) (.imm 0x09#8)) 4 ∧
    decode c16 [0xD1#8, 0x4F#8, 0x12#8] = .instr (.ror true (.mem bx) .one) 3 ∧
    decode c16 [0xD3#8, 0x4F#8, 0x12#8] = .instr (.ror true (.mem bx) .cl) 3 ∧
    decode c16 [0xC1#8, 0x4F#8, 0x12#8, 0x09#8] = .instr (.ror true (.mem bx) (.imm 0x09#8)) 4 ∧
    decode c16 [0xD1#8, 0x57#8, 0x12#8] = .instr (.rcl true (.mem bx) .one) 3 ∧
    decode c16 [0xD3#8, 0x57#8, 0x12#8] = .instr (.rcl true (.mem bx) .cl) 3 ∧
    decode c16 [0xC1#8, 0x57#8, 0x12#8, 0x09#8] = .instr (.rcl true (.mem bx) (.imm 0x09#8)) 4 ∧
    decode c16 [0xD1#8, 0x5F#8, 0x12#8] = .instr (.rcr true (.mem bx) .one) 3 ∧
    decode c16 [0xD3#8, 0x5F#8, 0x12#8] = .instr (.rcr true (.mem bx) .cl) 3 := by decide

theorem test_decode_logic2 :
    decode c16 [0xC1#8, 0x5F#8, 0x12#8, 0x09#8] = .instr (.rcr true (.mem bx) (.imm 0x09#8)) 4 ∧
    decode c16 [0xD1#8, 0x67#8, 0x12#8] = .instr (.shl true (.mem bx) .one) 3 ∧
    decode c16 [0xD3#8, 0x67#8, 0x12#8] = .instr (.shl true (.mem bx) .cl) 3 ∧
    decode c16 [0xC1#8, 0x67#8, 0x12#8, 0x09#8] = .instr (.shl true (.mem bx) (.imm 0x09#8)) 4 ∧
    decode c16 [0xD1#8, 0x6F#8, 0x12#8] = .instr (.shr true (.mem bx) .one) 3 ∧
    decode c16 [0xD3#8, 0x6F#8, 0x12#8] = .instr (.shr true (.mem bx) .cl) 3 ∧
    decode c16 [0xC1#8, 0x6F#8, 0x12#8, 0x09#8] = .instr (.shr true (.mem bx) (.imm 0x09#8)) 4 ∧
    decode c16 [0xD1#8, 0x7F#8, 0x12#8] = .instr (.sar true (.mem bx) .one) 3 ∧
    decode c16 [0xD3#8, 0x7F#8, 0x12#8] = .instr (.sar true (.mem bx) .cl) 3 ∧
    decode c16 [0xC1#8, 0x7F#8, 0x12#8, 0x09#8] = .instr (.sar true (.mem bx) (.imm 0x09#8)) 4 ∧
    decode c16 [0x0F#8, 0xA4#8, 0x5F#8, 0x12#8, 0x09#8] = .instr (.shldImm 3#3 (.mem bx) 0x09#8) 5 ∧
    decode c16 [0x0F#8, 0xA5#8, 0x5F#8, 0x12#8] = .instr (.shldCl 3#3 (.mem bx)) 4 ∧
    decode c16 [0x0F#8, 0xAC#8, 0x5F#8, 0x12#8, 0x09#8] = .instr (.shrdImm 3#3 (.mem bx) 0x09#8) 5 ∧
    decode c16 [0x0F#8, 0xAD#8, 0x5F#8, 0x12#8] = .instr (.shrdCl 3#3 (.mem bx)) 4 ∧
    decode c16 [0x85#8, 0x5F#8, 0x12#8] = .instr (.testRmReg true 3#3 (.mem bx)) 3 ∧
    decode c16 [0xF7#8, 0x47#8, 0x12#8, 0x34#8, 0x12#8] = .instr (.testRmImm true (.mem bx) (.i16 0x1234#16)) 5 ∧
    decode c16 [0xA9#8, 0x34#8, 0x12#8] = .instr (.testAccImm true (.i16 0x1234#16)) 3 ∧
    decode c16 [0xF7#8, 0x57#8, 0x12#8] = .instr (.notRm true (.mem bx)) 3 := by decide

theorem test_decode_strings :
    decode c16 [0xA7#8] = .instr (.cmps true) 1 ∧
    decode c16 [0x6D#8] = .instr (.ins true) 1 ∧
    decode c16 [0xAD#8] = .instr (.lods true) 1 ∧
    decode c16 [0xA5#8] = .instr (.movs true) 1 ∧
    decode c16 [0x6F#8] = .instr (.outs true) 1 ∧
    decode c16 [0xAF#8] = .instr (.scas true) 1 ∧
    decode c16 [0xAB#8] = .instr (.stos true) 1 ∧
    decode c16 [0xD7#8] = .instr .xlat 1 ∧
    decode c16 [0xF3#8, 0xA7#8] = .instr (.repeCmps true) 2 ∧
    decode c16 [0xF2#8, 0xA7#8] = .instr (.repneCmps true) 2 ∧
    decode c16 [0xF3#8, 0x6D#8] = .instr (.repIns true) 2 ∧
    decode c16 [0xF3#8, 0xAD#8] = .instr (.repLods true) 2 ∧
    decode c16 [0xF3#8, 0xA5#8] = .instr (.repMovs true) 2 ∧
    decode c16 [0xF3#8, 0x6F#8] = .instr (.repOuts true) 2 ∧
    decode c16 [0xF3#8, 0xAF#8] = .instr (.repeScas true) 2 ∧
    decode c16 [0xF2#8, 0xAF#8] = .instr (.repneScas true) 2 ∧
    decode c16 [0xF3#8, 0xAB#8] = .instr (.repStos true) 2 := by decide

theorem test_decode_bits :
    decode c16 [0x0F#8, 0xBC#8, 0x5F#8, 0x12#8] = .instr (.bsf 3#3 (.mem bx)) 4 ∧
    decode c16 [0x0F#8, 0xBD#8, 0x5F#8, 0x12#8] = .instr (.bsr 3#3 (.mem bx)) 4 ∧
    decode c16 [0x0F#8, 0xBA#8, 0x67#8, 0x12#8, 0x09#8] = .instr (.btImm (.mem bx) 0x09#8) 5 ∧
    decode c16 [0x0F#8, 0xA3#8, 0x5F#8, 0x12#8] = .instr (.btReg 3#3 (.mem bx)) 4 ∧
    decode c16 [0x0F#8, 0xBA#8, 0x7F#8, 0x12#8, 0x09#8] = .instr (.btcImm (.mem bx) 0x09#8) 5 ∧
    decode c16 [0x0F#8, 0xBB#8, 0x5F#8, 0x12#8] = .instr (.btcReg 3#3 (.mem bx)) 4 ∧
    decode c16 [0x0F#8, 0xBA#8, 0x77#8, 0x12#8, 0x09#8] = .instr (.btrImm (.mem bx) 0x09#8) 5 ∧
    decode c16 [0x0F#8, 0xB3#8, 0x5F#8, 0x12#8] = .instr (.btrReg 3#3 (.mem bx)) 4 ∧
    decode c16 [0x0F#8, 0xBA#8, 0x6F#8, 0x12#8, 0x09#8] = .instr (.btsImm (.mem bx) 0x09#8) 5 ∧
    decode c16 [0x0F#8, 0xAB#8, 0x5F#8, 0x12#8] = .instr (.btsReg 3#3 (.mem bx)) 4 := by decide

theorem test_decode_control1 :
    decode c16 [0xE8#8, 0x34#8, 0x12#8] = .instr (.callNear (.i16 0x1234#16)) 3 ∧
    decode c16 [0xFF#8, 0x57#8, 0x12#8] = .instr (.callRm (.mem bx)) 3 ∧
    decode c16 [0x9A#8, 0x78#8, 0x56#8, 0x00#8, 0xF0#8] = .instr (.callFar (.o16 0x5678#16) 0xF000#16) 5 ∧
    decode c16 [0xFF#8, 0x5F#8, 0x12#8] = .instr (.callMemFar bx) 3 ∧
    decode c16 [0xEB#8, 0xFE#8] = .instr (.jmpShort 0xFE#8) 2 ∧
    decode c16 [0xE9#8, 0x34#8, 0x12#8] = .instr (.jmpNear (.i16 0x1234#16)) 3 ∧
    decode c16 [0xFF#8, 0x67#8, 0x12#8] = .instr (.jmpRm (.mem bx)) 3 ∧
    decode c16 [0xEA#8, 0x78#8, 0x56#8, 0x00#8, 0xF0#8] = .instr (.jmpFar (.o16 0x5678#16) 0xF000#16) 5 ∧
    decode c16 [0xFF#8, 0x6F#8, 0x12#8] = .instr (.jmpMemFar bx) 3 ∧
    decode c16 [0xC3#8] = .instr .retNear 1 ∧
    decode c16 [0xC2#8, 0x08#8, 0x01#8] = .instr (.retNearImm 0x0108#16) 3 ∧
    decode c16 [0xCB#8] = .instr .retFar 1 ∧
    decode c16 [0xCA#8, 0x08#8, 0x01#8] = .instr (.retFarImm 0x0108#16) 3 ∧
    decode c16 [0x70#8, 0xFE#8] = .instr (.jO (.i8 0xFE#8)) 2 ∧
    decode c16 [0x0F#8, 0x80#8, 0x34#8, 0x12#8] = .instr (.jO (.i16 0x1234#16)) 4 ∧
    decode c16 [0x71#8, 0xFE#8] = .instr (.jNo (.i8 0xFE#8)) 2 ∧
    decode c16 [0x0F#8, 0x81#8, 0x34#8, 0x12#8] = .instr (.jNo (.i16 0x1234#16)) 4 ∧
    decode c16 [0x72#8, 0xFE#8] = .instr (.jB (.i8 0xFE#8)) 2 ∧
    decode c16 [0x0F#8, 0x82#8, 0x34#8, 0x12#8] = .instr (.jB (.i16 0x1234#16)) 4 ∧
    decode c16 [0x73#8, 0xFE#8] = .instr (.jNb (.i8 0xFE#8)) 2 := by decide

theorem test_decode_control2 :
    decode c16 [0x0F#8, 0x83#8, 0x34#8, 0x12#8] = .instr (.jNb (.i16 0x1234#16)) 4 ∧
    decode c16 [0x74#8, 0xFE#8] = .instr (.jE (.i8 0xFE#8)) 2 ∧
    decode c16 [0x0F#8, 0x84#8, 0x34#8, 0x12#8] = .instr (.jE (.i16 0x1234#16)) 4 ∧
    decode c16 [0x75#8, 0xFE#8] = .instr (.jNe (.i8 0xFE#8)) 2 ∧
    decode c16 [0x0F#8, 0x85#8, 0x34#8, 0x12#8] = .instr (.jNe (.i16 0x1234#16)) 4 ∧
    decode c16 [0x76#8, 0xFE#8] = .instr (.jBe (.i8 0xFE#8)) 2 ∧
    decode c16 [0x0F#8, 0x86#8, 0x34#8, 0x12#8] = .instr (.jBe (.i16 0x1234#16)) 4 ∧
    decode c16 [0x77#8, 0xFE#8] = .instr (.jNbe (.i8 0xFE#8)) 2 ∧
    decode c16 [0x0F#8, 0x87#8, 0x34#8, 0x12#8] = .instr (.jNbe (.i16 0x1234#16)) 4 ∧
    decode c16 [0x78#8, 0xFE#8] = .instr (.jS (.i8 0xFE#8)) 2 ∧
    decode c16 [0x0F#8, 0x88#8, 0x34#8, 0x12#8] = .instr (.jS (.i16 0x1234#16)) 4 ∧
    decode c16 [0x79#8, 0xFE#8] = .instr (.jNs (.i8 0xFE#8)) 2 ∧
    decode c16 [0x0F#8, 0x89#8, 0x34#8, 0x12#8] = .instr (.jNs (.i16 0x1234#16)) 4 ∧
    decode c16 [0x7A#8, 0xFE#8] = .instr (.jP (.i8 0xFE#8)) 2 ∧
    decode c16 [0x0F#8, 0x8A#8, 0x34#8, 0x12#8] = .instr (.jP (.i16 0x1234#16)) 4 ∧
    decode c16 [0x7B#8, 0xFE#8] = .instr (.jNp (.i8 0xFE#8)) 2 ∧
    decode c16 [0x0F#8, 0x8B#8, 0x34#8, 0x12#8] = .instr (.jNp (.i16 0x1234#16)) 4 ∧
    decode c16 [0x7C#8, 0xFE#8] = .instr (.jL (.i8 0xFE#8)) 2 ∧
    decode c16 [0x0F#8, 0x8C#8, 0x34#8, 0x12#8] = .instr (.jL (.i16 0x1234#16)) 4 ∧
    decode c16 [0x7D#8, 0xFE#8] = .instr (.jNl (.i8 0xFE#8)) 2 := by decide

theorem test_decode_control3 :
    decode c16 [0x0F#8, 0x8D#8, 0x34#8, 0x12#8] = .instr (.jNl (.i16 0x1234#16)) 4 ∧
    decode c16 [0x7E#8, 0xFE#8] = .instr (.jLe (.i8 0xFE#8)) 2 ∧
    decode c16 [0x0F#8, 0x8E#8, 0x34#8, 0x12#8] = .instr (.jLe (.i16 0x1234#16)) 4 ∧
    decode c16 [0x7F#8, 0xFE#8] = .instr (.jNle (.i8 0xFE#8)) 2 ∧
    decode c16 [0x0F#8, 0x8F#8, 0x34#8, 0x12#8] = .instr (.jNle (.i16 0x1234#16)) 4 ∧
    decode c16 [0xE3#8, 0xFE#8] = .instr (.jcxz 0xFE#8) 2 ∧
    decode c16 [0xE2#8, 0xFE#8] = .instr (.loop 0xFE#8) 2 ∧
    decode c16 [0xE1#8, 0xFE#8] = .instr (.loopz 0xFE#8) 2 ∧
    decode c16 [0xE0#8, 0xFE#8] = .instr (.loopnz 0xFE#8) 2 ∧
    decode c16 [0xC8#8, 0x20#8, 0x01#8, 0x02#8] = .instr (.enter 0x0120#16 2#8) 4 ∧
    decode c16 [0xC9#8] = .instr .leave 1 ∧
    decode c16 [0xCD#8, 0x21#8] = .instr (.intN 0x21#8) 2 ∧
    decode c16 [0xCC#8] = .instr .int3 1 ∧
    decode c16 [0xCE#8] = .instr .into 1 ∧
    decode c16 [0x62#8, 0x5F#8, 0x12#8] = .instr (.bound 3#3 bx) 3 ∧
    decode c16 [0xCF#8] = .instr .iret 1 := by decide

theorem test_decode_sets :
    decode c16 [0x0F#8, 0x90#8, 0x57#8, 0x12#8] = .instr (.setO 2#3 (.mem bx)) 4 ∧
    decode c16 [0x0F#8, 0x91#8, 0x57#8, 0x12#8] = .instr (.setNo 2#3 (.mem bx)) 4 ∧
    decode c16 [0x0F#8, 0x92#8, 0x57#8, 0x12#8] = .instr (.setB 2#3 (.mem bx)) 4 ∧
    decode c16 [0x0F#8, 0x93#8, 0x57#8, 0x12#8] = .instr (.setNb 2#3 (.mem bx)) 4 ∧
    decode c16 [0x0F#8, 0x94#8, 0x57#8, 0x12#8] = .instr (.setE 2#3 (.mem bx)) 4 ∧
    decode c16 [0x0F#8, 0x95#8, 0x57#8, 0x12#8] = .instr (.setNe 2#3 (.mem bx)) 4 ∧
    decode c16 [0x0F#8, 0x96#8, 0x57#8, 0x12#8] = .instr (.setBe 2#3 (.mem bx)) 4 ∧
    decode c16 [0x0F#8, 0x97#8, 0x57#8, 0x12#8] = .instr (.setNbe 2#3 (.mem bx)) 4 ∧
    decode c16 [0x0F#8, 0x98#8, 0x57#8, 0x12#8] = .instr (.setS 2#3 (.mem bx)) 4 ∧
    decode c16 [0x0F#8, 0x99#8, 0x57#8, 0x12#8] = .instr (.setNs 2#3 (.mem bx)) 4 ∧
    decode c16 [0x0F#8, 0x9A#8, 0x57#8, 0x12#8] = .instr (.setP 2#3 (.mem bx)) 4 ∧
    decode c16 [0x0F#8, 0x9B#8, 0x57#8, 0x12#8] = .instr (.setNp 2#3 (.mem bx)) 4 ∧
    decode c16 [0x0F#8, 0x9C#8, 0x57#8, 0x12#8] = .instr (.setL 2#3 (.mem bx)) 4 ∧
    decode c16 [0x0F#8, 0x9D#8, 0x57#8, 0x12#8] = .instr (.setNl 2#3 (.mem bx)) 4 ∧
    decode c16 [0x0F#8, 0x9E#8, 0x57#8, 0x12#8] = .instr (.setLe 2#3 (.mem bx)) 4 ∧
    decode c16 [0x0F#8, 0x9F#8, 0x57#8, 0x12#8] = .instr (.setNle 2#3 (.mem bx)) 4 := by decide

theorem test_decode_processor1 :
    decode c16 [0xF4#8] = .instr .hlt 1 ∧
    decode c16 [0x0F#8, 0x22#8, 0xD3#8] = .instr (.movToCr .cr2 3#3) 3 ∧
    decode c16 [0x0F#8, 0x20#8, 0xD3#8] = .instr (.movFromCr .cr2 3#3) 3 ∧
    decode c16 [0x0F#8, 0x23#8, 0xFB#8] = .instr (.movToDr .dr7 3#3) 3 ∧
    decode c16 [0x0F#8, 0x21#8, 0xFB#8] = .instr (.movFromDr .dr7 3#3) 3 ∧
    decode c16 [0x0F#8, 0x26#8, 0xFB#8] = .instr (.movToTr .tr7 3#3) 3 ∧
    decode c16 [0x0F#8, 0x24#8, 0xFB#8] = .instr (.movFromTr .tr7 3#3) 3 ∧
    decode c16 [0x90#8] = .instr .nop 1 ∧
    decode c16 [0x9B#8] = .instr .wait 1 ∧
    decode c16 [0xD9#8, 0xD8#8] = .instr (.esc 1#3 3#3 (.reg 0#3)) 2 ∧
    decode c16 [0x63#8, 0x5F#8, 0x12#8] = .instr (.arpl 3#3 (.mem bx)) 3 ∧
    decode c16 [0x0F#8, 0x02#8, 0x5F#8, 0x12#8] = .instr (.lar 3#3 (.mem bx)) 4 ∧
    decode c16 [0x0F#8, 0x01#8, 0x57#8, 0x12#8] = .instr (.lgdt bx) 4 ∧
    decode c16 [0x0F#8, 0x01#8, 0x5F#8, 0x12#8] = .instr (.lidt bx) 4 ∧
    decode c16 [0x0F#8, 0x00#8, 0x57#8, 0x12#8] = .instr (.lldt (.mem bx)) 4 ∧
    decode c16 [0x0F#8, 0x01#8, 0x77#8, 0x12#8] = .instr (.lmsw (.mem bx)) 4 ∧
    decode c16 [0x0F#8, 0x03#8, 0x5F#8, 0x12#8] = .instr (.lsl 3#3 (.mem bx)) 4 ∧
    decode c16 [0x0F#8, 0x00#8, 0x5F#8, 0x12#8] = .instr (.ltr (.mem bx)) 4 ∧
    decode c16 [0x0F#8, 0x01#8, 0x47#8, 0x12#8] = .instr (.sgdt bx) 4 ∧
    decode c16 [0x0F#8, 0x01#8, 0x4F#8, 0x12#8] = .instr (.sidt bx) 4 := by decide

theorem test_decode_processor2 :
    decode c16 [0x0F#8, 0x00#8, 0x47#8, 0x12#8] = .instr (.sldt (.mem bx)) 4 ∧
    decode c16 [0x0F#8, 0x01#8, 0x67#8, 0x12#8] = .instr (.smsw (.mem bx)) 4 ∧
    decode c16 [0x0F#8, 0x00#8, 0x4F#8, 0x12#8] = .instr (.str (.mem bx)) 4 ∧
    decode c16 [0x0F#8, 0x00#8, 0x67#8, 0x12#8] = .instr (.verr (.mem bx)) 4 ∧
    decode c16 [0x0F#8, 0x00#8, 0x6F#8, 0x12#8] = .instr (.verw (.mem bx)) 4 := by decide

theorem test_decode_i486 :
    decode c16 [0x0F#8, 0xCB#8] = .instr (.bswap 3#3) 2 ∧
    decode c16 [0x0F#8, 0xB1#8, 0x5F#8, 0x12#8] = .instr (.cmpxchg true 3#3 (.mem bx)) 4 ∧
    decode c16 [0x0F#8, 0xC1#8, 0x5F#8, 0x12#8] = .instr (.xadd true 3#3 (.mem bx)) 4 ∧
    decode c16 [0x0F#8, 0x08#8] = .instr .invd 2 ∧
    decode c16 [0x0F#8, 0x09#8] = .instr .wbinvd 2 ∧
    decode c16 [0x0F#8, 0x01#8, 0x7F#8, 0x12#8] = .instr (.invlpg bx) 4 := by decide

theorem test_decode_npx1 :
    decode c16 [0xD9#8, 0x47#8, 0x12#8] = .instr (.fldMem false bx) 3 ∧
    decode c16 [0xDB#8, 0x47#8, 0x12#8] = .instr (.fild false bx) 3 ∧
    decode c16 [0xDD#8, 0x47#8, 0x12#8] = .instr (.fldMem true bx) 3 ∧
    decode c16 [0xDF#8, 0x47#8, 0x12#8] = .instr (.fild true bx) 3 ∧
    decode c16 [0xDF#8, 0x6F#8, 0x12#8] = .instr (.fildM64 bx) 3 ∧
    decode c16 [0xDB#8, 0x6F#8, 0x12#8] = .instr (.fldM80 bx) 3 ∧
    decode c16 [0xDF#8, 0x67#8, 0x12#8] = .instr (.fbld bx) 3 ∧
    decode c16 [0xD9#8, 0xC5#8] = .instr (.fldSt 5#3) 2 ∧
    decode c16 [0xD9#8, 0x57#8, 0x12#8] = .instr (.fstMem false bx) 3 ∧
    decode c16 [0xDB#8, 0x57#8, 0x12#8] = .instr (.fist false bx) 3 ∧
    decode c16 [0xDD#8, 0x57#8, 0x12#8] = .instr (.fstMem true bx) 3 ∧
    decode c16 [0xDF#8, 0x57#8, 0x12#8] = .instr (.fist true bx) 3 ∧
    decode c16 [0xDD#8, 0xD5#8] = .instr (.fstSt 5#3) 2 ∧
    decode c16 [0xD9#8, 0x5F#8, 0x12#8] = .instr (.fstpMem false bx) 3 ∧
    decode c16 [0xDB#8, 0x5F#8, 0x12#8] = .instr (.fistp false bx) 3 ∧
    decode c16 [0xDD#8, 0x5F#8, 0x12#8] = .instr (.fstpMem true bx) 3 ∧
    decode c16 [0xDF#8, 0x5F#8, 0x12#8] = .instr (.fistp true bx) 3 ∧
    decode c16 [0xDF#8, 0x7F#8, 0x12#8] = .instr (.fistpM64 bx) 3 ∧
    decode c16 [0xDB#8, 0x7F#8, 0x12#8] = .instr (.fstpM80 bx) 3 ∧
    decode c16 [0xDF#8, 0x77#8, 0x12#8] = .instr (.fbstp bx) 3 := by decide

theorem test_decode_npx2 :
    decode c16 [0xDD#8, 0xDD#8] = .instr (.fstpSt 5#3) 2 ∧
    decode c16 [0xD9#8, 0xCD#8] = .instr (.fxch 5#3) 2 ∧
    decode c16 [0xD8#8, 0x57#8, 0x12#8] = .instr (.fcomMem false bx) 3 ∧
    decode c16 [0xDA#8, 0x57#8, 0x12#8] = .instr (.ficom false bx) 3 ∧
    decode c16 [0xDC#8, 0x57#8, 0x12#8] = .instr (.fcomMem true bx) 3 ∧
    decode c16 [0xDE#8, 0x57#8, 0x12#8] = .instr (.ficom true bx) 3 ∧
    decode c16 [0xD8#8, 0xD5#8] = .instr (.fcomSt 5#3) 2 ∧
    decode c16 [0xD8#8, 0x5F#8, 0x12#8] = .instr (.fcompMem false bx) 3 ∧
    decode c16 [0xDA#8, 0x5F#8, 0x12#8] = .instr (.ficomp false bx) 3 ∧
    decode c16 [0xDC#8, 0x5F#8, 0x12#8] = .instr (.fcompMem true bx) 3 ∧
    decode c16 [0xDE#8, 0x5F#8, 0x12#8] = .instr (.ficomp true bx) 3 ∧
    decode c16 [0xD8#8, 0xDD#8] = .instr (.fcompSt 5#3) 2 ∧
    decode c16 [0xDE#8, 0xD9#8] = .instr .fcompp 2 ∧
    decode c16 [0xDD#8, 0xE5#8] = .instr (.fucom 5#3) 2 ∧
    decode c16 [0xDD#8, 0xED#8] = .instr (.fucomp 5#3) 2 ∧
    decode c16 [0xDA#8, 0xE9#8] = .instr .fucompp 2 ∧
    decode c16 [0xD9#8, 0xE4#8] = .instr .ftst 2 ∧
    decode c16 [0xD9#8, 0xE5#8] = .instr .fxam 2 ∧
    decode c16 [0xD9#8, 0xEE#8] = .instr .fldz 2 ∧
    decode c16 [0xD9#8, 0xE8#8] = .instr .fld1 2 := by decide

theorem test_decode_npx3 :
    decode c16 [0xD9#8, 0xEB#8] = .instr .fldpi 2 ∧
    decode c16 [0xD9#8, 0xE9#8] = .instr .fldl2t 2 ∧
    decode c16 [0xD9#8, 0xEA#8] = .instr .fldl2e 2 ∧
    decode c16 [0xD9#8, 0xEC#8] = .instr .fldlg2 2 ∧
    decode c16 [0xD9#8, 0xED#8] = .instr .fldln2 2 ∧
    decode c16 [0xD8#8, 0x47#8, 0x12#8] = .instr (.faddMem false bx) 3 ∧
    decode c16 [0xDA#8, 0x47#8, 0x12#8] = .instr (.fiadd false bx) 3 ∧
    decode c16 [0xDC#8, 0x47#8, 0x12#8] = .instr (.faddMem true bx) 3 ∧
    decode c16 [0xDE#8, 0x47#8, 0x12#8] = .instr (.fiadd true bx) 3 ∧
    decode c16 [0xD8#8, 0xC5#8] = .instr (.faddSt false 5#3) 2 ∧
    decode c16 [0xDC#8, 0xC5#8] = .instr (.faddSt true 5#3) 2 ∧
    decode c16 [0xDE#8, 0xC5#8] = .instr (.faddp 5#3) 2 ∧
    decode c16 [0xD8#8, 0x67#8, 0x12#8] = .instr (.fsubMem false bx) 3 ∧
    decode c16 [0xD8#8, 0x6F#8, 0x12#8] = .instr (.fsubrMem false bx) 3 ∧
    decode c16 [0xDA#8, 0x67#8, 0x12#8] = .instr (.fisub false bx) 3 ∧
    decode c16 [0xDA#8, 0x6F#8, 0x12#8] = .instr (.fisubr false bx) 3 ∧
    decode c16 [0xDC#8, 0x67#8, 0x12#8] = .instr (.fsubMem true bx) 3 ∧
    decode c16 [0xDC#8, 0x6F#8, 0x12#8] = .instr (.fsubrMem true bx) 3 ∧
    decode c16 [0xDE#8, 0x67#8, 0x12#8] = .instr (.fisub true bx) 3 ∧
    decode c16 [0xDE#8, 0x6F#8, 0x12#8] = .instr (.fisubr true bx) 3 := by decide

theorem test_decode_npx4 :
    decode c16 [0xD8#8, 0xE5#8] = .instr (.fsubSt false 5#3) 2 ∧
    decode c16 [0xD8#8, 0xED#8] = .instr (.fsubrSt false 5#3) 2 ∧
    decode c16 [0xDC#8, 0xE5#8] = .instr (.fsubrSt true 5#3) 2 ∧
    decode c16 [0xDC#8, 0xED#8] = .instr (.fsubSt true 5#3) 2 ∧
    decode c16 [0xDE#8, 0xE5#8] = .instr (.fsubrp 5#3) 2 ∧
    decode c16 [0xDE#8, 0xED#8] = .instr (.fsubp 5#3) 2 ∧
    decode c16 [0xD8#8, 0x4F#8, 0x12#8] = .instr (.fmulMem false bx) 3 ∧
    decode c16 [0xDA#8, 0x4F#8, 0x12#8] = .instr (.fimul false bx) 3 ∧
    decode c16 [0xDC#8, 0x4F#8, 0x12#8] = .instr (.fmulMem true bx) 3 ∧
    decode c16 [0xDE#8, 0x4F#8, 0x12#8] = .instr (.fimul true bx) 3 ∧
    decode c16 [0xD8#8, 0xCD#8] = .instr (.fmulSt false 5#3) 2 ∧
    decode c16 [0xDC#8, 0xCD#8] = .instr (.fmulSt true 5#3) 2 ∧
    decode c16 [0xDE#8, 0xCD#8] = .instr (.fmulp 5#3) 2 ∧
    decode c16 [0xD8#8, 0x77#8, 0x12#8] = .instr (.fdivMem false bx) 3 ∧
    decode c16 [0xD8#8, 0x7F#8, 0x12#8] = .instr (.fdivrMem false bx) 3 ∧
    decode c16 [0xDA#8, 0x77#8, 0x12#8] = .instr (.fidiv false bx) 3 ∧
    decode c16 [0xDA#8, 0x7F#8, 0x12#8] = .instr (.fidivr false bx) 3 ∧
    decode c16 [0xDC#8, 0x77#8, 0x12#8] = .instr (.fdivMem true bx) 3 ∧
    decode c16 [0xDC#8, 0x7F#8, 0x12#8] = .instr (.fdivrMem true bx) 3 ∧
    decode c16 [0xDE#8, 0x77#8, 0x12#8] = .instr (.fidiv true bx) 3 := by decide

theorem test_decode_npx5 :
    decode c16 [0xDE#8, 0x7F#8, 0x12#8] = .instr (.fidivr true bx) 3 ∧
    decode c16 [0xD8#8, 0xF5#8] = .instr (.fdivSt false 5#3) 2 ∧
    decode c16 [0xD8#8, 0xFD#8] = .instr (.fdivrSt false 5#3) 2 ∧
    decode c16 [0xDC#8, 0xF5#8] = .instr (.fdivrSt true 5#3) 2 ∧
    decode c16 [0xDC#8, 0xFD#8] = .instr (.fdivSt true 5#3) 2 ∧
    decode c16 [0xDE#8, 0xF5#8] = .instr (.fdivrp 5#3) 2 ∧
    decode c16 [0xDE#8, 0xFD#8] = .instr (.fdivp 5#3) 2 ∧
    decode c16 [0xD9#8, 0xFA#8] = .instr .fsqrt 2 ∧
    decode c16 [0xD9#8, 0xFD#8] = .instr .fscale 2 ∧
    decode c16 [0xD9#8, 0xF8#8] = .instr .fprem 2 ∧
    decode c16 [0xD9#8, 0xF5#8] = .instr .fprem1 2 ∧
    decode c16 [0xD9#8, 0xFC#8] = .instr .frndint 2 ∧
    decode c16 [0xD9#8, 0xF4#8] = .instr .fxtract 2 ∧
    decode c16 [0xD9#8, 0xE1#8] = .instr .fabs 2 ∧
    decode c16 [0xD9#8, 0xE0#8] = .instr .fchs 2 ∧
    decode c16 [0xD9#8, 0xF2#8] = .instr .fptan 2 ∧
    decode c16 [0xD9#8, 0xF3#8] = .instr .fpatan 2 ∧
    decode c16 [0xD9#8, 0xFE#8] = .instr .fsin 2 ∧
    decode c16 [0xD9#8, 0xFF#8] = .instr .fcos 2 ∧
    decode c16 [0xD9#8, 0xFB#8] = .instr .fsincos 2 := by decide

theorem test_decode_npx6 :
    decode c16 [0xD9#8, 0xF0#8] = .instr .f2xm1 2 ∧
    decode c16 [0xD9#8, 0xF1#8] = .instr .fyl2x 2 ∧
    decode c16 [0xD9#8, 0xF9#8] = .instr .fyl2xp1 2 ∧
    decode c286 [0xDB#8, 0xE4#8] = .instr .fsetpm 2 ∧
    decode c16 [0xDB#8, 0xE3#8] = .instr .finit 2 ∧
    decode c16 [0xDF#8, 0xE0#8] = .instr .fstswAx 2 ∧
    decode c16 [0xD9#8, 0x6F#8, 0x12#8] = .instr (.fldcw bx) 3 ∧
    decode c16 [0xD9#8, 0x7F#8, 0x12#8] = .instr (.fstcw bx) 3 ∧
    decode c16 [0xDD#8, 0x7F#8, 0x12#8] = .instr (.fstsw bx) 3 ∧
    decode c16 [0xDB#8, 0xE2#8] = .instr .fclex 2 ∧
    decode c16 [0xD9#8, 0x77#8, 0x12#8] = .instr (.fstenv bx) 3 ∧
    decode c16 [0xD9#8, 0x67#8, 0x12#8] = .instr (.fldenv bx) 3 ∧
    decode c16 [0xDD#8, 0x77#8, 0x12#8] = .instr (.fsave bx) 3 ∧
    decode c16 [0xDD#8, 0x67#8, 0x12#8] = .instr (.frstor bx) 3 ∧
    decode c16 [0xD9#8, 0xF7#8] = .instr .fincstp 2 ∧
    decode c16 [0xD9#8, 0xF6#8] = .instr .fdecstp 2 ∧
    decode c16 [0xDD#8, 0xC5#8] = .instr (.ffree 5#3) 2 ∧
    decode c16 [0xD9#8, 0xD0#8] = .instr .fnop 2 := by decide

/-! More words of 95_test_vectors.md sections 2.1, and encodings that are refused (R165 to R171). -/

theorem test_decode_modes :
    decode c16 [0xA1#8, 0x34#8, 0x12#8] = .instr (.movAccMem true (.o16 0x1234#16)) 3 ∧
    decode c16 [0x8B#8, 0x1E#8, 0x34#8, 0x12#8] = .instr (.movRegRm true rBX (.mem (.direct16 0x1234#16))) 4 ∧
    decode c16 [0x8B#8, 0x89#8, 0x34#8, 0x12#8] = .instr (.movRegRm true rCX (.mem (.a16 1#3 (.d16 0x1234#16)))) 4 ∧
    decode c16 [0x88#8, 0x4B#8, 0x10#8] = .instr (.movRmReg false rCX (.mem (.a16 3#3 (.d8 0x10#8)))) 3 ∧
    decode c32 [0x8B#8, 0x4C#8, 0xEC#8, 0xFC#8] = .instr (.movRegRm true rCX (.mem (.sib 3#2 rBP rSP (.d8 0xFC#8)))) 4 ∧
    decode c32 [0xA1#8, 0x78#8, 0x56#8, 0x34#8, 0x12#8] = .instr (.movAccMem true (.o32 0x12345678#32)) 5 ∧
    decode c32 [0x8B#8, 0x04#8, 0x45#8, 0x00#8, 0x01#8, 0x00#8, 0x00#8] =
      .instr (.movRegRm true rAX (.mem (.sibNoBase 1#2 rAX 0x100#32))) 7 ∧
    decode c32 [0x68#8, 0x78#8, 0x56#8, 0x34#8, 0x12#8] = .instr (.pushImm false (.i32 0x12345678#32)) 5 ∧
    decode c32 [0xE8#8, 0x00#8, 0x10#8, 0x00#8, 0x00#8] = .instr (.callNear (.i32 0x1000#32)) 5 := by decide
theorem test_decode_undefined :
    decode c16 [0x0F#8, 0x0B#8] = .stop .ud ∧ decode c286 [0x0F#8, 0xA3#8, 0x07#8] = .stop .ud ∧
    decode c386 [0x0F#8, 0xC8#8] = .stop .ud ∧ decode c286 [0x66#8, 0x90#8] = .stop .ud ∧
    decode c16 [0x8E#8, 0xC8#8] = .stop .ud ∧ decode c16 [0x8E#8, 0xF0#8] = .stop .ud ∧
    decode c16 [0x8D#8, 0xC0#8] = .stop .ud ∧ decode c16 [0xC4#8, 0xC0#8] = .stop .ud ∧
    decode c16 [0x0F#8, 0xBA#8, 0xC0#8, 0x01#8] = .stop .ud := by decide
theorem test_decode_refused :
    decode c16 [0xD0#8, 0xF0#8] = .stop .undocumented ∧ decode c16 [0xD5#8, 0x10#8] = .stop .undocumented ∧
    decode c32 [0x8B#8, 0x04#8] = .stop .more := by decide
/-- R144, R152, R421: ss beside no index; bit 5 on the 80286; the mod bits of MOV from CR0. -/
theorem test_decode_ignored_bits :
    decode c32 [0x8B#8, 0x04#8, 0x60#8] = .instr (.movRegRm true rAX (.mem (.sib 1#2 4#3 rAX .none))) 3 ∧
    decode c286 [0x8E#8, 0xE0#8] = .instr (.movSregRm .es (.reg rAX)) 2 ∧
    decode c16 [0x0F#8, 0x20#8, 0x00#8] = .instr (.movFromCr .cr0 rAX) 3 := by decide

/-! States. -/

/-- Real-address mode, code at 0000:0100, stack pointer 1000, the registers of vector X9. -/
def machineOf (cpu : Cpu) (npx : Npx) : State :=
  let s := State.resetFor (Config.standard cpu npx)
  { s with
    eip := 0x100#32
    segs := { s.segs with cs := { s.segs.cs with sel := 0#16, base := 0#32 } }
    gpr := ⟨0x1111#32, 0x2222#32, 0x3333#32, 0x4444#32, 0x1000#32, 0x5555#32, 0x6666#32, 0x7777#32⟩
    fpu := { s.fpu with status := FpuStatus.ofWord 0#16 } }

def real : State := machineOf .p486 .integrated
def real386 : State := machineOf .p386 .n387
def real286 : State := machineOf .p286 .n287

/-- The state under a 32-bit operand size (a prefix is fetched). -/
def wide (s : State) : State := s.setCur { Cur.start with len := 1, opSize := true }
/-- The state with an instruction of `n` bytes fetched. -/
def fetchedOf (s : State) (n : Nat) : State := s.setCur { s.cur with len := n }
/-- The state with a register changed. -/
def reg (s : State) (w : Width) (r : RegNum) (v : Val w) : State := s.regPut w r v
/-- The state with bytes in memory. -/
def poke (s : State) (a : Nat) : List Byte → State
  | [] => s
  | b :: bs => poke (s.setMem (memSet s.mem a b)) (a + 1) bs
/-- The state with the flag register changed. -/
def flg (s : State) (v : BitVec 32) : State := s.setFlags (Flags.ofWord v)

/-- A table with code at 8, data at 10, a local table at 18, an 80386 task state segment at 20, conforming code at 28,
an interrupt gate to 8:0200 at 1800 for vector 0; data segments reach FFFF. -/
def table : List Byte :=
  [0, 0, 0, 0, 0, 0, 0, 0, 0xFF, 0xFF, 0, 0, 0, 0x9B, 0, 0, 0xFF, 0xFF, 0, 0, 0, 0x93, 0, 0,
   0x0F, 0, 0, 0x30, 0, 0x82, 0, 0, 0x67, 0, 0, 0x20, 0, 0x89, 0, 0, 0xFF, 0xFF, 0, 0, 0, 0x9F, 0, 0]

/-- Protected mode at a level, every segment register usable. -/
def protOf (s : State) (l : BitVec 2) : State :=
  let y := s.sys
  let data : SegReg := ⟨0x10#16, 0#32, 0xFFFF#32, 0x93#8 ||| (l.setWidth 8 <<< 5), false, false, true⟩
  poke (poke { s with
    sys := { y with cr0 := { y.cr0 with pe := true }, cpl := l, gdtr := ⟨0x1000#32, 0x2F#16⟩, idtr := ⟨0x1800#32, 7#16⟩ }
    segs := ⟨data, ⟨8#16, 0#32, 0xFFFF#32, 0x9B#8 ||| (l.setWidth 8 <<< 5), false, false, true⟩, data, data, data, data⟩ }
    0x1000 table) 0x1800 [0x00, 0x02, 8, 0, 0, 0x8E, 0, 0]

def prot : State := protOf real 0#2
def prot3 : State := protOf real 3#2
/-- Virtual-8086 mode with an IOPL. -/
def v86Of (iopl : BitVec 2) : State :=
  { protOf real 3#2 with flags := { Flags.reset with vm := true, iopl := iopl }, segs := real.segs }

/-- The step goes on in a state with a property. -/
def goesOn (o : Host.Outcome State Fault Refusal) (f : State → Bool) : Bool :=
  match o with
  | .next t => f t
  | .fault _ => false
  | .refused _ => false

/-- The flags in the order OF SF ZF AF PF CF. -/
def osz (s : State) : List Bool := [s.flags.ovf, s.flags.sf, s.flags.zf, s.flags.af, s.flags.pf, s.flags.cf]
/-- A word in memory. -/
def word (s : State) (a : Nat) : Nat := (memGet s.mem (a + 1)).toNat * 256 + (memGet s.mem a).toNat

/-! Data transfer (vectors X of section 2.2). -/

theorem test_mov_immediate_boundary : goesOn (exec (.movRmImm true (.mem (.direct16 0xFFFE#16)) (.i16 0xBEEF#16)) real)
    (fun t => word t 0xFFFE == 0xBEEF) = true := by decide
/-- E1: a word at FFFF wraps: interrupt 13, whose frame holds the instruction's own address. -/
theorem test_mov_wraps : goesOn (exec (.movRegRm true rAX (.mem atBx)) (reg real .w16 rBX 0xFFFF#16))
    (fun t => t.reg .w16 rAX == 0x1111#16 && word t 0xFFA == 0x100 && t.reg .w16 rSP == 0xFFA#16) = true := by decide
/-- X1. -/
theorem test_mov_scaled : goesOn (exec (.movRegRm true rBX (.mem (.sib 1#2 rCX rAX .none)))
    (poke (reg (reg real .w32 rAX 0x1000#32) .w32 rCX 3#32) 0x1006 [0xEF, 0xBE]))
    (fun t => t.reg .w16 rBX == 0xBEEF#16) = true := by decide
/-- X2, X6. -/
theorem test_extend : goesOn (exec (.movsx false rAX (.reg rBX)) (reg real .w8 rBX 0x80#8))
      (fun t => t.reg .w16 rAX == 0xFF80#16) = true ∧
    goesOn (exec (.movzx true rAX (.reg rBX)) (reg (reg (wide real) .w16 rBX 0xFFFF#16) .w32 rAX 0x12345678#32))
      (fun t => t.reg .w32 rAX == 0xFFFF#32) = true := by decide
/-- X7. -/
theorem test_push_sp : goesOn (exec (.pushReg rSP) (reg real .w16 rSP 0x100#16))
    (fun t => word t 0xFE == 0x100 && t.reg .w16 rSP == 0xFE#16) = true := by decide
/-- X8. -/
theorem test_pop_sp : goesOn (exec (.popReg rSP) (poke (reg real .w16 rSP 0xFE#16) 0xFE [0x34, 0x12]))
    (fun t => t.reg .w16 rSP == 0x1234#16) = true := by decide
/-- X9. -/
theorem test_pusha : goesOn (exec .pusha (reg real .w16 rSP 0x100#16)) (fun t =>
      word t 0xFE == 0x1111 && word t 0xF6 == 0x100 && word t 0xF0 == 0x7777 && t.reg .w16 rSP == 0xF0#16) = true := by decide +kernel
/-- X10. -/
theorem test_popa : goesOn (exec .popa (poke (reg real .w16 rSP 0xF0#16) 0xF0 [0x77, 0x77, 0x66, 0x66, 0x55, 0x55, 0, 1, 0x44, 0x44]))
      (fun t => t.reg .w16 rDI == 0x7777#16 && t.reg .w16 rBP == 0x5555#16 && t.reg .w16 rBX == 0x4444#16 &&
        t.reg .w16 rSP == 0x100#16) = true := by decide
/-- X13. -/
theorem test_xchg : goesOn (exec (.xchgRmReg false rAX (.mem atBx))
    (poke (reg real .w8 rAX 0x11#8) 0x4444 [0x22])) (fun t => t.reg .w8 rAL == 0x22#8 && memGet t.mem 0x4444 == 0x11#8) =
      true := by decide
/-- X16, X17. -/
theorem test_lea : goesOn (exec (.lea rAX (.a16 4#3 (.d8 2#8))) (reg real .w16 rSI 0xFFFF#16))
      (fun t => t.reg .w16 rAX == 1#16) = true ∧
    goesOn (exec (.lea rAX (.a16 0#3 .none)) (reg (reg (wide real) .w16 rBX 0xF000#16) .w16 rSI 0x2000#16))
      (fun t => t.reg .w32 rAX == 0x1000#32) = true := by decide
/-- X18; a write appears in the output. -/
theorem test_ports : goesOn (exec (.inPort true 0x40#8) (real.setEnv { real.env with ioIn := [0x1234#32] }))
      (fun t => t.reg .w16 rAX == 0x1234#16 && t.env.ioIn == []) = true ∧
    goesOn (exec (.outDx false) real) (fun t => t.env.ioOut == [.port 0x3333#16 .w8 0x11#32]) = true := by decide
/-- X19. -/
theorem test_out_f0 : goesOn (exec (.outPort false 0xF0#8) ((reg real .w8 rAL 0#8).setLink ⟨true, true⟩))
    (fun t => t.link == ⟨false, false⟩) = true := by decide
/-- X21, X22. -/
theorem test_segment_loads : goesOn (exec (.movSregRm .ss (.reg rAX)) (reg real .w16 rAX 0x2000#16))
      (fun t => t.segs.ss.sel == 0x2000#16 && t.segs.ss.base == 0x20000#32 && t.ctl.shadow == .ss) = true ∧
    goesOn (exec (.lds rBX (.direct16 0x2000#16)) (poke real 0x2000 [0x34, 0x12, 0x00, 0x30]))
      (fun t => t.reg .w16 rBX == 0x1234#16 && t.segs.ds.base == 0x30000#32) = true := by decide
/-- Q16, Q17. -/
theorem test_xlat : goesOn (exec .xlat (poke (reg (reg real .w16 rBX 0x200#16) .w8 rAL 3#8) 0x203 [0x9C]))
      (fun t => t.reg .w8 rAL == 0x9C#8) = true ∧
    goesOn (exec .xlat (poke (reg (reg real .w16 rBX 0xFFFF#16) .w8 rAL 2#8) 1 [0x9D]))
      (fun t => t.reg .w8 rAL == 0x9D#8) = true := by decide
/-- X23, X24. -/
theorem test_lahf_sahf : goesOn (exec .lahf (flg real 0xD7#32)) (fun t => t.reg .w8 rAH == 0xD7#8) = true ∧
    goesOn (exec .sahf (reg real .w8 rAH 0xFF#8)) (fun t => t.flags.word == 0xD7#32) = true := by decide
/-- X26, X27. -/
theorem test_popf : goesOn (exec .popf (poke real286 0x1000 [0xFF, 0xFF])) (fun t => t.flags.word == 0x0FD7#32) = true ∧
    goesOn (exec .popf (poke real 0x1000 [0xFF, 0xFF])) (fun t => t.flags.word == 0x7FD7#32) = true := by decide

/-! Arithmetic (section 2.3). -/

/-- A1. -/
theorem test_add : goesOn (exec (.addRmReg true false rAX (.reg rBX)) (reg (reg real .w8 rAX 0x7F#8) .w8 rBX 1#8))
    (fun t => t.reg .w8 rAL == 0x80#8 && osz t == [true, true, false, true, false, false]) = true := by decide
/-- A12. -/
theorem test_adc : goesOn (exec (.adcAccImm true (.i16 0xFFFF#16)) (flg (reg real .w16 rAX 0xFFFF#16) 3#32))
    (fun t => t.reg .w16 rAX == 0xFFFF#16 && osz t == [false, true, false, true, true, true]) = true := by decide
/-- A17. -/
theorem test_sub : goesOn (exec (.subRmImm false false (.reg rBX) (.i8 0xFF#8)) (reg real .w8 rBX 0x7F#8))
    (fun t => t.reg .w8 rBX == 0x80#8 && osz t == [true, true, false, false, false, true]) = true := by decide
/-- A24. -/
theorem test_sbb : goesOn (exec (.sbbRmImm false false (.reg rBX) (.i8 0x7F#8)) (flg (reg real .w8 rBX 0x80#8) 3#32))
    (fun t => t.reg .w8 rBX == 0#8 && osz t == [true, false, true, true, true, false]) = true := by decide
/-- A31. -/
theorem test_cmp : goesOn (exec (.cmpAccImm true (.i16 0x8000#16)) (reg real .w16 rAX 0x7FFF#16))
    (fun t => t.reg .w16 rAX == 0x7FFF#16 && osz t == [true, true, false, false, true, true]) = true := by decide
/-- B3, B8. -/
theorem test_inc_dec : goesOn (exec (.incRm false (.reg rBX)) (flg (reg real .w8 rBX 0x7F#8) 3#32))
      (fun t => t.reg .w8 rBX == 0x80#8 && osz t == [true, true, false, true, false, true]) = true ∧
    goesOn (exec (.decRm false (.reg rBX)) (flg (reg real .w8 rBX 0#8) 3#32))
      (fun t => t.reg .w8 rBX == 0xFF#8 && osz t == [false, true, false, true, true, true]) = true := by decide
/-- B14, G17. -/
theorem test_neg_not : goesOn (exec (.neg false (.reg rBX)) (reg real .w8 rBX 0x80#8))
      (fun t => t.reg .w8 rBX == 0x80#8 && osz t == [true, true, false, false, false, true]) = true ∧
    goesOn (exec (.notRm false (.reg rBX)) (flg (reg real .w8 rBX 0xA5#8) 3#32))
      (fun t => t.reg .w8 rBX == 0x5A#8 && t.flags.cf) = true := by decide
/-- C1, C10. -/
theorem test_decimal : goesOn (exec .daa (reg real .w8 rAL 0x9B#8))
      (fun t => t.reg .w8 rAL == 1#8 && t.flags.af && t.flags.cf && !t.flags.sf && !t.flags.zf && !t.flags.pf) = true ∧
    goesOn (exec .das (flg (reg real .w8 rAL 0xEE#8) 0x13#32))
      (fun t => t.reg .w8 rAL == 0x88#8 && t.flags.af && t.flags.cf && t.flags.sf && t.flags.pf) = true := by decide
/-- C24 to C27: the processors differ. -/
theorem test_aaa : goesOn (exec .aaa (reg real286 .w16 rAX 0x01FF#16)) (fun t => t.reg .w16 rAX == 0x0205#16) = true ∧
    goesOn (exec .aaa (reg real .w16 rAX 0x01FF#16)) (fun t => t.reg .w16 rAX == 0x0305#16) = true := by decide
/-- C36, C37. -/
theorem test_aas :
    goesOn (exec .aas (flg (reg real286 .w16 rAX 0x0103#16) 0x12#32)) (fun t => t.reg .w16 rAX == 0x000D#16) = true ∧
    goesOn (exec .aas (flg (reg real .w16 rAX 0x0103#16) 0x12#32)) (fun t => t.reg .w16 rAX == 0xFF0D#16) = true := by
  decide
/-- C46, C51. -/
theorem test_aad_aam : goesOn (exec .aad (reg real .w16 rAX 0xFFFF#16)) (fun t => t.reg .w16 rAX == 0xF5#16) = true ∧
    goesOn (exec .aam (reg real .w8 rAL 0xFF#8)) (fun t => t.reg .w16 rAX == 0x1905#16) = true := by decide
/-- M5, M12. -/
theorem test_mul : goesOn (exec (.mul true (.reg rBX)) (reg (reg real .w16 rAX 0xFFFF#16) .w16 rBX 0xFFFF#16))
      (fun t => t.reg .w16 rDX == 0xFFFE#16 && t.reg .w16 rAX == 1#16 && t.flags.cf && t.flags.ovf) = true ∧
    goesOn (exec (.imulAcc false (.reg rBX)) (reg (reg real .w8 rAL 0x80#8) .w8 rBX 0xFF#8))
      (fun t => t.reg .w16 rAX == 0x80#16 && t.flags.cf && t.flags.ovf) = true := by decide
/-- M23, M25. -/
theorem test_imul_register :
    goesOn (exec (.imulRegRm rCX (.reg rBX)) (reg (reg real .w16 rCX 0x100#16) .w16 rBX 0x100#16))
      (fun t => t.reg .w16 rCX == 0#16 && t.flags.cf && t.flags.ovf) = true ∧
    goesOn (exec (.imulRegRmImm true rCX (.reg rBX) (.i8 2#8)) (reg real .w16 rBX 0xFFFF#16))
      (fun t => t.reg .w16 rCX == 0xFFFE#16 && !t.flags.cf) = true := by decide
/-- V8, V13. -/
theorem test_div : goesOn (exec (.div true (.reg rBX))
      (reg (reg (reg real .w16 rDX 0xFFFE#16) .w16 rAX 0xFFFF#16) .w16 rBX 0xFFFF#16))
      (fun t => t.reg .w16 rAX == 0xFFFF#16 && t.reg .w16 rDX == 0xFFFE#16) = true ∧
    goesOn (exec (.idiv false (.reg rBX)) (reg (reg real .w16 rAX 0xFF9C#16) .w8 rBX 7#8))
      (fun t => t.reg .w16 rAX == 0xFEF2#16) = true := by decide
/-- P7: the divide fault. -/
theorem test_div_fault : goesOn (exec (.div false (.reg rBX)) (poke (reg real .w8 rBX 0#8) 0 [0x00, 0x02, 0x00, 0x00]))
    (fun t => t.eip == 0x200#32 && word t 0xFFE == 2 && word t 0xFFC == 0 && word t 0xFFA == 0x100) = true := by decide
/-- W2, W8. -/
theorem test_convert : goesOn (exec .cbw (reg real .w16 rAX 0x0080#16)) (fun t => t.reg .w16 rAX == 0xFF80#16) = true ∧
    goesOn (exec .cwd (reg (reg (wide real) .w32 rAX 0x7FFFFFFF#32) .w32 rDX 0xFFFFFFFF#32))
      (fun t => t.reg .w32 rDX == 0#32) = true := by decide

/-! Shifts, rotates and logic (section 2.4). -/

/-- S1, S11. -/
theorem test_rotates : goesOn (exec (.rol false (.reg rBX) .one) (reg real .w8 rBX 0x81#8))
      (fun t => t.reg .w8 rBX == 3#8 && t.flags.cf && t.flags.ovf) = true ∧
    goesOn (exec (.ror false (.reg rBX) .one) (reg real .w8 rBX 3#8))
      (fun t => t.reg .w8 rBX == 0x81#8 && t.flags.cf && t.flags.ovf) = true := by decide
/-- S19, S29. -/
theorem test_carry_rotates : goesOn (exec (.rcl false (.reg rBX) (.imm 10#8)) (flg (reg real .w8 rBX 0x55#8) 3#32))
      (fun t => t.reg .w8 rBX == 0xAB#8 && !t.flags.cf) = true ∧
    goesOn (exec (.rcr true (.reg rBX) (.imm 2#8)) (reg real .w16 rBX 1#16))
      (fun t => t.reg .w16 rBX == 0x8000#16 && !t.flags.cf) = true := by decide
/-- S34, S42, S55. -/
theorem test_shifts : goesOn (exec (.shl false (.reg rBX) .one) (reg real .w8 rBX 0xC0#8))
      (fun t => t.reg .w8 rBX == 0x80#8 && t.flags.cf && !t.flags.ovf && t.flags.sf) = true ∧
    goesOn (exec (.shr false (.reg rBX) .one) (reg real .w8 rBX 0x81#8))
      (fun t => t.reg .w8 rBX == 0x40#8 && t.flags.cf && t.flags.ovf) = true ∧
    goesOn (exec (.sar true (.reg rBX) (.imm 20#8)) (reg real .w16 rBX 0x8000#16))
      (fun t => t.reg .w16 rBX == 0xFFFF#16 && t.flags.cf && t.flags.sf) = true := by decide
/-- S41: a count of 0; S7: the count is taken modulo 32. -/
theorem test_shift_count : goesOn (exec (.shl false (.reg rBX) .cl) (flg (reg (reg real .w8 rBX 0xFF#8) .w8 rCL 0x20#8) 3#32))
    (fun t => t.reg .w8 rBX == 0xFF#8 && t.flags.word == 3#32) = true := by decide
/-- T1, T9. -/
theorem test_double_shifts :
    goesOn (exec (.shldImm rCX (.reg rBX) 4#8) (reg (reg real .w16 rBX 0x1234#16) .w16 rCX 0xABCD#16))
      (fun t => t.reg .w16 rBX == 0x234A#16 && t.flags.cf) = true ∧
    goesOn (exec (.shrdImm rCX (.reg rBX) 4#8) (reg (reg real .w16 rBX 0x1234#16) .w16 rCX 0xABCD#16))
      (fun t => t.reg .w16 rBX == 0xD123#16 && !t.flags.cf && t.flags.sf) = true := by decide
/-- G1, G5, G9, G14. -/
theorem test_logic : goesOn (exec (.andAccImm false (.i8 0x0F#8)) (flg (reg real .w8 rAL 0xF0#8) 0x803#32))
      (fun t => t.reg .w8 rAL == 0#8 && t.flags.zf && t.flags.pf && !t.flags.cf && !t.flags.ovf) = true ∧
    goesOn (exec (.orAccImm false (.i8 0xAA#8)) (reg real .w8 rAL 0x55#8))
      (fun t => t.reg .w8 rAL == 0xFF#8 && t.flags.sf && t.flags.pf) = true ∧
    goesOn (exec (.xorRmReg true false rAX (.reg rAX)) real) (fun t => t.reg .w8 rAL == 0#8 && t.flags.zf) = true ∧
    goesOn (exec (.testAccImm true (.i16 0xFF00#16)) (reg real .w16 rAX 0xFF#16))
      (fun t => t.reg .w16 rAX == 0xFF#16 && t.flags.zf && t.flags.pf) = true := by decide

/-! Strings and bits (sections 2.5, 2.6). -/

/-- The index registers of the string vectors. -/
def strs (s : State) : State := reg (reg s .w16 rSI 0x100#16) .w16 rDI 0x200#16

/-- Q2. -/
theorem test_movs : goesOn (exec (.movs true) (flg (poke (strs real) 0x100 [0x5A, 0xA5]) 0x402#32))
    (fun t => word t 0x200 == 0xA55A && t.reg .w16 rSI == 0xFE#16 && t.reg .w16 rDI == 0x1FE#16) = true := by decide
/-- Q6, the third pair; the first pair goes on at the prefix. -/
theorem test_repe_cmps :
    goesOn (exec (.repeCmps false) (poke (poke (reg (strs real) .w16 rCX 2#16) 0x100 [0x43]) 0x200 [0x58]))
      (fun t => t.reg .w16 rCX == 1#16 && osz t == [false, true, false, true, true, true]) = true ∧
    goesOn (exec (.repeCmps false) (fetchedOf (reg (strs real) .w16 rCX 4#16) 2))
      (fun t => t.reg .w16 rCX == 3#16 && t.eip == 0x100#32 && t.cur == Cur.start) = true := by decide
/-- Q9, the last element; Q10: a count of 0. -/
theorem test_repne_scas :
    goesOn (exec (.repneScas false) (fetchedOf (reg (reg (strs real) .w8 rAL 0#8) .w16 rCX 0xFFFD#16) 2))
      (fun t => t.reg .w16 rCX == 0xFFFC#16 && t.flags.zf && t.eip == 0x102#32) = true ∧
    goesOn (exec (.repeScas false) (fetchedOf (reg real .w16 rCX 0#16) 2))
      (fun t => !t.flags.zf && t.eip == 0x102#32) = true := by decide
/-- Q13, Q18. -/
theorem test_lods_ins : goesOn (exec (.lods false) (poke (strs real) 0x100 [0x7E]))
      (fun t => t.reg .w16 rAX == 0x117E#16 && t.reg .w16 rSI == 0x101#16) = true ∧
    goesOn (exec (.ins false) ((strs real).setEnv { real.env with ioIn := [0x1C#32] }))
      (fun t => memGet t.mem 0x200 == 0x1C#8 && t.reg .w16 rDI == 0x201#16) = true := by decide
/-- Section 2.6: the offsets FFFF and 0010 from 2000. -/
theorem test_bt_memory : goesOn (exec (.btReg rAX (.mem atBx))
      (poke (reg (reg real .w16 rBX 0x2000#16) .w16 rAX 0xFFFF#16) 0x1FFF [0x80])) (fun t => t.flags.cf) = true ∧
    goesOn (exec (.btsReg rAX (.mem atBx)) (reg (reg real .w16 rBX 0x2000#16) .w16 rAX 0x10#16))
      (fun t => memGet t.mem 0x2002 == 1#8 && !t.flags.cf) = true := by decide
/-- K4, K5. -/
theorem test_bit_registers :
    goesOn (exec (.btrReg rBX (.reg rAX)) (reg (reg real .w16 rAX 0xFFFF#16) .w16 rBX 0xF#16))
      (fun t => t.reg .w16 rAX == 0x7FFF#16 && t.flags.cf) = true ∧
    goesOn (exec (.btcReg rBX (.reg rAX)) (reg (reg real .w16 rAX 1#16) .w16 rBX 0#16))
      (fun t => t.reg .w16 rAX == 0#16 && t.flags.cf) = true := by decide
/-- K7, K8, K9. -/
theorem test_scans : goesOn (exec (.bsf rAX (.reg rBX)) (reg real .w16 rBX 0x48#16))
      (fun t => t.reg .w16 rAX == 3#16 && !t.flags.zf) = true ∧
    goesOn (exec (.bsr rAX (.reg rBX)) (reg real .w16 rBX 0x48#16)) (fun t => t.reg .w16 rAX == 6#16) = true ∧
    goesOn (exec (.bsf rAX (.reg rBX)) (reg real .w16 rBX 0#16))
      (fun t => t.reg .w16 rAX == 0x1111#16 && t.flags.zf) = true := by decide
/-- I4, I5, I6, I7. -/
theorem test_xadd_cmpxchg :
    goesOn (exec (.xadd false rAX (.reg rAX)) (reg real .w8 rAL 0x40#8))
      (fun t => t.reg .w8 rAL == 0x80#8 && t.flags.ovf && t.flags.sf) = true ∧
    goesOn (exec (.cmpxchg true rCX (.mem (.direct16 0x700#16))) (poke (reg real .w16 rAX 1#16) 0x700 [0x0C, 0]))
      (fun t => t.reg .w16 rAX == 0xC#16 && word t 0x700 == 0xC && osz t == [false, true, false, true, true, true]) =
        true := by decide
/-- I1. -/
theorem test_bswap : goesOn (exec (.bswap rAX) (reg (wide real) .w32 rAX 0x12345678#32))
    (fun t => t.reg .w32 rAX == 0x78563412#32) = true := by decide

/-! Control transfer (section 2.7). -/

/-- J1, J6. -/
theorem test_near : goesOn (exec (.jmpShort 0xFE#8) (fetchedOf real 2)) (fun t => t.eip == 0x100#32) = true ∧
    goesOn (exec (.callNear (.i16 0x10#16)) (fetchedOf real 3))
      (fun t => t.eip == 0x113#32 && word t 0xFFE == 0x103 && t.reg .w16 rSP == 0xFFE#16) = true := by decide
/-- J8. -/
theorem test_ret : goesOn (exec (.retNearImm 4#16) (poke (reg real .w16 rSP 0xFFE#16) 0xFFE [3, 1]))
    (fun t => t.eip == 0x103#32 && t.reg .w16 rSP == 0x1004#16) = true := by decide
/-- J3: the target wraps at 64KB. J5: not taken. -/
theorem test_jumps : goesOn (exec (.jmpShort 0x10#8) (fetchedOf (real.setEip 0xFFF0#32) 2)) (fun t => t.eip == 2#32) =
      true ∧
    goesOn (exec (.jE (.i8 5#8)) (fetchedOf real 2)) (fun t => t.eip == 0x102#32) = true ∧
    goesOn (exec (.jE (.i8 5#8)) (fetchedOf (flg real 0x42#32) 2)) (fun t => t.eip == 0x107#32) = true := by decide
/-- J11. -/
theorem test_call_far : goesOn (exec (.callFar (.o16 0x100#16) 0x2000#16) (fetchedOf real 5)) (fun t =>
    word t 0xFFE == 0 && word t 0xFFC == 0x105 && t.segs.cs.base == 0x20000#32 && t.eip == 0x100#32) = true := by decide
/-- J15, J16, J19. -/
theorem test_loops : goesOn (exec (.loop 0xFE#8) (fetchedOf (reg real .w16 rCX 0#16) 2))
      (fun t => t.eip == 0x100#32 && t.reg .w16 rCX == 0xFFFF#16) = true ∧
    goesOn (exec (.loopz 0xFE#8) (fetchedOf (reg real .w16 rCX 5#16) 2))
      (fun t => t.eip == 0x102#32 && t.reg .w16 rCX == 4#16) = true ∧
    goesOn (exec (.jcxz 0xFE#8) (fetchedOf (reg real .w32 rCX 0x10000#32) 2)) (fun t => t.eip == 0x100#32) = true := by
  decide
/-- J22. -/
theorem test_enter : goesOn (exec (.enter 4#16 2#8)
    (poke (reg (reg real .w16 rSP 0x100#16) .w16 rBP 0x200#16) 0x1FE [0xAA, 0xAA])) (fun t => word t 0xFE == 0x200 &&
      word t 0xFC == 0xAAAA && word t 0xFA == 0xFE && t.reg .w16 rBP == 0xFE#16 && t.reg .w16 rSP == 0xF6#16) = true := by
  decide
/-- J23. -/
theorem test_leave : goesOn (exec .leave (poke (reg real .w16 rBP 0xFE#16) 0xFE [0, 2]))
    (fun t => t.reg .w16 rBP == 0x200#16 && t.reg .w16 rSP == 0x100#16) = true := by decide
/-- J24, J25. -/
theorem test_int : goesOn (exec (.intN 0x21#8) (fetchedOf (flg (poke real 0x84 [0x60, 4, 0, 0xF0]) 0x202#32) 2))
      (fun t => word t 0xFFE == 0x202 && word t 0xFFA == 0x102 && t.flags.word == 2#32 && t.segs.cs.sel == 0xF000#16 &&
        t.eip == 0x460#32) = true ∧
    goesOn (exec .iret (poke (reg real .w16 rSP 0xFFA#16) 0xFFA [2, 1, 0, 0x10, 2, 2])) (fun t => t.eip == 0x102#32 &&
        t.segs.cs.base == 0x10000#32 && t.flags.word == 0x202#32 && t.reg .w16 rSP == 0x1000#16) = true := by decide
/-- J30: a fault. J31. -/
theorem test_bound_setcc : goesOn (exec (.bound rAX atBx)
      (fetchedOf (poke (reg real .w16 rAX 0xFFFF#16) 0x4444 [0, 0, 10, 0]) 2)) (fun t => word t 0xFFA == 0x100) = true ∧
    goesOn (exec (.setE 0#3 (.reg rAX)) (flg real 0x42#32)) (fun t => t.reg .w8 rAL == 1#8) = true := by decide

/-! Processor control and protection (sections 2.8, 2.9). -/

/-- Z1, Z2. -/
theorem test_lgdt : goesOn (exec (.lgdt (.direct16 0x2000#16)) (poke real 0x2000 [0xFF, 7, 0, 0x10, 1, 0xAA]))
      (fun t => t.sys.gdtr == ⟨0x11000#32, 0x7FF#16⟩) = true ∧
    goesOn (exec (.lgdt (.direct16 0x2000#16)) (poke (wide real386) 0x2000 [0xFF, 7, 0, 0x10, 1, 0xAA]))
      (fun t => t.sys.gdtr == ⟨0xAA011000#32, 0x7FF#16⟩) = true := by decide
/-- Z4, Z5. -/
theorem test_lmsw : goesOn (exec (.lmsw (.reg rAX)) (reg real .w16 rAX 1#16)) (fun t => t.sys.cr0.pe) = true ∧
    goesOn (exec (.lmsw (.reg rAX)) (reg prot .w16 rAX 0#16)) (fun t => t.sys.cr0.pe) = true := by decide
/-- Z6. -/
theorem test_smsw : goesOn (exec (.smsw (.reg rAX)) real286) (fun t => t.reg .w16 rAX == 0xFFF0#16) = true := by decide
/-- Z12, Z15. -/
theorem test_arpl_lar : goesOn (exec (.arpl rAX (.reg rBX)) (reg (reg prot .w16 rBX 8#16) .w16 rAX 3#16))
      (fun t => t.reg .w16 rBX == 0xB#16 && t.flags.zf) = true ∧
    goesOn (exec (.lar rAX (.reg rBX)) (reg prot .w16 rBX 8#16)) (fun t => t.reg .w16 rAX == 0x9B00#16 && t.flags.zf) =
      true := by decide
/-- Z17, Z19. -/
theorem test_lsl_verw : goesOn (exec (.lsl rAX (.reg rBX)) (reg prot .w16 rBX 0x30#16))
      (fun t => t.reg .w16 rAX == 0x1111#16 && !t.flags.zf) = true ∧
    goesOn (exec (.verw (.reg rBX)) (reg prot .w16 rBX 0x10#16)) (fun t => t.flags.zf) = true ∧
    goesOn (exec (.verw (.reg rBX)) (reg prot .w16 rBX 8#16)) (fun t => !t.flags.zf) = true := by decide
/-- LTR marks the task state segment busy (R443). -/
theorem test_ltr : goesOn (exec (.ltr (.reg rAX)) (reg prot .w16 rAX 0x20#16))
    (fun t => memGet t.mem 0x1025 == 0x8B#8 && t.sys.tr.base == 0x2000#32) = true := by decide
/-- L1: the accessed bit. L2: the null selector. -/
theorem test_mov_ds : goesOn (exec (.movSregRm .ds (.reg rAX)) (poke (reg prot .w16 rAX 0x10#16) 0x1015 [0x92]))
      (fun t => t.segs.ds.sel == 0x10#16 && memGet t.mem 0x1015 == 0x93#8) = true ∧
    goesOn (exec (.movSregRm .ds (.reg rAX)) (reg prot .w16 rAX 0#16)) (fun t => !t.segs.ds.usable) = true := by decide
/-- A protected-mode interrupt through an 80386 gate pushes twelve bytes and clears IF (R611, R612). -/
theorem test_int_gate : goesOn (exec (.intN 0#8) (fetchedOf (flg prot 0x202#32) 2))
    (fun t => t.eip == 0x200#32 && t.reg .w16 rSP == 0xFF4#16 && !t.flags.ie) = true := by decide +kernel
/-- Z7: reserved cache control is #GP, here delivered through vector 13 of real-address mode. -/
theorem test_mov_cr0 : goesOn (exec (.movToCr .cr0 rAX) (poke (reg real .w32 rAX 0x20000010#32) 0x34 [0x00, 0x30]))
    (fun t => t.eip == 0x3000#32 && t.sys.cr0.cd) = true := by decide
/-- Z22: #NM. -/
theorem test_npx_ts : goesOn (exec .fld1 (poke (real.setSys { real.sys with cr0 := { real.sys.cr0 with ts := true } })
    0x1C [0x00, 0x30])) (fun t => t.eip == 0x3000#32 && t.fpu.status.top == 0#3) = true := by decide

/-! The coprocessor (section 2.11). -/

/-- A coprocessor stack, ST(0) first. -/
def stack (s : State) (vs : List (BitVec 80)) : State := s.setFpu (vs.reverse.foldl Fpu.pushRaw s.fpu)
def one : BitVec 80 := 0x3FFF8000000000000000#80
def two : BitVec 80 := 0x40008000000000000000#80

/-- N2, N44. -/
theorem test_fld1 : goesOn (exec .fld1 real) (fun t => t.fpu.status.top == 7#3 && t.fpu.regs.r7 == one &&
      t.fpu.tags.r7 == .valid) = true ∧
    goesOn (exec (.faddp 1#3) real) (fun t => t.fpu.st 0#3 == 0xFFFFC000000000000000#80 && t.fpu.status.ie &&
      t.fpu.status.sf && !t.fpu.status.c1) = true := by decide
/-- N4. -/
theorem test_faddp : goesOn (exec (.faddp 1#3) (stack real [0x4000C90FDAA22168C235#80, one])) (fun t =>
    t.fpu.st 0#3 == 0x40018487ED5110B4611A#80 && t.fpu.status.pe && !t.fpu.status.c1) = true := by decide
/-- N6, N8. -/
theorem test_fdiv : goesOn (exec (.fdivMem false (.direct16 0x2000#16)) (poke (stack real [one]) 0x2000 [0, 0, 0x40, 0x40]))
      (fun t => t.fpu.st 0#3 == 0x3FFDAAAAAAAAAAAAAAAB#80 && t.fpu.status.pe && t.fpu.status.c1) = true ∧
    goesOn (exec (.fdivMem false (.direct16 0x2000#16)) (poke ((stack real [one]).setFpu
        { (stack real [one]).fpu with cw := 0x027F#16 }) 0x2000 [0, 0, 0x40, 0x40]))
      (fun t => t.fpu.st 0#3 == 0x3FFDAAAAAAAAAAAAA800#80 && !t.fpu.status.c1) = true := by decide
/-- N10, N12. -/
theorem test_fsqrt : goesOn (exec .fsqrt (stack real [two]))
      (fun t => t.fpu.st 0#3 == 0x3FFFB504F333F9DE6484#80 && t.fpu.status.pe && !t.fpu.status.c1) = true ∧
    goesOn (exec .fsqrt (stack real [0xBFFF8000000000000000#80]))
      (fun t => t.fpu.st 0#3 == 0xFFFFC000000000000000#80 && t.fpu.status.ie) = true := by decide
/-- N14 (nearest), N17. -/
theorem test_fist : goesOn (exec (.fist true (.direct16 0x2000#16)) (stack real [0x4000A000000000000000#80]))
      (fun t => word t 0x2000 == 2 && t.fpu.status.pe) = true ∧
    goesOn (exec (.fist true (.direct16 0x2000#16)) (stack real [0x400E8000000000000000#80]))
      (fun t => word t 0x2000 == 0x8000 && t.fpu.status.ie) = true := by decide
/-- N20. -/
theorem test_fbstp : goesOn (exec (.fbstp (.direct16 0x2000#16)) (stack real [0xC0099A40000000000000#80]))
      (fun t => word t 0x2000 == 0x1234 && memGet t.mem 0x2009 == 0x80#8 && t.fpu.status.top == 0#3) =
      true := by decide +kernel
/-- N23. -/
theorem test_fbld : goesOn (exec (.fbld (.direct16 0x2000#16))
        (poke real 0x2000 [0x99, 0x99, 0x99, 0x99, 0x99, 0x99, 0x99, 0x99, 0x99, 0]))
      (fun t => t.fpu.st 0#3 == 0x403ADE0B6B3A763FFFF0#80) = true := by decide
/-- N26, N29. -/
theorem test_short_real : goesOn (exec (.fldMem false (.direct16 0x2000#16)) (poke real 0x2000 [0xCD, 0xCC, 0xCC, 0x3D]))
      (fun t => t.fpu.st 0#3 == 0x3FFBCCCCCD0000000000#80) = true ∧
    goesOn (exec (.fstMem false (.direct16 0x2000#16)) (stack real [0x4000C90FDAA22168C235#80]))
      (fun t => word t 0x2000 == 0x0FDB && word t 0x2002 == 0x4049 && t.fpu.status.c1) = true := by decide
/-- N31, N33, N39. -/
theorem test_compare : goesOn (exec (.fcomSt 1#3) (stack real [one, two]))
      (fun t => !t.fpu.status.c3 && !t.fpu.status.c2 && t.fpu.status.c0) = true ∧
    goesOn (exec (.fcomSt 1#3) (stack real [0#80, 0x80000000000000000000#80]))
      (fun t => t.fpu.status.c3 && !t.fpu.status.c2 && !t.fpu.status.c0) = true ∧
    goesOn (exec .fxam (stack real [0xFFFF8000000000000000#80]))
      (fun t => !t.fpu.status.c3 && t.fpu.status.c2 && t.fpu.status.c1 && t.fpu.status.c0) = true := by decide
/-- N50, N51. -/
theorem test_fxtract_fscale : goesOn (exec .fxtract (stack real [0x4002C000000000000000#80])) (fun t =>
      t.fpu.st 1#3 == 0x4000C000000000000000#80 && t.fpu.st 0#3 == 0x3FFFC000000000000000#80) = true ∧
    goesOn (exec .fscale (stack real [0x3FFFC000000000000000#80, 0x4000C000000000000000#80]))
      (fun t => t.fpu.st 0#3 == 0x4002C000000000000000#80) = true := by decide
/-- N52, N53. -/
theorem test_remainders : goesOn (exec .fprem (stack real [0x4001E000000000000000#80, two])) (fun t =>
      t.fpu.st 0#3 == one && !t.fpu.status.c0 && t.fpu.status.c3 && t.fpu.status.c1 && !t.fpu.status.c2) = true ∧
    goesOn (exec .fprem1 (stack real [0x4001E000000000000000#80, two])) (fun t =>
      t.fpu.st 0#3 == 0xBFFF8000000000000000#80 && t.fpu.status.c0 && !t.fpu.status.c3 && !t.fpu.status.c1) = true := by
  decide
/-- N54, N48. -/
theorem test_fyl2x_frndint : goesOn (exec .fyl2x (stack real [0x40028000000000000000#80, one]))
      (fun t => t.fpu.st 0#3 == 0x4000C000000000000000#80) = true ∧
    goesOn (exec .frndint (stack real [0x4000A000000000000000#80])) (fun t => t.fpu.st 0#3 == two && t.fpu.status.pe) =
      true := by decide
/-- N58, N60. -/
theorem test_control_images : goesOn (exec (.fstcw (.direct16 0x2000#16)) real) (fun t => word t 0x2000 == 0x37F) = true ∧
    goesOn (exec (.fstenv (.direct16 0x2000#16)) real386)
      (fun t => word t 0x2000 == 0x37F && word t 0x2004 == 0xFFFF && t.fpu.cw == 0x37F#16) = true := by decide
/-- N64, N65: a zero divide, masked and not. -/
theorem test_zero_divide : goesOn (exec (.fdivSt false 1#3) (stack real [one, 0#80]))
      (fun t => t.fpu.st 0#3 == 0x7FFF8000000000000000#80 && t.fpu.status.ze) = true ∧
    goesOn (exec (.fdivSt false 1#3) ((stack real [one, 0#80]).setFpu { (stack real [one, 0#80]).fpu with cw := 0x37B#16 }))
      (fun t => t.fpu.st 0#3 == one && t.fpu.status.es && t.link.irq13) = true := by decide

/-- R212: PUSHA with SP = 3 in real-address mode pushes one word, then the 80286 shuts down. -/
theorem test_pusha_wrap : goesOn (exec .pusha (reg (reg real286 .w16 rSP 3#16) .w16 rAX 0x1234#16)) (fun t =>
    t.ctl.activity == .shutdown && word t 1 == 0x1234) = true := by decide

/-- R424, U13: a coprocessor instruction where none is fitted; R552: DB E0 on an 80387. -/
theorem test_no_coprocessor : goesOn (exec .fldpi (machineOf .p386 .absent))
      (fun t => t.fpu == (machineOf .p386 .absent).fpu) = true ∧
    goesOn (exec (.esc 3#3 4#3 (.reg 0#3)) real386) (fun t => t.fpu == real386.fpu) = true := by decide

/-- R643: a word written to F1 resets an 80387; its error signal becomes active (R50, R641). Section 7 of 48_x87.md: FIADD raises no DE for a denormal ST(0). -/
theorem test_f1_fiadd : goesOn (exec (.outPort true 0xF1#8) (stack real386 [one]))
      (fun t => t.fpu == Fpu.reset real386.cfg && t.link == ⟨true, true⟩) = true ∧
    goesOn (exec (.fiadd true (.direct16 0x2000#16)) (stack real [1#80])) (fun t => !t.fpu.status.de) = true := by decide
/-- R106: a write through a cached entry with D = 0 finds its tables changed to not present: a page fault, and the entry
is gone; a cached entry that allows the read is used without the tables. -/
theorem test_stale_entry :
    let s := (real.setSys { real.sys with cr0 := { real.sys.cr0 with pe := true, pg := true } }).setTlb
      [⟨0x401#20, 0x300#20, true, true, false⟩]
    (match linAddrs 0x401234#32 1 true true s with
      | .error (.exc ⟨14#8, some 6#16⟩) t => t.tlb == []
      | _ => false) = true ∧
    (match linAddrs 0x401234#32 1 false true s with
      | .ok [0x300234] t => t == s
      | _ => false) = true := by decide
/-- R380, R604: on the 80286 in real-address mode a far CALL with SP = 3 shuts down and has written nothing. R530: FPTAN
of an infinity (masked) leaves the real indefinite in both registers. -/
theorem test_far_call_286 :
    goesOn (exec (.callFar (.o16 0x100#16) 8#16) (reg real286 .w16 rSP 3#16))
      (fun t => t.ctl.activity == .shutdown && t.mem == real286.mem) = true ∧
    goesOn (exec .fptan (stack real [0x7FFF8000000000000000#80]))
      (fun t => t.fpu.st 0#3 == realIndefinite && t.fpu.st 1#3 == realIndefinite) = true := by decide
/-- R606: ENTER of level 3 whose stack pointer would end outside the segment stores none of its four words: the fourth,
below the frame of #SS, stays 0. R620: no trap between a load of SS and the end of the repeated instruction after it. -/
theorem test_enter_shadow :
    let s := (poke real 0x30 [0x00, 0x30]).setSegs { real.segs with ss := { real.segs.ss with limit := 0xFFF#32 } }
    let t := (poke real 0x100 [0xF3, 0xA4]).setCtl { real.ctl with shadow := .ss, dbPending := true }
    goesOn (exec (.enter 0x1002#16 3#8) (reg s .w16 rBP 0x800#16))
      (fun u => word u 0xFF8 == 0 && word u 0xFFA == 0x100 && u.eip == 0x3000#32) = true ∧
    goesOn (step t) (fun u => u.eip == 0x100#32 && u.reg .w16 rCX == 0x2221#16 && u.ctl.shadow == .ss) = true := by
  decide

/-! Steps. -/

/-- The instruction at the program counter after reset runs. -/
theorem test_step_reset : goesOn (step (State.reset.withFetchWord 24 0x1234B8))
    (fun t => t.reg .w16 rAX == 0x1234#16 && t.eip == 0xFFF3#32) = true := by decide
/-- H13: the single-step trap. H7: a vector outside the table ends in shutdown. -/
theorem test_events : goesOn (step ((poke real 4 [0x00, 0x30]).setCtl { real.ctl with dbPending := true }))
      (fun t => t.eip == 0x3000#32 && word t 0xFFA == 0x100) = true ∧
    goesOn (deliver ⟨8#8, .request, 0x100#32, none⟩ (real.setSys { real.sys with idtr := ⟨0#32, 0x1F#16⟩ }))
      (fun t => t.ctl.activity == .shutdown) = true := by decide
/-- `prot` with a longer interrupt table: the gate of a vector is there but not present, that of vector 11 is of
16 bits, to 8:0200. -/
def gateless (v : Nat) : State :=
  poke (poke (prot.setSys { prot.sys with idtr := ⟨0x1800#32, 0x5F#16⟩ }) (0x1800 + 8 * v) [0, 2, 8, 0, 0, 0x0E, 0, 0])
    0x1858 [0, 2, 8, 0, 0, 0x86, 0, 0]
/-- R604: an NMI and a trap whose gates are not present: #NP is entered, and they recur after IRET. -/
theorem test_recurring :
    goesOn (step ((gateless 2).setEnv { prot.env with nmiIn := [true] }))
      (fun t => t.eip == 0x200#32 && t.ctl.nmiPending && t.ctl.nmiBlocked && word t 0xFF8 == 0x13) = true ∧
    goesOn (step ((gateless 1).setCtl { prot.ctl with dbPending := true }))
      (fun t => t.eip == 0x200#32 && t.ctl.trapHeld && !t.ctl.dbPending) = true ∧
    goesOn (exec .iret (real.setCtl { real.ctl with trapHeld := true }))
      (fun t => t.ctl.dbPending && !t.ctl.trapHeld) = true := by decide +kernel
/-- LOCK before an instruction that R135 does not list is #UD: vector 6. -/
theorem test_lock : goesOn (step ((poke (poke real 0x100 [0x8B, 0x07]) 0x18 [0x00, 0x30]).setCur
    { Cur.start with lock := true, len := 1 })) (fun t => t.eip == 0x3000#32) = true := by decide

/-! Witnesses: a state and operands that meet the hypotheses of each statement of the certificate, the clauses one by
one at a boundary where they have one. -/

/-- The last word of a segment. -/
abbrev top : MemOp := .direct16 0xFFFE#16
/-- Registers for the witnesses that need a count of 0, or a value. -/
def cl (v : BitVec 8) : State := reg real .w8 rCL v

theorem witness_MovCompletes :
    real.rmWrites (real.opW true) (.mem top) = true ∧ real.rmReads (real.opW true) (.mem top) = true ∧
    real.reaches real.directSeg (Off.val (.o16 0xFFFE#16)) 2 false 2 = true ∧
    prot3.reaches prot3.directSeg (Off.val (.o16 0xFFFE#16)) 2 true 2 = true := by decide
/-- Offsets where the sum passes 2^16 and 2^32, and where it falls below 0; an override and none. -/
theorem witness_ExtendCompletes :
    let s := reg real .w16 rBX 0xFFFF#16
    let t := reg real .w32 rBX 0xFFFFFFFF#32
    let x (v : BitVec 16) : Int := v.toNat
    let y (v : BitVec 32) : Int := v.toNat
    real.rmReads (extSource true) (.mem top) = true ∧ real.rmReads (extSource false) (.mem (.direct16 0xFFFF#16)) = true ∧
    (x (s.reg .w16 rBX) + x (s.reg .w16 rSI)) % 65536 = 0x6665 ∧
    (x (s.reg .w16 rBX) + (0x7F#8 : BitVec 8).toInt) % 65536 = 0x7E ∧
    (x ((reg real .w16 rBX 0#16).reg .w16 rBX) + (0x80#8 : BitVec 8).toInt) % 65536 = 0xFF80 ∧
    (y (t.reg .w32 rAX) + 8 * y (t.reg .w32 rBX) + (0x80#8 : BitVec 8).toInt) % 4294967296 = 0x1089 ∧
    ¬ ((4#3 : BitVec 3) = 4#3 ∧ (0#2 : BitVec 2) ≠ 0#2) ∧ ¬ ((3#3 : BitVec 3) = 4#3 ∧ (3#2 : BitVec 2) ≠ 0#2) ∧
    real.cur.seg = none ∧ (real.setCur { real.cur with seg := some .es }).cur.seg = some .es := by decide
theorem witness_SegmentMovesComplete : real.protMode = false ∧ real.rmReads .w16 (.mem top) = true ∧
    (SReg.ds ≠ .ss) ∧ (SReg.ds ≠ .cs) ∧ real.os = .s16 ∧ (wide real).os = .s32 ∧
    real.reaches (real.memSeg top) (real.ea top) 2 true 2 = true ∧
    (real.reaches (real.memSeg (.direct16 0xFFFC#16)) (real.ea (.direct16 0xFFFC#16)) 2 false 2 &&
      real.reaches (real.memSeg (.direct16 0xFFFC#16)) (real.ea (.direct16 0xFFFC#16) + 2#32) 2 false 2) = true := by
  decide

/-- A descriptor of the table. -/
def descIn (s : State) (k : Nat) : Desc :=
  let a := s.sys.gdtr.base + BitVec.ofNat 32 (k * 8)
  Desc.ofWords s.has386 (leVal 32 (s.bytesAt a 4)) (leVal 32 (s.bytesAt (a + 4#32) 4)) a

/-- Conforming code, the last of the table; a null selector; a data segment to be marked accessed; SS; POP and LDS. -/
theorem witness_DataSegmentLoad :
    let u := poke prot 0x1015 [0x92]
    let p := poke prot 0x1000 [0x10, 0]
    let l := poke prot 0xFFFC [0, 0, 0x10, 0]
    let m : MemOp := .direct16 0xFFFC#16
    prot.protMode = true ∧ SReg.ds ≠ .cs ∧ selNull 3#16 = true ∧ selNull 0x28#16 = false ∧
    prot.names 0x28#16 (descIn prot 5) = true ∧ arPresent (descIn prot 5).access = true ∧
    arReadable (descIn prot 5).access = true ∧ arConforming (descIn prot 5).access = true ∧
    (reg prot .w16 rAX 0x28#16).rmVal .w16 (.reg rAX) = 0x28#16 ∧
    u.names 0x10#16 (descIn u 2) = true ∧ bitOf (descIn u 2).access 0 = false ∧ arReadable (descIn u 2).access = true ∧
    prot.names 0x10#16 (descIn prot 2) = true ∧ selRpl 0x10#16 = prot.cpl ∧ arWritable (descIn prot 2).access = true ∧
    arDpl (descIn prot 2).access = prot.cpl ∧ prot.ctl.prevShadow = .none ∧
    p.names 0x10#16 (descIn p 2) = true ∧ l.names 0x10#16 (descIn l 2) = true ∧ p.pops .w16 = true ∧ (p.popVal .w16).setWidth 16 = 0x10#16 ∧
    l.reaches (l.memSeg m) (l.ea m) 2 false 2 = true ∧ l.reaches (l.memSeg m) (l.ea m + 2#32) 2 false 2 = true ∧
    l.memVal .w16 (l.memSeg m) (l.ea m + 2#32) = 0x10#16 := by decide +kernel
theorem witness_PushCompletes : real.pushes real.os.width = true ∧ real.rmReads real.os.width (.mem top) = true ∧
    (reg real .w16 rSP 2#16).pushes .w16 = true ∧ real.os = .s16 ∧ real.v86 = false ∧
    (v86Of 3#2).flags.iopl = 3#2 ∧ (v86Of 3#2).pushes (v86Of 3#2).os.width = true ∧ (wide real).os = .s32 ∧
    (wide real).pushes .w32 = true := by decide
theorem witness_PopCompletes : real.pops real.os.width = true ∧ (reg real .w16 rSP 0xFFFE#16).pops .w16 = true ∧
    (real.popped .w16).rmWrites .w16 (.mem top) = true ∧ real.v86 = false ∧ (v86Of 3#2).pops .w16 = true ∧
    (v86Of 3#2).flags.iopl = 3#2 ∧ real.protMode = false := by decide
/-- A stack pointer of 16: the eight words fill the stack to offset 0. -/
theorem witness_PushAllPopAllComplete :
    let s := reg real .w16 rSP 0x10#16
    pushaWraps s = false ∧ s.holds .w16 8 = true ∧
    s.pushesAll .w16 [s.reg .w16 rAX, s.reg .w16 rCX, s.reg .w16 rDX, s.reg .w16 rBX, s.reg .w16 rSP, s.reg .w16 rBP,
      s.reg .w16 rSI, s.reg .w16 rDI] = true ∧ (reg real .w16 rSP 0xFFF0#16).popsTimes .w16 8 = true := by decide
theorem witness_ExchangeCompletes : real.rmBoth (real.opW true) (.mem top) = true ∧
    real.reaches real.stringSeg real.xlatOff 1 false 1 = true := by decide
/-- The ports before the coprocessor's, in real-address mode, at IOPL, and by the bitmap of a task state segment. -/
theorem witness_PortsComplete : real.ioAllows 0xEE#16 2 = true ∧ npxPort 0xEE#16 2 = false ∧ npxPort 0x100#16 1 = false ∧
    (0xEE#16 = (0xEE#8).setWidth 16) ∧ real.reg .w16 rDX = 0x3333#16 ∧ npxPort 0x3333#16 2 = false ∧
    prot.ioAllows 0x3333#16 2 = true ∧
    (poke (prot3.setSys { prot3.sys with tr := ⟨0x20#16, 0x2000#32, 0x80#32, 0x8B#8, false, false, true⟩ })
      0x2066 [0x68, 0]).ioAllows 0x60#16 1 = true := by decide
/-- F0 with AL = 0, F1, the ends of F8 to FF, and a word that reaches F0 from below; by DX, and for INS and OUTS. -/
theorem witness_CoprocessorPorts :
    let dx (p : BitVec 16) : State := reg (strs real) .w16 rDX p
    let hits (p : Nat) (n lo hi : Nat) : Bool := decide (p ≤ hi) && decide (lo < p + n)
    real.ioAllows 0xF0#16 2 = true ∧ (0xF0#16 = (0xF0#8).setWidth 16) ∧ (real.opW false).bytes = 1 ∧
    ((reg real .w8 rAL 0#8).reg .w8 rAL).toNat = 0 ∧ (0xF1#16 = (0xF1#8).setWidth 16) ∧ hits 0xEF 2 0xF0 0xF0 = true ∧
    hits 0xEE 2 0xF0 0xF0 = false ∧ hits 0xF7 2 0xF8 0xFF = true ∧ hits 0xFF 1 0xF8 0xFF = true ∧
    hits 0x100 2 0xF8 0xFF = false ∧ (dx 0xF0#16).reg .w16 rDX = 0xF0#16 ∧ (dx 0xF8#16).sourceReads .w16 = true ∧
    (dx 0xF8#16).destReaches .w16 true = true ∧ (dx 0xF8#16).count ≠ 0#32 ∧ prot.ioAllows 0xF8#16 1 = true := by decide
theorem witness_AluRegisterForms : real.rmReads (real.opW true) (.mem top) = true ∧
    (AluOp.add.writes = true → false = false → real.rmWrites (real.opW true) (.mem top) = true) := by decide
theorem witness_AluImmediateForms : real.rmReads (real.opW true) (.mem top) = true ∧
    (AluOp.xor.writes = true → real.rmWrites (real.opW true) (.mem top) = true) := by decide
theorem witness_UnaryFormsComplete : real.rmBoth (real.opW true) (.mem top) = true ∧
    real.rmReads (real.opW false) (.mem (.direct16 0xFFFF#16)) = true := by decide
theorem witness_AdjustCompletes : real.os = .s16 ∧ (wide real).os = .s32 ∧ (0x99#8).toNat % 16 ≤ 9 ∧
    (0x99#8).toNat / 16 ≤ 9 ∧ (0x10#8).toNat % 16 ≤ 9 ∧ (0x10#8).toNat / 16 ≤ 9 := by decide
theorem witness_MultiplyCompletes : real.rmReads (real.opW true) (.mem top) = true ∧
    real.rmReads real.os.width (.mem top) = true := by decide
/-- Vectors V3, V18, V2, V19: the greatest quotients that fit, and the least that do not. -/
theorem witness_DivideCompletes :
    let s := reg (reg real .w16 rAX 0x1FF#16) .w8 rBX 2#8
    let t := reg (reg real .w16 rAX 0x80#16) .w8 rBX 0xFF#8
    let u := reg s .w16 rAX 0x200#16
    let v := reg t .w8 rBX 1#8
    s.rmReads .w8 (.reg rBX) = true ∧ (s.rmVal .w8 (.reg rBX)).toNat ≠ 0 ∧ s.pair .w8 / 2 < 2 ^ 8 ∧
    (t.rmVal .w8 (.reg rBX)).toInt ≠ 0 ∧ -(2 ^ 7 : Nat) ≤ (t.signedPair .w8).tdiv (t.rmVal .w8 (.reg rBX)).toInt ∧
    (t.signedPair .w8).tdiv (t.rmVal .w8 (.reg rBX)).toInt < (2 ^ 7 : Nat) ∧ 2 ^ 8 ≤ u.pair .w8 / 2 ∧
    (2 ^ 7 : Nat) ≤ (v.signedPair .w8).tdiv (v.rmVal .w8 (.reg rBX)).toInt := by decide
theorem witness_ShiftsComplete : (cl 0x20#8).shiftCount .cl = 0 ∧ (cl 1#8).shiftCount .cl = 1 ∧
    (cl 0x1F#8).shiftCount .cl ≠ 0 ∧ (cl 0x1F#8).rmBoth .w16 (.mem top) = true ∧
    (ShiftOp.rol.out (0x81#8 : BitVec 8) 1 false).cf = some true := by decide
theorem witness_ShiftResults : 0 < 1 ∧ 1 < 32 ∧ 0 < 31 ∧ 31 < 32 ∧
    (ShiftOp.rcl.out (0x81#8 : BitVec 8) 31 false).cf = some false := by decide
theorem witness_DoubleShiftsComplete : real.shiftCount (.imm 0x20#8) = 0 ∧ real.rmBoth real.os.width (.mem top) = true ∧
    0 < real.shiftCount (.imm 16#8) ∧ real.shiftCount (.imm 16#8) ≤ real.os.width.bits ∧
    real.os.width.bits < real.shiftCount (.imm 17#8) := by decide
theorem witness_StringsComplete : StrOp.movs.ok .w16 (strs real) = true ∧ StrOp.cmps.ok .w16 (strs real) = true ∧
    StrOp.lods.ok .w8 (reg real .w16 rSI 0xFFFF#16) = true ∧ StrOp.stos.ok .w16 (strs real) = true ∧
    StrOp.scas.ok .w16 (strs real) = true ∧ StrOp.ins.ok .w16 (strs real) = true ∧ StrOp.outs.ok .w16 (strs real) = true :=
  by decide
theorem witness_RepeatedStringsComplete : (reg real .w16 rCX 0#16).count = 0#32 ∧
    (reg (strs real) .w16 rCX 1#16).count ≠ 0#32 ∧ StrOp.movs.ok .w16 (reg (strs real) .w16 rCX 1#16) = true := by decide
theorem witness_BitScansComplete : (reg real .w16 rBX 0#16).rmVal .w16 (.reg rBX) = 0#16 ∧
    (reg real .w16 rBX 0x8000#16).rmVal .w16 (.reg rBX) ≠ 0#16 ∧ real.rmReads real.os.width (.mem top) = true := by decide
theorem witness_BitTestsComplete :
    real.reaches (real.memSeg top) (real.ea top) 2 false 2 = true ∧
    real.reaches (real.memSeg top) (real.ea top) 2 true 2 = true ∧
    real.reaches .ds 0#32 2 true 2 = true ∧
    (((real.ea (.direct16 2#16)).toNat : Int) + 2 * Int.fdiv (0xFFF0#16 : BitVec 16).toInt 16) % 65536 = 0 ∧
    (((real.ea (.direct16 0#16)).toNat : Int) + 2 * Int.fdiv (0xFFFF#16 : BitVec 16).toInt 16) % 65536 = 0xFFFE := by
  decide
theorem witness_ExchangeOps486 : (wide real).os = .s32 ∧ real.os = .s16 ∧ real.rmBoth .w16 (.mem top) = true := by decide
/-- Targets at the last offset of CS, and beyond it in protected mode with a smaller code segment. -/
theorem witness_NearTransfersComplete :
    let small := prot.setSegs (prot.segs.put .cs { prot.segs.cs with limit := 0x100#32 })
    (ipMask real.os (real.nextIP + Imm.disp (.i16 0xFEFF#16))).toNat ≤ real.segs.cs.limit.toNat ∧
    real.pushes real.os.width = true ∧ real.rmReads real.os.width (.mem top) = true ∧ real.pops real.os.width = true ∧
    ¬ (ipMask small.os (small.nextIP + 1#32)).toNat ≤ small.segs.cs.limit.toNat := by decide
theorem witness_ConditionalJumps :
    let small := prot.setSegs (prot.segs.put .cs { prot.segs.cs with limit := 0x100#32 })
    real.flags.zf = false ∧ (flg real 0x42#32).flags.zf = true ∧
    (ipMask real.os (real.nextIP + Imm.disp (.i8 0x7F#8))).toNat ≤ real.segs.cs.limit.toNat ∧
    small.segs.cs.limit.toNat < (ipMask small.os (small.nextIP + Imm.disp (.i8 1#8))).toNat := by decide
theorem witness_ConditionalSets : real.rmWrites .w8 (.mem (.direct16 0xFFFF#16)) = true := by decide
theorem witness_LoopsComplete :
    let one := reg real .w16 rCX 1#16
    let zero := reg real .w16 rCX 0#16
    let small := (reg prot .w16 rCX 0#16).setSegs (prot.segs.put .cs { prot.segs.cs with limit := 0x100#32 })
    ¬ (one.setGpr one.countDown).count ≠ 0#32 ∧ (zero.setGpr zero.countDown).count ≠ 0#32 ∧
    (zero.reg zero.jcxzWidth rCX).toNat = 0 ∧ ¬ (one.reg one.jcxzWidth rCX).toNat = 0 ∧
    (ipMask zero.os (zero.nextIP + (0xFE#8 : BitVec 8).signExtend 32)).toNat ≤ zero.segs.cs.limit.toNat ∧
    small.segs.cs.limit.toNat < (ipMask small.os (small.nextIP + (1#8 : BitVec 8).signExtend 32)).toNat ∧
    (small.setGpr small.countDown).count ≠ 0#32 ∧ (flg real 0x42#32).flags.zf = true ∧ real.flags.zf = false := by decide
/-- The last offset that is inside and the first that is not; a stack with room for two words exactly. -/
theorem witness_FarTransfersReal :
    let s := reg real .w16 rSP 4#16
    let far : MemOp := .direct16 0xFFFC#16
    let s2 := wide real
    let t2 := s2.setDraws (s2.draws + 1)
    real.protMode = false ∧ (Off.val (.o32 0xFFFF#32)).toNat ≤ 0xFFFF ∧ 0xFFFF < (Off.val (.o32 0x10000#32)).toNat ∧
    s.holds s.os.width 2 = true ∧ s.os = .s16 ∧ s.pushesAll .w16 [s.segs.cs.sel, s.nextIP.setWidth 16] = true ∧
    s2.os = .s32 ∧ s2.holds s2.os.width 2 = true ∧
    t2.pushesAll .w32 [Config.freeWord s2.draws ++ s2.segs.cs.sel, s2.nextIP] = true ∧
    (real.reaches (real.memSeg far) (real.ea far) 2 false 2 &&
      real.reaches (real.memSeg far) (real.ea far + 2#32) 2 false 2) = true ∧
    (reg real .w16 rSP 0xFFFC#16).popsTimes .w16 2 = true ∧ (reg real .w16 rSP 0xFFFA#16).popsTimes .w16 3 = true ∧
    ((reg real .w16 rSP 0xFFFC#16).popVals .w16 0).toNat ≤ 0xFFFF ∧ real.v86 = false ∧
    (v86Of 3#2).flags.iopl = 3#2 ∧ (v86Of 3#2).popsTimes .w16 3 = true := by decide
/-- A return offset above FFFF. -/
theorem witness_FarTransfersReal_beyond :
    let s := poke (wide real) 0x1000 [0, 0, 1, 0]
    s.popsTimes .w32 2 = true ∧ s.popsTimes .w32 3 = true ∧ 0xFFFF < (s.popVals .w32 0).toNat := by decide
/-- ENTER with no level and with one that copies; BOUND at its bounds and outside them. -/
theorem witness_FramesComplete :
    let s1 := real.pushed .w16 (real.reg .w16 rBP)
    let s := poke (reg real .w16 rAX 10#16) 0x4444 [0, 0, 10, 0]
    let lo := (s.memVal .w16 .ds 0x4444#32).toInt
    let hi := (s.memVal .w16 .ds 0x4446#32).toInt
    real.holds .w16 3 = true ∧ real.pushes .w16 = true ∧ s1.copies .w16 1 = true ∧
    (s1.copied .w16 1).pushes .w16 = true ∧ segHolds real.segs.ss 0#32 1 = true ∧ real.holds .w16 1 = true ∧
    (real.setGpr (real.gprWithSp ((real.reg .w16 rBP).setWidth 32))).pops .w16 = true ∧
    s.reaches (s.memSeg atBx) (s.ea atBx) 2 false 2 = true ∧
    s.reaches (s.memSeg atBx) (s.ea atBx + 2#32) 2 false 2 = true ∧
    lo ≤ (s.reg .w16 rAX).toInt ∧ (s.reg .w16 rAX).toInt ≤ hi ∧ hi < ((reg s .w16 rAX 11#16).reg .w16 rAX).toInt ∧
    ((reg s .w16 rAX 0xFFFF#16).reg .w16 rAX).toInt < lo ∧ real.flags.ovf = false := by decide
/-- The last vector of the table, and a stack with room for the frame exactly. -/
theorem witness_SoftwareInterruptsReal :
    let s := reg real .w16 rSP 6#16
    let e : Event := ⟨0xFF#8, .software, s.nextIP, none⟩
    s.entersReal e = true ∧ real.entersReal ⟨3#8, .software, real.nextIP, none⟩ = true ∧
    (flg real 0x802#32).entersReal ⟨4#8, .software, real.nextIP, none⟩ = true ∧ (flg real 0x802#32).flags.ovf = true ∧
    Memory.wf s.mem = true ∧ ((s.enteredReal e).setCur { Cur.start with len := 1 }).popsTimes .w16 3 = true ∧
    6 ≤ s.sp.toNat := by decide
theorem witness_FlagInstructions : real.sys.cr0.pe = false ∧ prot.cpl.toNat ≤ prot.flags.iopl.toNat ∧
    (flg real 0x202#32).flags.ie = true ∧ real.flags.ie = false ∧ real.ctl.prevShadow = .none := by decide
theorem witness_ProcessorInstructions : prot.cpl = 0#2 ∧ (real.sys.cr0.mp && real.sys.cr0.ts) = false ∧
    (real.nativeErrors = true → real.fpu.status.es = false) ∧ real.nativeErrors = false ∧ real.link.busyLatch = false ∧
    real.has386 = true ∧ real286.has386 = false := by decide
/-- CR0 written with paging and protection on and the caches on; DR7 with no breakpoint. -/
theorem witness_SpecialRegisterMoves :
    let s := reg prot .w32 rAX 0x80000001#32
    s.cpl = 0#2 ∧ (s.cr0From 0x80000001#32).pg = true ∧ (s.cr0From 0x80000001#32).pe = true ∧
    (s.cr0From 0x80000001#32).nw = false ∧ s.sys.dr7.getLsbD 13 = false ∧ (0x400#32 : BitVec 32).extractLsb' 0 8 = 0#8 ∧
    DrNum.dr6 ≠ .dr7 ∧ (real.cr0From 0x60000010#32).nw = true ∧ (real.cr0From 0x60000010#32).cd = true ∧
    real.sys.cr0.nw = true ∧ real.sys.cr0.cd = true := by decide
/-- The six bytes at the end of the segment. -/
theorem witness_TableRegisters :
    let m : MemOp := .direct16 0xFFFA#16
    prot.cpl = 0#2 ∧ real.reaches (real.memSeg m) (real.ea m) 2 false 1 = true ∧
    real.reaches (real.memSeg m) (real.ea m + 2#32) 4 false 1 = true ∧
    real.reaches (real.memSeg m) (real.ea m) 2 true 1 = true ∧
    real.reaches (real.memSeg m) (real.ea m + 2#32) 4 true 1 = true ∧
    real.rmReads .w16 (.mem top) = true ∧ prot.sys.cr0.pe = true ∧ real.sys.cr0.pe = false ∧
    (reg real .w16 rAX 1#16).rmVal .w16 (.reg rAX) = 1#16 ∧ real.has386 = true ∧ (wide real).os = .s32 ∧
    real.has486 = true ∧ real386.has486 = false ∧ real386.has386 = true ∧ (wide real386).os = .s32 ∧
    real.rmWrites .w16 (.mem top) = true ∧ real286.has386 = false ∧ real286.rmWrites .w16 (.mem top) = true := by decide
/-- Selectors of the local table, of a task state segment, null and beyond the table. -/
theorem witness_SelectorInstructions :
    let l := reg prot .w16 rAX 0x18#16
    let t := reg prot .w16 rAX 0x20#16
    prot.protMode = true ∧ prot.rmReads .w16 (.mem top) = true ∧ prot.rmWrites .w16 (.mem top) = true ∧
    (selRpl 3#16).toNat ≤ (selRpl 3#16).toNat ∧ (selRpl 8#16).toNat < (selRpl 0xB#16).toNat ∧
    selNull 3#16 = true ∧ selNull 0x30#16 = false ∧ prot.descPlain 0x30#16 = true ∧ prot.cpl = 0#2 ∧
    l.descPlain 0x18#16 = true ∧ l.descOf 0x18#16 = some (descIn prot 3) ∧ selLocal 0x18#16 = false ∧
    arPresent (descIn prot 3).access = true ∧ arSegment (descIn prot 3).access = false ∧
    arType (descIn prot 3).access = 2 ∧ t.descPlain 0x20#16 = true ∧ t.descOf 0x20#16 = some (descIn prot 4) ∧
    arPresent (descIn prot 4).access = true ∧ arSegment (descIn prot 4).access = false ∧
    prot.has386 = true ∧ arType (descIn prot 4).access = 9 ∧ prot.os = .s16 ∧ (wide prot).os = .s32 := by
  decide +kernel
theorem witness_PrivilegeTraps : prot3.cpl ≠ 0#2 ∧ prot3.protMode = true ∧ real.protMode = false ∧
    prot3.sys.cr0.pe = true ∧ prot3.flags.iopl.toNat < prot3.cpl.toNat ∧ (v86Of 2#2).v86 = true ∧
    (v86Of 2#2).flags.iopl ≠ 3#2 ∧ Instr.hlt ∈ ([.hlt, .clts] : List Instr) := by decide
/-- Input and output above IOPL: without a bitmap, with one that stops port 60, and on the 80286. -/
theorem witness_PrivilegeTraps_ports :
    let tss := prot3.setSys { prot3.sys with tr := ⟨0x20#16, 0x2000#32, 0x80#32, 0x8B#8, false, false, true⟩ }
    prot3.ioDenies 0x60#16 1 = true ∧ (poke (poke tss 0x2066 [0x68, 0]) 0x2074 [1]).ioDenies 0x60#16 1 = true ∧
    (protOf real286 3#2).ioDenies 0x60#16 2 = true ∧ 0x60#16 = (0x60#8).setWidth 16 ∧
    prot3.ioDenies 0x3333#16 1 = true ∧ prot3.reg .w16 rDX = 0x3333#16 ∧ prot3.count ≠ 0#32 := by decide

/-! The coprocessor. -/

/-- Another control word. -/
def cw (s : State) (v : BitVec 16) : State := s.setFpu { s.fpu with cw := v }
/-- Eight registers in use. -/
def full (s : State) : State := stack s [one, one, one, one, one, one, one, one]
theorem witness_NpxStackComplete : Instr.npxStackOp .f2xm1 = true ∧ (stack real [one]).npxReady = true ∧
    (stack real286 [one]).npxReady = true ∧ (machineOf .p386 .absent).npxMissing = true := by decide
/-- A stack of these numbers: none is a NaN, an infinity, a denormal or a value the coprocessor does not support; every
exception is masked, and nothing stands in the way of an instruction. -/
def computes (s : State) (vs : List (BitVec 80)) : Bool :=
  let t := stack s vs
  t.npxReady && t.fpu.isEmpty 7#3 && (List.range 6).all t.npxMask &&
    (List.range vs.length).all (fun k => !t.fpu.isEmpty (BitVec.ofNat 3 k) && t.fpu.st (BitVec.ofNat 3 k) == vs.getD k 0#80) &&
    vs.all (fun v => !tIsNan v && !tUnsupported v && !tIsInf v && !tIsDenormal v)
/-- The exact cases: zero, one and minus one, 2^63 and the greatest number below it, on the 80486 and the 80287. -/
theorem witness_NpxStackComplete_exact :
    let minus : BitVec 80 := 0xBFFF8000000000000000#80
    let below : BitVec 80 := 0x403DFFFFFFFFFFFFFFFF#80
    let l : BitVec 80 := 0x403E8000000000000000#80
    [0#80, one, minus, below, l].all (fun v => computes real [v] && computes real286 [v]) = true ∧
    tIsZero 0#80 = true ∧ 16446 ≤ (l.extractLsb' 64 15).toNat ∧ (below.extractLsb' 64 15).toNat < 16446 ∧
    real.n287 = false ∧ real286.n287 = true := by decide +kernel
/-- Two operands: the least and the greatest exponent of a power of two, zero and a negative ST(0), a zero ST(1). -/
theorem witness_NpxStackComplete_two :
    let minus : BitVec 80 := 0xBFFF8000000000000000#80
    let lo : BitVec 80 := 0x00018000000000000000#80
    let hi : BitVec 80 := 0x7FFE8000000000000000#80
    [[one, two], [lo, one], [hi, one], [0#80, two], [0#80, minus], [minus, one], [one, 0#80]].all
      (fun vs => computes real vs && computes real286 vs) = true ∧
    lo = 0#1 ++ BitVec.ofInt 15 (-16382 + 16383) ++ 0x8000000000000000#64 ∧
    hi = 0#1 ++ BitVec.ofInt 15 (16383 + 16383) ++ 0x8000000000000000#64 ∧ tIsZero 0#80 = true ∧ tIsZero two = false ∧
    tSign minus = true ∧ tIsZero minus = false ∧ tSign one = false ∧ tIsZero one = false := by decide +kernel
/-- Stack faults, masked and not: a full stack, an empty one, and one with ST(0) alone. -/
theorem witness_NpxStackComplete_faults :
    (∀ s ∈ [full real, full real286, cw (full real) 0x37E#16],
      s.npxReady = true ∧ s.fpu.isEmpty 7#3 = false) ∧
    (∀ s ∈ [real, real286, cw real 0x37E#16, stack real [one]],
      s.npxReady = true ∧ s.fpu.isEmpty 1#3 = true ∧ (s.fpu.isEmpty 0#3 = true ∨ s.fpu.st 0#3 = one)) ∧
    real.fpu.isEmpty 0#3 = true ∧ real.npxMask 0 = true ∧ (cw real 0x37E#16).npxMask 0 = false ∧
    tIsNan one = false ∧ tUnsupported one = false ∧ tIsDenormal one = false := by decide +kernel
theorem witness_NpxSourcesComplete : Instr.npxSource (.fldM80 (.direct16 0xFFF6#16)) = some (.direct16 0xFFF6#16, 10, 8) ∧
    real.npxReady = true ∧ real.npxReaches (.direct16 0xFFF6#16) 10 false 8 = true ∧
    Instr.npxSource (.ficom true top) = some (top, 2, 2) ∧ real.npxReaches top 2 false 2 = true ∧
    (machineOf .p286 .absent).npxMissing = true := by decide
/-- What the loads meet: a signaling NaN and a denormal in memory, masked and not, the NaN of an 80287; decimal digits up
to 9; a full stack; and an empty ST(0) with an operand that is a number. -/
theorem witness_NpxSourcesComplete_loads :
    let m : MemOp := .direct16 0x2000#16
    let nan := poke real 0x2000 [1, 0, 0x80, 0x7F]
    let den := poke real 0x2000 [1, 0, 0, 0]
    let nan286 := poke real286 0x2000 [1, 0, 0xC0, 0x7F]
    let dec := poke real 0x2000 [0x90, 0x99, 0x99, 0x99, 0x99, 0x99, 0x99, 0x99, 0x99, 0x80]
    let bits (s : State) (n : Nat) : Nat := leNat (s.bytesAt (s.linOf (s.memSeg m) (s.ea m)) n)
    (∀ s ∈ [nan, den, nan286, dec], s.npxReady = true ∧ s.fpu.isEmpty 7#3 = true ∧ s.fpu.isEmpty 0#3 = true ∧
      s.npxMask 0 = true ∧ s.npxMask 1 = true ∧ s.npxReaches m (realFmt false).bytes false (realFmt false).bytes = true ∧
      s.npxReaches m 2 false 2 = true ∧ s.npxReaches m 8 false 8 = true ∧ s.npxReaches m 10 false 8 = true) ∧
    tIsSignaling ((realFmt false).load nan.n287 (bits nan 4)).1 = true ∧ (cw nan 0x37E#16).npxMask 0 = false ∧
    tIsNan ((realFmt false).load nan286.n287 (bits nan286 4)).1 = true ∧ nan286.n287 = true ∧
    ((realFmt false).load den.n287 (bits den 4)).2 = true ∧ (cw den 0x37D#16).npxMask 1 = false ∧
    tIsSignaling ((realFmt false).load den.n287 (bits den 4)).1 = false ∧
    (∀ k, k < 18 → bits dec 9 / 16 ^ k % 16 < 10) ∧ (bits dec 10).testBit 79 = true ∧ bits dec 9 / 16 % 16 = 9 ∧
    (full dec).npxReady = true ∧ (full dec).fpu.isEmpty 7#3 = false ∧
    ((realFmt false).load false (bits dec 4)).2 = false ∧ tIsNan ((realFmt false).load false (bits dec 4)).1 = false := by
  decide +kernel
theorem witness_NpxStoresComplete : Instr.npxDest (.fstpM80 (.direct16 0xFFF6#16)) = some (.direct16 0xFFF6#16, 10, 8) ∧
    real.npxReady = true ∧ real.npxReaches (.direct16 0xFFF6#16) 10 true 8 = true ∧
    (stack real [one]).fpu.isEmpty 0#3 = false ∧ (machineOf .p286 .absent).npxMissing = true ∧
    (machineOf .p286 .absent).npxReaches (.direct16 0xFFF6#16) 10 true 8 = true ∧
    Instr.npxDest (.fist true top) = some (top, 2, 2) ∧ real.npxReaches top 2 true 2 = true ∧
    ((stack real [one]).npxStored (.fist true top)).1 = some [1#8, 0#8] ∧
    ((stack real [one]).npxStored (.fstpMem false top)).1 = some [0#8, 0#8, 0x80#8, 0x3F#8] ∧
    ((stack real [one]).npxStored (.fbstp top)).1 = some [1#8, 0#8, 0#8, 0#8, 0#8, 0#8, 0#8, 0#8, 0#8, 0#8] := by
  decide +kernel
theorem witness_NpxControlComplete :
    let m : MemOp := .direct16 0x1000#16
    real.sys.cr0.em = false ∧ real.sys.cr0.ts = false ∧ real.cfg.npx ≠ .absent ∧ real286.n287 = true ∧
    real.npxReady = true ∧ real.npxReaches top 2 true 2 = true ∧ real.npxReaches top 2 false 2 = true ∧
    (real.os == .s32) = false ∧ real.npxReaches m 14 true 2 = true ∧ real.npxReaches m 14 false 2 = true ∧
    real.npxReaches m (14 + 80) true 2 = true ∧ real.npxReaches m (14 + 80) false 2 = true ∧
    ((wide prot).os == .s32) = true ∧ (wide prot).npxReaches m 28 true 4 = true ∧
    (wide prot).npxReaches m 28 false 4 = true ∧ (wide prot).npxReaches m (28 + 80) true 4 = true := by decide
/-- ST(0) = 9, ST(1) = 2; an empty register above the stack; an empty stack. -/
theorem witness_NpxComparisonsAndFunctions :
    let s := stack real [ofInt 9, ofInt 2]
    let h := stack real [packTemp false 9 (-1)]
    let f : NumFmt := intFmt true
    s.npxReady = true ∧ s.fpu.isEmpty 0#3 = false ∧ s.fpu.isEmpty 1#3 = false ∧ s.fpu.isEmpty 7#3 = true ∧
    real.fpu.isEmpty 0#3 = true ∧ s.npxMask 0 = true ∧ s.npxMask 1 = true ∧ s.n287 = false ∧
    s.npxReaches top f.bytes false f.bytes = true ∧ cwPc s.fpu.cw = some 64 ∧ 3 * 3 < 2 ^ 64 ∧
    s.fpu.st 0#3 = ofInt (3 * 3) ∧ s.fpu.st 1#3 = ofInt 2 ∧ (9 : Int).natAbs < 2 ^ 64 ∧ (2 : Int).natAbs ≤ 16000 ∧
    (2 : Int) ≠ 0 ∧ h.fpu.st 0#3 = packTemp false 9 (-1) ∧ h.npxReady = true ∧ h.fpu.isEmpty 0#3 = false := by
  decide +kernel
theorem witness_NpxConstants : real.npxReady = true ∧ real.fpu.isEmpty 7#3 = true ∧ real.n287 = false ∧
    real.fpu.cw.extractLsb' 10 2 = 0#2 := by decide
theorem witness_NpxRegisterMoves : (stack real [one, two]).npxReady = true ∧
    (stack real [one, two]).fpu.isEmpty 0#3 = false ∧ (stack real [one, two]).fpu.isEmpty 1#3 = false ∧
    (stack real [one, two]).fpu.isEmpty 7#3 = true := by decide
/-- E11: ST(0) = 1, ST(1) = 5: DE E1 and D8 E9; and FSUBR of the integer 5 in memory. -/
theorem witness_NpxOperandOrder :
    let s := stack real [one, 0x4001A000000000000000#80]
    let m := poke s 0x2000 [5]
    s.npxReady = true ∧ s.fpu.isEmpty 0#3 = false ∧
    s.fpu.isEmpty 1#3 = false ∧ s.npxMask 1 = true ∧
    (tIsDenormal (s.fpu.st 0#3) = false ∧ tIsDenormal (s.fpu.st 1#3) = false) ∧
    decode c16 [0xDE#8, 0xE1#8] = .instr (.fsubrp 1#3) 2 ∧ decode c16 [0xD8#8, 0xE9#8] = .instr (.fsubrSt false 1#3) 2 ∧
    arith s.n287 s.fpu.cw .sub (s.fpu.st 0#3) (s.fpu.st 1#3) =
      .value 0xC0018000000000000000#80 false false false false ∧
    m.npxReaches (.direct16 0x2000#16) 2 false 2 = true ∧
    (intFmt true).load false (leNat (m.bytesAt (m.linOf .ds 0x2000#32) 2)) = (0x4001A000000000000000#80, false) := by decide
theorem witness_NpxExactArithmetic : (-(2 ^ 64 - 1) : Int).natAbs < 2 ^ 64 ∧ (1 : Int).natAbs < 2 ^ 64 ∧
    cwPc 0x037F#16 = some 64 ∧ (-(2 ^ 64 - 1) + 1 : Int).natAbs < 2 ^ 64 ∧ (-(2 ^ 64 - 1) + 1 : Int) ≠ 0 ∧
    ((-(2 ^ 64 - 1)) * 1 : Int).natAbs < 2 ^ 64 ∧ 2 ^ 64 - 1 < 2 ^ 64 ∧ 2 ^ 32 - 1 < 2 ^ 32 ∧
    0 < 2 ^ 52 / 2 ^ 52 % 2 ^ 11 ∧ 2 ^ 52 / 2 ^ 52 % 2 ^ 11 < 2047 ∧ 0 < (254 * 2 ^ 23) / 2 ^ 23 % 2 ^ 8 ∧
    (254 * 2 ^ 23) / 2 ^ 23 % 2 ^ 8 < 255 := by decide
theorem witness_NpxTraps :
    let c (f : Cr0 → Cr0) : State := real.setSys { real.sys with cr0 := f real.sys.cr0 }
    let e := (c (fun x => { x with ne := true })).setFpu { real.fpu with status := { real.fpu.status with es := true } }
    (c (fun x => { x with em := true })).sys.cr0.em = true ∧ Instr.npxStackOp .fld1 = true ∧
    (c (fun x => { x with mp := true, ts := true })).sys.cr0.mp = true ∧
    (c (fun x => { x with mp := true, ts := true })).sys.cr0.ts = true ∧ e.nativeErrors = true ∧
    e.fpu.status.es = true ∧ e.sys.cr0.em = false ∧ e.sys.cr0.ts = false ∧ e.cfg.npx ≠ .absent ∧
    Instr.npxSource (.fldMem false atBx) = some (atBx, 4, 4) ∧ e.npxReaches atBx 4 false 4 = true ∧
    Instr.npxDest (.fstMem false atBx) = some (atBx, 4, 4) ∧ e.npxReaches atBx 4 true 4 = true ∧
    e.npxReaches atBx 2 false 2 = true ∧ e.npxReaches atBx 14 false 2 = true ∧ e.npxReaches atBx 94 false 2 = true ∧
    e.os = .s16 ∧ real.cfg.npx = .integrated ∧ real.entersReal ⟨6#8, .fault, real.eip, none⟩ = true := by decide

/-! Memory, paging, exceptions and steps. -/

/-- A word across 64 KB; then MOV of a word: at the last byte of a segment, of an expand-down segment and of one that is
not writable, from one that is not usable, and at an odd address with alignment checks on. -/
theorem witness_StoresChangeTheirBytes :
    let y := prot3.sys
    let ac := (flg prot3 0x40002#32).setSys { y with cr0 := { y.cr0 with am := true } }
    let seg (f : SegReg → SegReg) : State := prot3.setSegs { prot3.segs with ds := f prot3.segs.ds }
    let odd : MemOp := .direct16 0x7FFF#16
    let down := (seg (fun r => { r with access := 0xF7#8, limit := 0x7FFF#32 })).segs.get .ds
    Memory.wf real.mem = true ∧ real.within 0xFFFF#32 2 0x10001 = false ∧ real.within 0xFFFF#32 2 0x10000 = true ∧
    [1#8, 2#8].length ≤ 2 ^ 20 ∧ 3 < Width.w32.bytes ∧
    prot3.protMode = true ∧ (prot3.opW true).bytes = 2 ∧ real.protMode = false ∧
    arExpandDown prot3.segs.ds.access = false ∧ prot3.segs.ds.limit.toNat + 1 < (prot3.ea (.direct16 0xFFFF#16)).toNat + 2 ∧
    prot3.segs.ds.usable = true ∧ arReadable prot3.segs.ds.access = true ∧ arWritable prot3.segs.ds.access = true ∧
    arExpandDown down.access = true ∧ (prot3.ea odd).toNat ≤ down.limit.toNat ∧
    ((seg (fun r => { r with usable := false })).segs.get .ds).usable = false ∧ arWritable 0xF1#8 = false ∧
    arReadable 0xF9#8 = false ∧
    ac.has486 = true ∧ ac.sys.cr0.am = true ∧ ac.flags.ac = true ∧ ac.cpl = 3#2 ∧
    (ac.linOf (ac.memSeg odd) (ac.ea odd)).toNat % 2 ≠ 0 ∧ ac.paging = false := by decide

/-- Vector E6, its first row: paging on, at a level. -/
def paged (l : BitVec 2) (pde pte : Byte) : State :=
  let s := protOf real l
  poke (poke (s.setSys { s.sys with cr3 := 0x10000#32, cr0 := { s.sys.cr0 with pg := true } }) 0x10004 [pde, 0x00, 2, 0])
    0x20004 [pte, 0, 0x30, 0]

theorem witness_PagingTranslates :
    let s := (paged 3#2 7 7).setSegs { (paged 3#2 7 7).segs with ds := { prot3.segs.ds with base := 0x400000#32 } }
    let n := paged 3#2 7 5
    let at4 (s : State) (a : Nat) : BitVec 32 :=
      leVal 32 ([a, a + 1, a + 2, a + 3].map (fun x => memGet s.mem (busAddr s.cfg x)))
    s.paging = true ∧ tlbFind s.tlb ((0x401234#32 : BitVec 32).extractLsb' 12 20) = none ∧
    (∀ i, i < 4 → kindAt s.cfg.memmap (busAddr s.cfg (0x10004 + i)) = .ram) ∧ at4 s 0x10004 = 0x20007#32 ∧
    (∀ i, i < 4 → kindAt s.cfg.memmap (busAddr s.cfg (0x20004 + i)) = .ram) ∧ at4 s 0x20004 = 0x300007#32 ∧
    kindAt s.cfg.memmap (busAddr s.cfg 0x300234) = .ram ∧ s.linOf s.directSeg (Off.val (.o16 0x1234#16)) = 0x401234#32 ∧
    s.allows s.directSeg (Off.val (.o16 0x1234#16)) 1 false 1 = true ∧
    Memory.wf s.mem = true ∧ busAddr s.cfg 0x10004 ≠ busAddr s.cfg 0x20004 ∧
    at4 n 0x20004 = 0x300005#32 ∧ (at4 (paged 0#2 6 7) 0x10004).getLsbD 0 = false := by decide

/-- The interrupt gate of `prot`, and its code segment: through it to the same level. -/
theorem witness_ProtectedEntry :
    let s := fetchedOf prot 2
    let hi : BitVec 32 := leVal 32 (s.bytesAt 0x1804#32 4)
    let lo : BitVec 32 := leVal 32 (s.bytesAt 0x1800#32 4)
    s.protMode = true ∧ s.has386 = true ∧ 0 * 8 + 7 ≤ s.sys.idtr.limit.toNat ∧ s.plain 0x1800#32 4 = true ∧
    s.plain 0x1804#32 4 = true ∧ arSegment (hi.extractLsb' 8 8) = false ∧ arType (hi.extractLsb' 8 8) = 14 ∧
    arPresent (hi.extractLsb' 8 8) = true ∧ s.cpl.toNat ≤ (arDpl (hi.extractLsb' 8 8)).toNat ∧
    lo.extractLsb' 16 16 = 8#16 ∧ s.names 8#16 (descIn s 1) = true ∧
    arCode (descIn s 1).access = true ∧ arDpl (descIn s 1).access = s.cpl ∧ arPresent (descIn s 1).access = true ∧
    (0x200#32 : BitVec 32).toNat ≤ (descIn s 1).limit.toNat ∧ s.holds .w32 3 = true ∧
    s.frames .w32 { s.flags with rf := false }.word s.segs.cs.sel = true := by
  decide +kernel
/-- From level 3 through an 80286 trap gate to level 0, whose stack is 10:0800 in the task state segment. -/
theorem witness_ProtectedEntry_inner :
    let y := prot3.sys
    let s0 := poke (poke (prot3.setSys { y with tr := ⟨0x20#16, 0x2000#32, 0x67#32, 0x8B#8, false, false, true⟩ })
      0x2004 [0x00, 0x08, 0, 0, 0x10, 0]) 0x1800 [0x00, 0x02, 8, 0, 0, 0xE7, 0, 0]
    let s := fetchedOf s0 2
    let n := descIn s 2
    let t := ((s.setSys { s.sys with cpl := 0#2 }).setSegs (s.segs.put .ss (n.asSeg 0x10#16))).setGpr
      (regWrite s.gpr .w32 rSP 0x800#32)
    let t1 := t.pushedSel .w16 s.segs.ss.sel
    let t2 := t1.pushed .w16 (s.reg .w16 rSP)
    s.protMode = true ∧ arType 0xE7#8 = 7 ∧ s.cpl.toNat ≤ (arDpl 0xE7#8).toNat ∧ s.names 8#16 (descIn s 1) = true ∧
    arConforming (descIn s 1).access = false ∧ (arDpl (descIn s 1).access).toNat < s.cpl.toNat ∧
    s.sys.tr.usable = true ∧ arType s.sys.tr.access = 11 ∧ 4 + 5 ≤ s.sys.tr.limit.toNat ∧
    s.plain 0x2004#32 4 = true ∧ s.plain 0x2008#32 2 = true ∧ leVal 32 (s.bytesAt 0x2004#32 4) = 0x800#32 ∧
    leVal 16 (s.bytesAt 0x2008#32 2) = 0x10#16 ∧ s.names 0x10#16 n = true ∧ selRpl 0x10#16 = 0#2 ∧
    arWritable n.access = true ∧ arDpl n.access = 0#2 ∧ arPresent n.access = true ∧ bitOf n.access 0 = true ∧
    stackHolds (n.asSeg 0x10#16) 0x800#32 2 5 = true ∧ t.pushes .w16 = true ∧ t1.pushes .w16 = true ∧
    t2.frames .w16 { s.flags with rf := false }.word s.segs.cs.sel = true := by
  decide +kernel
/-- A fault with an error code to the same level: room for four items exactly, and not one byte less. -/
theorem witness_ProtectedEntry_code :
    let s := reg prot .w16 rSP 16#16
    let f : BitVec 32 := { s.flags with rf := true }.word
    s.sys.cr0.pe = true ∧ s.has386 = true ∧ s.holds .w32 4 = true ∧ s.frames .w32 f s.segs.cs.sel = true ∧
    (s.framed .w32 f s.segs.cs.sel s.eip).pushes .w32 = true ∧ (reg prot .w16 rSP 15#16).holds .w32 4 = false := by
  decide +kernel
/-- From virtual-8086 mode through an 80386 gate to level 0: nine items on the stack 10:0024, and not on 10:0023. -/
theorem witness_ProtectedEntry_v86 :
    let v := v86Of 3#2
    let s := poke (poke (v.setSys { v.sys with tr := ⟨0x20#16, 0x2000#32, 0x67#32, 0x8B#8, false, false, true⟩ })
      0x2004 [0x24, 0, 0, 0, 0x10, 0]) 0x1800 [0x00, 0x02, 8, 0, 0, 0xEE, 0, 0]
    let n := descIn s 2
    let u := (((s.setFlags { s.flags with vm := false }).setSys { s.sys with cpl := 0#2 }).setSegs
      (s.segs.put .ss (n.asSeg 0x10#16))).setGpr (regWrite s.gpr .w32 rSP 0x24#32)
    let g1 := u.pushedSel .w32 s.segs.gs.sel
    let g2 := g1.pushedSel .w32 s.segs.fs.sel
    let g3 := g2.pushedSel .w32 s.segs.ds.sel
    let g4 := g3.pushedSel .w32 s.segs.es.sel
    let p := g4.pushedSel .w32 s.segs.ss.sel
    s.sys.cr0.pe = true ∧ s.v86 = true ∧ s.flags.iopl = 3#2 ∧ s.plain 0x1800#32 4 = true ∧ s.plain 0x1804#32 4 = true ∧
    s.names 8#16 (descIn s 1) = true ∧ arCode (descIn s 1).access = true ∧ arDpl (descIn s 1).access = 0#2 ∧
    s.cpl = 3#2 ∧ arConforming (descIn s 1).access = false ∧ s.plain 0x2004#32 4 = true ∧ s.plain 0x2008#32 2 = true ∧
    leVal 32 (s.bytesAt 0x2004#32 4) = 0x24#32 ∧ leVal 16 (s.bytesAt 0x2008#32 2) = 0x10#16 ∧ s.names 0x10#16 n = true ∧
    bitOf n.access 0 = true ∧ stackHolds (n.asSeg 0x10#16) 0x24#32 4 9 = true ∧
    stackHolds (n.asSeg 0x10#16) 0x23#32 4 9 = false ∧ u.pushes .w32 = true ∧ g1.pushes .w32 = true ∧
    g2.pushes .w32 = true ∧ g3.pushes .w32 = true ∧ g4.pushes .w32 = true ∧ p.pushes .w32 = true ∧
    (p.pushed .w32 (s.reg .w32 rSP)).frames .w32 { s.flags with rf := false }.word s.segs.cs.sel = true := by
  decide +kernel
/-- The tests of the gate and of the code segment, each failing: the table's end, a gate of no known type, its level, its
presence, a task gate, a null selector, one beyond the table, data, code that is not present, and an offset beyond it. -/
theorem witness_ProtectedEntry_tests :
    let gate (x : List Byte) : State := poke prot 0x1800 x
    let access (s : State) : BitVec 8 := (leVal 32 (s.bytesAt 0x1804#32 4)).extractLsb' 8 8
    let sel (s : State) : BitVec 16 := (leVal 32 (s.bytesAt 0x1800#32 4)).extractLsb' 16 16
    let gone := poke prot 0x100D [0x1B]
    let short := poke prot 0x1008 [0xFF, 1]
    prot.sys.cr0.pe = true ∧ prot.sys.idtr.limit.toNat < (1#8).toNat * 8 + 7 ∧ ¬ prot.sys.idtr.limit.toNat < (0#8).toNat * 8 + 7 ∧
    prot.plain 0x1800#32 4 = true ∧ prot.plain 0x1804#32 4 = true ∧ arType (access (gate [0, 2, 8, 0, 0, 0x84])) = 4 ∧
    arSegment (access (gate [0, 2, 8, 0, 0, 0x96])) = true ∧ (arDpl (access prot)).toNat < prot3.cpl.toNat ∧
    arPresent (access (gate [0, 2, 8, 0, 0, 0x0E])) = false ∧ arType (access (gate [0, 2, 8, 0, 0, 0x85])) = 5 ∧
    selNull (sel (gate [0, 2, 3, 0, 0, 0x8E])) = true ∧ prot.descAddr 0x30#16 = none ∧ (prot.descAddr 0x28#16).isSome = true ∧
    prot.names 0x10#16 (descIn prot 2) = true ∧ arCode (descIn prot 2).access = false ∧ gone.names 8#16 (descIn gone 1) = true ∧
    arCode (descIn gone 1).access = true ∧ arPresent (descIn gone 1).access = false ∧
    short.names 8#16 (descIn short 1) = true ∧ (descIn short 1).limit.toNat < (0x200#32 : BitVec 32).toNat ∧
    short.holds .w32 3 = true ∧ prot.names 0x28#16 (descIn prot 5) = true ∧ arConforming (descIn prot 5).access = true := by
  decide +kernel
/-- The tests on the way to level 0: no task state segment in TR or one too short, a stack selector that is null, beyond
the table, of level 3, or of a segment that may not be written or is not present; virtual-8086 mode with code of level 1. -/
theorem witness_ProtectedEntry_stacks :
    let tss (l : BitVec 32) : State :=
      prot3.setSys { prot3.sys with tr := ⟨0x20#16, 0x2000#32, l, 0x8B#8, false, false, true⟩ }
    let s := tss 9#32
    let gone := poke s 0x1015 [0x13]
    let fixed := poke s 0x1015 [0x91]
    let ring1 := poke (v86Of 3#2) 0x100D [0xBB]
    prot3.sys.cr0.pe = true ∧ prot3.sys.tr.usable = false ∧ (tss 8#32).sys.tr.limit.toNat < 4 + 5 ∧
    ¬ s.sys.tr.limit.toNat < 4 + 5 ∧ arType s.sys.tr.access = 11 ∧ s.plain 0x2004#32 4 = true ∧ s.plain 0x2008#32 2 = true ∧
    selNull (leVal 16 (s.bytesAt 0x2008#32 2)) = true ∧ s.descAddr 0x30#16 = none ∧ s.names 0x13#16 (descIn s 2) = true ∧
    selRpl 0x13#16 ≠ 0#2 ∧ fixed.names 0x10#16 (descIn fixed 2) = true ∧ arWritable (descIn fixed 2).access = false ∧
    gone.names 0x10#16 (descIn gone 2) = true ∧ arWritable (descIn gone 2).access = true ∧
    arPresent (descIn gone 2).access = false ∧ stackHolds ((descIn s 2).asSeg 0x10#16) 9#32 2 5 = false ∧
    stackHolds ((descIn s 2).asSeg 0x10#16) 10#32 2 5 = true ∧ ring1.v86 = true ∧ ring1.names 8#16 (descIn ring1 1) = true ∧
    arDpl (descIn ring1 1).access = 1#2 := by
  decide +kernel
/-- Far transfers at one level: a selector of code, a stack with a return address, and with one of IRET. -/
theorem witness_ProtectedFarTransfers :
    let s := poke prot 0xFFFC [0, 1, 8, 0]
    let q := reg (poke prot 0x8000 [0x00, 0x01, 8, 0, 0x02, 0x00]) .w16 rSP 0x8000#16
    let m : MemOp := .direct16 0xFFFC#16
    let d := descIn prot 1
    q.protMode = true ∧ q.names 8#16 d = true ∧ arCode d.access = true ∧ arPresent d.access = true ∧
    0xFFFF ≤ d.limit.toNat ∧ arConforming d.access = false ∧ (selRpl 8#16).toNat ≤ q.cpl.toNat ∧ arDpl d.access = q.cpl ∧
    q.holds .w16 2 = true ∧ q.os = .s16 ∧ q.pushesAll .w16 [q.segs.cs.sel, q.nextIP.setWidth 16] = true ∧
    s.reaches (s.memSeg m) (s.ea m) 2 false 2 = true ∧ s.reaches (s.memSeg m) (s.ea m + 2#32) 2 false 2 = true ∧
    s.memVal .w16 .ds 0xFFFE#32 = 8#16 ∧ s.names 8#16 (descIn s 1) = true ∧ q.popsTimes .w16 3 = true ∧ (q.popVals .w16 0) = 0x100#16 ∧ (q.popVals .w16 1) = 8#16 ∧ selRpl 8#16 = q.cpl ∧
    q.flags.nt = false := by
  decide +kernel
/-- Returns to level 3: its code at 30 and its stack at 38 of a longer table; and to virtual-8086 mode. -/
theorem witness_ProtectedFarTransfers_outer :
    let y := prot.sys
    let g := poke (prot.setSys { y with gdtr := ⟨0x1000#32, 0x3F#16⟩ }) 0x1030
      [0xFF, 0xFF, 0, 0, 0, 0xFA, 0, 0, 0xFF, 0xFF, 0, 0, 0, 0xF2, 0, 0]
    let s := reg (poke g 0x8000 [0, 1, 0x33, 0, 0, 9, 0x3B, 0, 0, 9, 0x3B, 0]) .w16 rSP 0x8000#16
    let i := reg (poke g 0x8000 [0, 1, 0x33, 0, 2, 0, 0, 9, 0x3B, 0]) .w16 rSP 0x8000#16
    let v := wide (reg (poke g 0x8000 [0, 1, 0, 0, 0, 0, 0, 0, 2, 0, 2, 0]) .w16 rSP 0x8000#16)
    let d := descIn s 6
    let n := descIn s 7
    (∀ q ∈ [SReg.ds, .es, .fs, .gs], (s.segs.get q).usable = true → arSegment (s.segs.get q).access = true) ∧
    s.popsTimes .w16 2 = true ∧ s.popVals .w16 1 = 0x33#16 ∧ s.names 0x33#16 d = true ∧ arCode d.access = true ∧
    arDpl d.access = selRpl 0x33#16 ∧ s.cpl.toNat < (selRpl 0x33#16).toNat ∧ bitOf d.access 0 = false ∧
    s.reaches .ss 0x8004#32 2 false 2 = true ∧ s.reaches .ss 0x8006#32 2 false 2 = true ∧
    s.reaches .ss 0x800A#32 2 false 2 = true ∧ s.memVal .w16 .ss 0x8006#32 = 0x3B#16 ∧
    s.memVal .w16 .ss 0x800A#32 = 0x3B#16 ∧ s.names 0x3B#16 n = true ∧
    selRpl 0x3B#16 = selRpl 0x33#16 ∧ arWritable n.access = true ∧ arDpl n.access = selRpl 0x33#16 ∧
    arPresent n.access = true ∧ i.popsTimes .w16 3 = true ∧ i.memVal .w16 .ss 0x8008#32 = 0x3B#16 ∧
    v.os = .s32 ∧ v.cpl = 0#2 ∧ v.popsTimes .w32 9 = true ∧ (v.popVals .w32 2).getLsbD 17 = true := by
  decide +kernel
/-- The bytes 8B 07 at the program counter, and 0F 0B. -/
theorem witness_StepRunsDecoded :
    let s := poke real 0x100 [0x8B, 0x07]
    let u := poke real 0x100 [0x0F, 0x0B]
    s.ctl.activity ≠ .shutdown ∧ s.cur.len = 0 ∧ s.quiet = true ∧ 2 ≤ s.cfg.maxInsnLen - s.cur.len ∧
    s.fetches 2 = true ∧ decode s.ctx (s.codeAt 2) = .instr (.movRegRm true rAX (.mem atBx)) 2 ∧
    s.prefixesFit (.movRegRm true rAX (.mem atBx)) = true ∧ decode u.ctx (u.codeAt 2) = .stop .ud ∧ u.fetches 2 = true := by
  decide
theorem witness_BoundaryEvents :
    let t := real.setCtl { real.ctl with dbPending := true }
    let n := real.setEnv { real.env with nmiIn := [true] }
    let i := (flg real 0x202#32).setEnv { real.env with irqIn := [some 8#8] }
    let q := (flg real 0x202#32).setLink ⟨false, true⟩
    let h := real.setCtl { real.ctl with activity := .halted }
    t.ctl.activity ≠ .shutdown ∧ t.cur.len = 0 ∧ t.ctl.dbPending = true ∧ t.ctl.shadow ≠ .ss ∧ real286.has386 = false ∧
    n.sampleNmi.ctl.nmiPending = true ∧ n.ctl.nmiBlocked = false ∧ n.ctl.shadow ≠ .ss ∧ n.ctl.dbPending = false ∧
    i.ctl.shadow = .none ∧ i.flags.ie = true ∧ i.link.irq13 = false ∧ i.env.irqIn = some 8#8 :: [] ∧
    i.sampleNmi.ctl.nmiPending = false ∧ q.link.irq13 = true ∧ h.ctl.activity = .halted ∧ h.ctl.nmiPending = false ∧
    h.env.nmiIn = [] ∧ h.env.irqIn = [] ∧ h.link.irq13 = false := by decide
/-- A gate that is not present, for the trap, the NMI, the coprocessor's request and the last vector of the table. -/
theorem witness_BoundaryEvents_absent :
    [1, 2, 0xB, 0x75].all (fun v =>
      let s := (gateless v).setSys { prot.sys with idtr := ⟨0x1800#32, BitVec.ofNat 16 (8 * v + 7)⟩ }
      let lin : BitVec 32 := s.sys.idtr.base + BitVec.ofNat 32 (8 * v)
      let access : BitVec 8 := memGet (poke s (0x1805 + 8 * v) [0x0E]).mem (s.flat (lin + 5#32))
      s.sys.cr0.pe && s.plain lin 4 && s.plain (lin + 4#32) 4 && !access.getLsbD 7 && s.has386 &&
        access.extractLsb' 0 5 == 14#5 && decide (8 * v + 7 ≤ s.sys.idtr.limit.toNat)) = true ∧
    real.cfg.irq13Vector = 0x75#8 := by decide +kernel
theorem witness_DecodeEncode : Ctx.ok c32 = true ∧
    Instr.wf c32 (.movRegRm true rAX (.mem (.sib 2#2 1#3 5#3 (.d8 0x80#8)))) = true ∧ Instr.wf c16 .repPrefix = true ∧
    stringOp none 0x90#8 = none := by decide

/-- A context and an operand for each clause of the field s: with s, without it, and the 80286's. -/
theorem witness_DecodeWords :
    Ctx.ok c32 = true ∧ rmOk c32.adr (.mem (.sib 2#2 1#3 5#3 (.d8 0x80#8))) = true ∧ Ctx.ok c286 = true ∧
    rmOk c286.adr (.mem (.direct16 0xFFFF#16)) = true ∧ c286.cpu = .p286 ∧ AluOp.add.logic = false := by decide

/-- A state with the invariant (an instruction at its program counter) whose step goes on. -/
theorem witness_StepKeepsInv :
    let s := poke real 0x100 [0x90]
    s.Inv ∧ goesOn (step s) (fun _ => true) = true :=
  ⟨⟨by decide, by decide, by decide, by decide, by decide, by decide, by decide, by decide, by decide, by decide,
    by decide, by decide⟩, by decide⟩
theorem witness_ResetHasInv : Config.legalPair .p486 .integrated = true ∧ Config.legalPair .p286 .absent = true := by decide
/-- A state at level 3 whose step goes on. -/
theorem witness_PrivilegedStateKept : prot3.sys.cr0.pe = true ∧ prot3.cpl ≠ 0#2 ∧
    goesOn (step (poke prot3 0x100 [0x90])) (fun _ => true) = true := by decide

end Sys2Proof.Tests
end

section
/-! The relations that everything but the system instructions keeps: what such a relation must allow, and one rule for
each shared operation. -/

namespace Sys2Proof.Machine

variable {α β : Type}

/-- No system flag of `f` is set beyond those of `g`, and IOPL is the same: what an instruction that is no IRET or POPF
makes of the flags, and what taking an interrupt makes of them. -/
structure Flags.Within (f g : Flags) : Prop where
  iopl : f.iopl = g.iopl
  rf : f.rf = true → g.rf = true
  vm : f.vm = true → g.vm = true
  ac : f.ac = true → g.ac = true

/-- The data segment registers of `v` hold the rights of a code or data segment wherever those of `u` do (R91). -/
def SegRegs.RightsFrom (v u : SegRegs) : Prop :=
  ∀ k ∈ [SReg.ds, .es, .fs, .gs], arSegment (u.get k).access = true → arSegment (v.get k).access = true

/-- A relation that every step keeps but for a system instruction: whatever happens to the general registers, the
coprocessor, the instruction in progress and the boundary, to CR2 and the privilege level; flags without new system
flags; segment registers with the rights of segments; and what a fault restores (R606). -/
structure Plain (R : State → State → Prop) : Prop where
  closed : Closed R
  eip : ∀ s v, R s (s.setEip v)
  cur : ∀ s v, R s (s.setCur v)
  stored : ∀ s v, R s (s.setStored v)
  ctl : ∀ s v, R s (s.setCtl v)
  fpu : ∀ s v, R s (s.setFpu v)
  link : ∀ s v, R s (s.setLink v)
  cpl : ∀ s v, R s (s.setSys { s.sys with cpl := v })
  flags : ∀ s f, f.Within s.flags → R s (s.setFlags f)
  segs : ∀ s v, v.RightsFrom s.segs → R s (s.setSegs v)
  restored : ∀ s t, R s t → R s (restore s t)

/-- A relation that a meaning keeps, if it answers a next state. -/
def KeepsNext (R : State → State → Prop) (f : State → Host.Outcome State Fault Refusal) : Prop :=
  ∀ s t, f s = .next t → R s t

variable {R : State → State → Prop}

/-! The ways of building a computation. -/

theorem Plain.refl (h : Plain R) (s : State) : R s s := h.closed.refl s

theorem Plain.trans (h : Plain R) {s t u : State} (hst : R s t) (htu : R t u) : R s u := h.closed.trans s t u hst htu

theorem Plain.pure (h : Plain R) (a : α) : Keeps R (pure a : M α) := .pure h.closed a

theorem Plain.raise (h : Plain R) (v : BitVec 8) (c : Option (BitVec 16)) : Keeps R (raiseExc v c : M α) :=
  .raise h.closed v c

theorem Plain.refuse (h : Plain R) (r : Refusal) : Keeps R (refuse r : M α) := .refuse h.closed r

theorem Plain.bind (h : Plain R) {m : M α} {f : α → M β} (hm : Keeps R m) (hf : ∀ a, Keeps R (f a)) :
    Keeps R (m >>= f) := .bind h.closed hm hf

/-- Reading the state first, where what follows keeps the relation from every state. -/
theorem Plain.read (h : Plain R) {f : State → M β} (hf : ∀ s, Keeps R (f s)) : Keeps R (getS >>= f) :=
  h.bind (.getS h.closed) hf

/-! Parts of the state. -/

/-- Only what is put into a data segment register matters. -/
theorem SegRegs.rightsFrom_put (u : SegRegs) {k : SReg} {v : SegReg}
    (hv : k ≠ .cs → k ≠ .ss → arSegment (u.get k).access = true → arSegment v.access = true) :
    (u.put k v).RightsFrom u := by
  intro j hj hu
  by_cases hjk : j = k
  · subst hjk
    rw [SegRegs.get_put_self]
    exact hv (by rintro rfl; simp at hj) (by rintro rfl; simp at hj) hu
  · rw [SegRegs.get_put_ne u v hjk]; exact hu

/-- The accessed bit is not the segment bit (R89). -/
@[simp] theorem arSegment_arAccessed (a : BitVec 8) : arSegment (arAccessed a) = arSegment a := by
  simp [arSegment, arAccessed, bitOf]

theorem arSegment_of_readable {a : BitVec 8} (h : arReadable a = true) : arSegment a = true := by
  simp only [arReadable, arData, arCode, Bool.or_eq_true, Bool.and_eq_true] at h
  rcases h with ⟨hs, _⟩ | ⟨⟨hs, _⟩, _⟩ <;> exact hs

theorem Plain.updFlags (h : Plain R) {f : Flags → Flags} (hf : ∀ g : Flags, (f g).Within g) : Keeps R (updFlags f) :=
  .upd fun s => h.flags s _ (hf s.flags)

theorem Plain.updFpu (h : Plain R) (g : Fpu → Fpu) : Keeps R (updFpu g) := .upd fun s => h.fpu s _

theorem Plain.updStatus (h : Plain R) (g : FpuStatus → FpuStatus) : Keeps R (updStatus g) := h.updFpu _

theorem Plain.updCtl (h : Plain R) (f : Ctl → Ctl) : Keeps R (updCtl f) := .upd fun s => h.ctl s _

theorem Plain.setCpl (h : Plain R) (v : BitVec 2) : Keeps R (updSys fun y => { y with cpl := v }) :=
  .upd fun s => h.cpl s v

theorem Plain.flushQueue (h : Plain R) : Keeps R flushQueue := .upd fun s => h.stored s _

theorem Plain.setEipTo (h : Plain R) (v : BitVec 32) : Keeps R (updS fun s => s.setEip v) := .upd fun s => h.eip s v

theorem Plain.advanced (h : Plain R) (s : State) : R s s.advance := h.trans (h.eip _ _) (h.cur _ _)

theorem Plain.advance (h : Plain R) : Keeps R advance := .upd h.advanced

theorem Plain.jumpTo (h : Plain R) (v : BitVec 32) : Keeps R (jumpTo v) :=
  .upd fun s => h.trans (h.eip s v) (h.trans (h.cur _ _) (h.stored _ _))

/-- A segment register that is no data segment register takes anything. -/
theorem Plain.putCs (h : Plain R) (v : SegReg) : Keeps R (putSeg .cs v) :=
  .upd fun s => h.segs s _ (s.segs.rightsFrom_put fun hc => absurd rfl hc)

theorem Plain.putSs (h : Plain R) (v : SegReg) : Keeps R (putSeg .ss v) :=
  .upd fun s => h.segs s _ (s.segs.rightsFrom_put fun _ hs => absurd rfl hs)

/-! Segment loads and transfers (R91, R370, R380, R383). -/

/-- A descriptor that passes the checks on a data segment is readable, so it is one of a segment (R91). -/
theorem checkDataDesc_ok {sel : BitVec 16} {d : Desc} {c : BitVec 2} {s t : State} {a : Unit}
    (hok : checkDataDesc sel d c s = .ok a t) : arSegment d.access = true := by
  apply arSegment_of_readable
  by_contra hr
  rw [checkDataDesc, if_pos (Bool.not_eq_true _ ▸ hr)] at hok
  cases hok

theorem Plain.checkDescFor (h : Plain R) (k : SReg) (sel : BitVec 16) (d : Desc) (c : BitVec 2) :
    Keeps R (if k = .ss then checkStackDesc sel d c (raiseGP (selErr sel)) (raiseSS (selErr sel))
      else checkDataDesc sel d c) :=
  .ite (.checkStackDesc h.closed _ _ _ (h.raise _ _) (h.raise _ _)) (.checkDataDesc h.closed _ _ _)

/-- Loading a segment register (R91): real-address mode and a null selector keep its rights, and a descriptor brings
those of a segment. -/
theorem Plain.loadSeg (h : Plain R) (k : SReg) (sel : BitVec 16) : Keeps R (loadSeg k sel) := by
  have kept (s : State) (v : SegReg) (hv : v.access = (s.segs.get k).access) : KeepsAt R (putSeg k v) s :=
    .upd (h.segs s _ (s.segs.rightsFrom_put fun _ _ => by rw [hv]; exact id))
  have ofDesc (d : Desc) (hd : k ≠ .ss → arSegment d.access = true) : Keeps R (putSeg k (d.toSeg sel)) :=
    .upd fun s => h.segs s _ (s.segs.rightsFrom_put fun _ hs _ => by simpa [Desc.toSeg] using hd hs)
  refine .get h.closed fun s => .ite (fun _ => kept s _ rfl) fun _ => .ite (fun _ => ?_) fun _ => ?_
  · exact .ite (fun _ => h.raise _ _ s) fun _ => kept s _ rfl
  · refine Keeps.bind h.closed (.readDesc h.closed _ (h.raise _ _)) (fun d u => ?_) s
    refine (h.checkDescFor k sel d s.cpl u).bind h.closed fun _ t hok => ?_
    have hd : k ≠ .ss → arSegment d.access = true := fun hk => checkDataDesc_ok (by rw [if_neg hk] at hok; exact hok)
    exact h.bind (.setAccessed h.closed d) (fun _ => ofDesc d hd) t

theorem Plain.checkTarget (h : Plain R) (t : BitVec 32) : Keeps R (checkTarget t) :=
  h.read fun _ => .ite (h.raise _ _) (h.pure _)

theorem Plain.nearTransfer (h : Plain R) (t : BitVec 32) : Keeps R (nearTransfer t) :=
  h.read fun _ => h.bind (h.checkTarget _) fun _ => h.jumpTo _

theorem Plain.jumpRel (h : Plain R) (d : BitVec 32) : Keeps R (jumpRel d) := h.read fun _ => h.nearTransfer _

theorem Plain.callTo (h : Plain R) (t : BitVec 32) : Keeps R (callTo t) :=
  h.read fun _ => h.bind (h.checkTarget _) fun _ => h.bind (.push h.closed _ _) fun _ => h.jumpTo _

theorem Plain.pushReturn (h : Plain R) (os : Size) : Keeps R (pushReturn os) :=
  h.read fun _ => h.bind (.pushSel h.closed _ _) fun _ => .push h.closed _ _

theorem Plain.farReal (h : Plain R) (sel : BitVec 16) (off : BitVec 32) (kind : FarKind) :
    Keeps R (farReal sel off kind) := by
  refine h.read fun s => .ite (h.raise _ _) ?_
  have go (v : SegReg) : Keeps R (do putSeg .cs v; Machine.jumpTo off) := h.bind (h.putCs v) fun _ => h.jumpTo off
  cases kind with
  | jmp => exact go _
  | call => exact h.bind (.requireRoomReal h.closed _ _) fun _ => h.bind (h.pushReturn _) fun _ => go _

theorem Plain.loadCs (h : Plain R) (d : Desc) (sel : BitVec 16) (level : BitVec 2) : Keeps R (loadCs d sel level) :=
  h.bind (.setAccessed h.closed d) fun _ => h.putCs _

theorem Plain.farProt (h : Plain R) (sel : BitVec 16) (off : BitVec 32) (kind : FarKind) :
    Keeps R (farProt sel off kind) := by
  refine .ite (h.raise _ _) (h.read fun s => h.bind (.readDesc h.closed _ (h.raise _ _)) fun d => .ite ?_ ?_)
  · have go (o : BitVec 32) : Keeps R (do Machine.loadCs d sel s.cpl; Machine.jumpTo o) :=
      h.bind (h.loadCs d sel s.cpl) fun _ => h.jumpTo o
    refine .ite (h.raise _ _) (.ite (h.raise _ _) (.ite (h.raise _ _) (.ite (h.raise _ _) ?_)))
    cases kind with
    | jmp => exact go _
    | call => exact h.bind (.requireRoom h.closed _ _) fun _ => h.bind (h.pushReturn _) fun _ => go _
  · exact .ite (h.raise _ _) (.ite (h.refuse _) (h.raise _ _))

theorem Plain.farTransfer (h : Plain R) (sel : BitVec 16) (off : BitVec 32) (kind : FarKind) :
    Keeps R (farTransfer sel off kind) := h.read fun _ => .ite (h.farProt _ _ _) (h.farReal _ _ _)

theorem Plain.checkReturnCode (h : Plain R) (sel : BitVec 16) (d : Desc) (o : BitVec 32) :
    Keeps R (checkReturnCode sel d o) :=
  .ite (h.raise _ _) (.ite (h.raise _ _) (.ite (h.raise _ _) (.ite (h.raise _ _) (.ite (h.raise _ _) (h.pure _)))))

/-- Making a register null leaves its rights (R383). -/
theorem SegReg.dropFor_access (r : SegReg) (level : BitVec 2) : (r.dropFor level).access = r.access := by
  unfold SegReg.dropFor; split <;> rfl

theorem SegRegs.rightsFrom_dropFor (u : SegRegs) (level : BitVec 2) : (u.dropFor level).RightsFrom u := by
  intro k hk hu
  cases k with
  | cs => exact hu
  | ss => exact hu
  | ds => exact (SegReg.dropFor_access u.ds level).symm ▸ hu
  | es => exact (SegReg.dropFor_access u.es level).symm ▸ hu
  | fs => exact (SegReg.dropFor_access u.fs level).symm ▸ hu
  | gs => exact (SegReg.dropFor_access u.gs level).symm ▸ hu

theorem Plain.returnProt (h : Plain R) (w : Width) (o : BitVec 32) (sel : BitVec 16) (items : Nat) (k : BitVec 32) :
    Keeps R (returnProt w o sel items k) := by
  refine h.read fun s => .ite (h.raise _ _) (.ite (h.raise _ _) ?_)
  refine h.bind (.readDesc h.closed _ (h.raise _ _)) fun d => h.bind (h.checkReturnCode _ _ _) fun _ => .ite ?_ ?_
  · exact h.bind (h.loadCs _ _ _) fun _ => h.bind (.setSp h.closed _) fun _ => h.jumpTo _
  · refine h.bind (.segReadV h.closed _ _ _) fun nsp => h.bind (.segReadV h.closed _ _ _) fun _ => ?_
    refine .ite (h.raise _ _) (h.bind (.readDesc h.closed _ (h.raise _ _)) fun e => ?_)
    refine h.bind (.checkStackDesc h.closed _ _ _ (h.raise _ _) (h.raise _ _)) fun _ => h.bind (h.setCpl _) fun _ => ?_
    refine h.bind (h.loadCs _ _ _) fun _ => h.bind (.setAccessed h.closed _) fun _ => h.bind (h.putSs _) fun _ => ?_
    refine h.bind (.setSp h.closed _) fun _ => h.bind (.upd fun t => ?_) fun _ => h.jumpTo _
    exact h.segs t _ (t.segs.rightsFrom_dropFor _)

theorem Plain.farReturn (h : Plain R) (k : BitVec 16) : Keeps R (farReturn k) := by
  refine h.read fun s => h.bind (.peek h.closed _ _) fun oItem => h.bind (.peek h.closed _ _) fun sItem => ?_
  refine .ite (h.returnProt _ _ _ _ _) (.ite (h.raise _ _) ?_)
  exact h.bind (h.putCs _) fun _ => h.bind (.setSp h.closed _) fun _ => h.jumpTo _

/-! Taking an interrupt or exception (R610, R612). -/

/-- A computation that stops still stops in the same state, be it as a shutdown (R610). -/
theorem orShutdown_error {m : M α} {s t : State} {x : Stop} (hm : m s = .error x t) :
    ∃ y, orShutdown m s = .error y t := by
  unfold orShutdown
  rw [hm]
  cases x with
  | exc e => by_cases hv : e.vector = 12#8 <;> simp [hv]
  | _ => exact ⟨_, rfl⟩

theorem Keeps.orShutdown {m : M α} (hm : Keeps R m) : Keeps R (orShutdown m) := by
  intro s
  cases hs : m s with
  | ok a t => exact .ok (orShutdown_ok hs) ((hm s).1 a t hs)
  | error x t =>
    obtain ⟨y, hy⟩ := orShutdown_error hs
    exact .error hy ((hm s).2 x t hs)

theorem Plain.pushOrShutdown (h : Plain R) (w : Width) (v : Val w) : Keeps R (orShutdown (push w v)) :=
  .orShutdown (.push h.closed w v)

theorem Plain.enterReal (h : Plain R) (e : Event) : Keeps R (enterReal e) := by
  refine h.read fun s => .ite (h.raise _ _) ?_
  refine h.bind (.orShutdown (.checkPushes h.closed _ _)) fun _ => h.bind (h.pushOrShutdown _ _) fun _ => ?_
  refine h.bind (h.updFlags fun f => ⟨rfl, id, id, fun ha => (Bool.and_eq_true_iff.1 ha).1⟩) fun _ => ?_
  refine h.bind (h.pushOrShutdown _ _) fun _ => h.bind (h.pushOrShutdown _ _) fun _ => ?_
  refine h.bind (.sysRead h.closed _ _) fun o => h.bind (.sysRead h.closed _ _) fun sel => ?_
  exact h.bind (h.putCs _) fun _ => h.setEipTo _

theorem Plain.innerStack (h : Plain R) (p : BitVec 2) (e : Event) : Keeps R (innerStack p e) := by
  have two (a b : BitVec 32) (n m : Nat) (f : List Byte → List Byte → BitVec 16 × BitVec 32 × Bool) :
      Keeps R (do let sp ← sysRead a n; let ss ← sysRead b m; Pure.pure (f sp ss)) :=
    h.bind (.sysRead h.closed _ _) fun _ => h.bind (.sysRead h.closed _ _) fun _ => h.pure _
  refine h.read fun s => .ite (h.raise _ _) (.ite (.ite (h.raise _ _) ?_) (.ite (.ite (h.raise _ _) ?_) (h.raise _ _)))
  · exact two _ _ _ _ fun sp ss => (leVal 16 ss, leVal 32 sp, false)
  · exact two _ _ _ _ fun sp ss => (leVal 16 ss, leVal 32 sp, true)

theorem Plain.pushCode (h : Plain R) (w : Width) (c : Option (BitVec 16)) : Keeps R (pushCode w c) := by
  cases c with
  | none => exact h.pure _
  | some v => exact .push h.closed _ _

theorem Plain.pushFrame (h : Plain R) (w : Width) (s : State) (e : Event) : Keeps R (pushFrame w s e) :=
  h.bind (.push h.closed _ _) fun _ => h.bind (.pushSel h.closed _ _) fun _ => h.bind (.push h.closed _ _) fun _ =>
    h.pushCode _ _

/-- The data segment registers that an entry from virtual-8086 mode makes null keep their rights (R612). -/
theorem SegRegs.rightsFrom_nulled (u : SegRegs) : SegRegs.RightsFrom
    { u with gs := u.gs.toNull 0#16, fs := u.fs.toNull 0#16, ds := u.ds.toNull 0#16, es := u.es.toNull 0#16 } u := by
  intro k hk hu
  cases k <;> exact hu

theorem Plain.enterInner (h : Plain R) (e : Event) (g : Gate) (d : Desc) : Keeps R (enterInner e g d) := by
  refine h.read fun s => .ite (h.raise _ _) (.ite (h.refuse _) ?_)
  refine h.bind (h.innerStack _ _) fun ⟨nss, nsp, wide⟩ => .ite (h.raise _ _) ?_
  refine h.bind (.readDesc h.closed _ (h.raise _ _)) fun n => ?_
  refine h.bind (.checkStackDesc h.closed _ _ _ (h.raise _ _) (h.raise _ _)) fun _ => ?_
  refine .ite (h.raise _ _) (.ite (h.raise _ _) ?_)
  refine h.bind (h.updFlags fun f => ⟨rfl, id, nofun, id⟩) fun _ => h.bind (h.setCpl _) fun _ => ?_
  refine h.bind (.setAccessed h.closed _) fun _ => h.bind (h.putSs _) fun _ => ?_
  refine h.bind (.upd fun t => h.closed.gpr t _) fun _ => h.bind (.ite ?_ (h.pure _)) fun _ => ?_
  · refine h.bind (.pushSel h.closed _ _) fun _ => h.bind (.pushSel h.closed _ _) fun _ => ?_
    refine h.bind (.pushSel h.closed _ _) fun _ => h.bind (.pushSel h.closed _ _) fun _ => .upd fun t => ?_
    exact h.segs t _ t.segs.rightsFrom_nulled
  · refine h.bind (.pushSel h.closed _ _) fun _ => h.bind (.push h.closed _ _) fun _ => ?_
    exact h.bind (h.pushFrame _ _ _) fun _ => h.bind (h.loadCs _ _ _) fun _ => h.setEipTo _

theorem Plain.enterSame (h : Plain R) (e : Event) (g : Gate) (d : Desc) : Keeps R (enterSame e g d) := by
  refine h.read fun s => .ite (h.raise _ _) (h.bind (.requireRoom h.closed _ _) fun _ => .ite (h.raise _ _) ?_)
  exact h.bind (h.pushFrame _ _ _) fun _ => h.bind (h.loadCs _ _ _) fun _ => h.setEipTo _

theorem Flags.entered_within (f : Flags) (b : Bool) : (f.entered b).Within f := ⟨rfl, nofun, nofun, id⟩

theorem Plain.enterProt (h : Plain R) (e : Event) : Keeps R (enterProt e) := by
  refine h.read fun s => .ite (h.raise _ _) (h.bind (.sysRead h.closed _ _) fun lo => ?_)
  refine h.bind (.sysRead h.closed _ _) fun hi => .ite (h.raise _ _) (.ite (h.raise _ _) (.ite (h.raise _ _) ?_))
  refine .ite (h.refuse _) (.ite (h.raise _ _) (h.bind (.readDesc h.closed _ (h.raise _ _)) fun d => ?_))
  refine .ite (h.raise _ _) (.ite (h.raise _ _) (h.bind (.ite (h.enterInner _ _ _) (h.enterSame _ _ _)) fun _ => ?_))
  exact h.updFlags fun f => f.entered_within _

/-- Taking an interrupt or exception is nothing that a plain relation does not keep. -/
theorem Plain.enter (h : Plain R) (e : Event) : Keeps R (enter e) := by
  refine h.read fun s => h.bind (.ite (h.enterProt e) (h.enterReal e)) fun _ => h.bind h.flushQueue fun _ => ?_
  exact .upd fun t => h.trans (h.cur t _) (h.ctl _ _)

/-! The outcome of an instruction. -/

theorem Plain.toShutdown (h : Plain R) (s : State) : R s s.toShutdown := h.trans (h.cur s _) (h.ctl _ _)

theorem Plain.recurring (h : Plain R) (s : State) (e : Event) : R s (s.recurring e) := by
  rw [recurring_eq]; exact h.trans (h.ctl s _) (h.closed.env _ _)

theorem Plain.deliver (h : Plain R) (e : Event) : KeepsNext R (deliver e) := fun _ _ =>
  deliver_keeps h.closed h.restored h.recurring h.toShutdown h.enter

theorem Plain.waitAgain (h : Plain R) : KeepsNext R waitAgain := by
  intro s t ht
  unfold Machine.waitAgain at ht
  split at ht <;> cases ht
  exact h.trans (h.cur s _) (h.ctl _ _)

theorem Plain.finishAt (h : Plain R) {m : M Unit} {s t : State} (hm : KeepsAt R m s) (ht : finish m s = .next t) :
    R s t :=
  finish_keeps h.closed h.restored h.recurring h.toShutdown h.enter h.waitAgain hm ht

theorem Plain.finish (h : Plain R) {m : State → M Unit} (hm : ∀ s, Keeps R (m s)) :
    KeepsNext R fun s => finish (m s) s := fun s _ => h.finishAt (hm s s)

theorem Plain.completeAt (h : Plain R) {m : M Unit} {s t : State} (hm : KeepsAt R m s) (ht : complete m s = .next t) :
    R s t :=
  complete_keeps h.closed h.restored h.recurring h.toShutdown h.enter h.waitAgain h.advanced hm ht

theorem Plain.complete (h : Plain R) {m : State → M Unit} (hm : ∀ s, Keeps R (m s)) :
    KeepsNext R fun s => complete (m s) s := fun s _ => h.completeAt (hm s s)

end Sys2Proof.Machine
end

section
/-! What the instructions of the processor keep: every one but the system instructions keeps a plain relation. -/

namespace Sys2Proof.Machine

variable {α : Type} {R : State → State → Prop}

/-! Conditions and ports (R626 to R628, R643). -/

theorem Plain.privileged (h : Plain R) : Keeps R privileged := h.read fun _ => .ite (h.pure _) (h.raise _ _)

theorem Plain.ioplSensitive (h : Plain R) : Keeps R ioplSensitive := h.read fun _ => .ite (h.raise _ _) (h.pure _)

theorem Plain.v86Sensitive (h : Plain R) : Keeps R v86Sensitive := h.read fun _ => .ite (h.raise _ _) (h.pure _)

theorem Plain.protectedOnly (h : Plain R) : Keeps R protectedOnly := h.read fun _ => .ite (h.pure _) (h.raise _ _)

theorem Plain.ioBitmap (h : Plain R) (port : BitVec 16) (n : Nat) : Keeps R (ioBitmap port n) := by
  refine h.read fun s => .ite (h.raise _ _) (.ite (h.raise _ _) (h.bind (.sysRead h.closed _ _) fun b => ?_))
  exact .ite (h.raise _ _) (h.bind (.sysRead h.closed _ _) fun _ => .ite (h.pure _) (h.raise _ _))

theorem Plain.ioPermitted (h : Plain R) (port : BitVec 16) (n : Nat) : Keeps R (ioPermitted port n) :=
  h.read fun _ => .ite (h.pure _) (.ite (h.ioBitmap _ _) (.ite (h.pure _) (.ite (h.ioBitmap _ _) (h.raise _ _))))

theorem Plain.ioRead (h : Plain R) (port : BitVec 16) (w : Width) : Keeps R (ioRead port w) := by
  refine .ite (h.refuse _) (h.read fun s => ?_)
  cases s.env.ioIn with
  | nil => exact h.bind (.upd fun t => h.closed.env t _) fun _ => h.pure _
  | cons v rest => exact h.bind (.upd fun t => h.closed.env t _) fun _ => h.pure _

/-- The coprocessor's state replaced, and the signals where its error becomes active (R641). -/
theorem Plain.withFpu (h : Plain R) (s : State) (f : Fpu) : R s (s.withFpu f) := by
  unfold State.withFpu
  dsimp only
  split
  · exact h.trans (h.fpu s f) (h.link _ _)
  · exact h.fpu s f

theorem Plain.ioWrite (h : Plain R) (port : BitVec 16) (w : Width) (v : Val w) : Keeps R (ioWrite port w v) := by
  refine .ite (.upd fun s => ?_) (.ite (.upd fun s => h.link s _) (.ite (h.refuse _) (.upd fun s => h.closed.env s _)))
  split
  · exact h.refl s
  · exact h.withFpu s _

/-! Flags (R260). -/

theorem Flags.status_within {n : Nat} (f : Flags) (o : AluOut n) : (f.status o).Within f := ⟨rfl, id, id, id⟩

theorem Plain.drawIf (h : Plain R) (u v : Bool) : Keeps R (drawIf u v) := .ite (.drawBit h.closed) (h.pure _)

theorem Plain.undefStatus (h : Plain R) : Keeps R undefStatus := by
  have d := Keeps.drawBit h.closed
  refine h.bind d fun _ => h.bind d fun _ => h.bind d fun _ => h.bind d fun _ => h.bind d fun _ => h.bind d fun _ => ?_
  exact h.updFlags fun _ => ⟨rfl, id, id, id⟩

theorem Plain.mulFlags (h : Plain R) (c : Bool) : Keeps R (mulFlags c) := by
  have d := Keeps.drawBit h.closed
  refine h.bind d fun _ => h.bind d fun _ => h.bind d fun _ => h.bind d fun _ => ?_
  exact h.updFlags fun _ => ⟨rfl, id, id, id⟩

theorem Plain.aluCompute (h : Plain R) (op : AluOp) {n : Nat} (a b : BitVec n) : Keeps R (aluCompute op a b) :=
  h.bind (h.drawIf _ _) fun _ => h.read fun _ => h.bind (h.updFlags fun f => f.status_within _) fun _ => h.pure _

theorem Plain.shiftCompute (h : Plain R) (op : ShiftOp) {n : Nat} (a : BitVec n) (c : Nat) :
    Keeps R (shiftCompute op a c) := by
  refine h.read fun s => h.bind (h.drawIf _ _) fun cf => h.bind (h.drawIf _ _) fun ovf =>
    h.bind (h.drawIf _ _) fun af => ?_
  refine h.bind (h.updFlags fun f => ?_) fun _ => h.pure _
  dsimp only
  split <;> exact ⟨rfl, id, id, id⟩

/-! Arithmetic. -/

theorem Plain.aluStore (h : Plain R) (op : AluOp) (w : Width) (dst : RM) (r : Val w) : Keeps R (aluStore op w dst r) :=
  .ite (.writeRM h.closed _ _ _) (h.pure _)

theorem Plain.aluRmReg (h : Plain R) (op : AluOp) (d w : Bool) (reg : RegNum) (rm : RM) :
    Keeps R (aluRmReg op d w reg rm) :=
  h.read fun _ => h.bind (.readRM h.closed _ _) fun _ => h.bind (.readRM h.closed _ _) fun _ =>
    h.bind (h.aluCompute _ _ _) fun _ => h.aluStore _ _ _ _

theorem Plain.aluRmImm (h : Plain R) (op : AluOp) (w : Bool) (rm : RM) (imm : Imm) : Keeps R (aluRmImm op w rm imm) :=
  h.read fun _ => h.bind (.readRM h.closed _ _) fun _ => h.bind (h.aluCompute _ _ _) fun _ => h.aluStore _ _ _ _

theorem Plain.incDec (h : Plain R) (w : Width) (dec : Bool) (rm : RM) : Keeps R (incDec w dec rm) :=
  h.bind (.readRM h.closed _ _) fun _ => h.bind (.writeRM h.closed _ _ _) fun _ => h.updFlags fun _ => ⟨rfl, id, id, id⟩

theorem Plain.asciiAdjust (h : Plain R) (sub : Bool) : Keeps R (asciiAdjust sub) := by
  have d := Keeps.drawBit h.closed
  refine h.read fun _ => h.bind (.setReg h.closed _ _ _) fun _ => ?_
  refine h.bind d fun _ => h.bind d fun _ => h.bind d fun _ => h.bind d fun _ => ?_
  exact h.updFlags fun _ => ⟨rfl, id, id, id⟩

theorem Plain.decimalAdjust (h : Plain R) (f : BitVec 8 → Bool → Bool → BitVec 8 × Bool × Bool) :
    Keeps R (decimalAdjust f) :=
  h.read fun _ => h.bind (.setReg h.closed _ _ _) fun _ => h.bind (.drawBit h.closed) fun _ =>
    h.updFlags fun _ => ⟨rfl, id, id, id⟩

theorem Plain.setPair (h : Plain R) (w : Width) (hi lo : Val w) : Keeps R (setPair w hi lo) := by
  cases w with
  | w8 => exact .setReg h.closed _ _ _
  | w16 => exact h.bind (.setReg h.closed _ _ _) fun _ => .setReg h.closed _ _ _
  | w32 => exact h.bind (.setReg h.closed _ _ _) fun _ => .setReg h.closed _ _ _

/-- What a division writes (R277, R278). -/
theorem Plain.divided (h : Plain R) (w : Width) (q r : Val w) :
    Keeps R (do setQuotRem w q r; Machine.undefStatus) := h.bind (h.setPair w r q) fun _ => h.undefStatus

theorem Plain.imulTo (h : Plain R) (w : Width) (reg : RegNum) (a b : Val w) : Keeps R (imulTo w reg a b) :=
  h.bind (.setReg h.closed _ _ _) fun _ => h.mulFlags _

theorem Plain.asciiFlags (h : Plain R) (al : BitVec 8) : Keeps R (asciiFlags al) := by
  have d := Keeps.drawBit h.closed
  exact h.bind d fun _ => h.bind d fun _ => h.bind d fun _ => h.updFlags fun _ => ⟨rfl, id, id, id⟩

/-! Strings (R330 to R349). -/

theorem Plain.stepIndex (h : Plain R) (i : RegNum) (w : Width) : Keeps R (stepIndex i w) :=
  .upd fun s => h.closed.gpr s _

theorem Plain.readSource (h : Plain R) (w : Width) : Keeps R (readSource w) := h.read fun _ => .segReadV h.closed _ _ _

theorem Plain.readDest (h : Plain R) (w : Width) : Keeps R (readDest w) := h.read fun _ => .segReadV h.closed _ _ _

theorem Plain.writeDest (h : Plain R) (w : Width) (v : Val w) : Keeps R (writeDest w v) :=
  h.read fun _ => .segWriteV h.closed _ _ _ _

theorem Plain.cmpsOnce (h : Plain R) (w : Width) : Keeps R (cmpsOnce w) :=
  h.bind (h.readSource w) fun _ => h.bind (h.readDest w) fun _ =>
  h.bind (h.updFlags fun f => f.status_within _) fun _ =>
    h.bind (h.stepIndex _ w) fun _ => h.stepIndex _ w

theorem Plain.insOnce (h : Plain R) (w : Width) : Keeps R (insOnce w) :=
  h.read fun _ => h.bind (h.ioPermitted _ _) fun _ => h.bind (.probeWrite h.closed _ _ _ _) fun _ =>
    h.bind (h.ioRead _ _) fun _ => h.bind (h.writeDest _ _) fun _ => h.stepIndex _ _

theorem Plain.lodsOnce (h : Plain R) (w : Width) : Keeps R (lodsOnce w) :=
  h.bind (h.readSource w) fun _ => h.bind (.setReg h.closed _ _ _) fun _ => h.stepIndex _ _

theorem Plain.movsOnce (h : Plain R) (w : Width) : Keeps R (movsOnce w) :=
  h.bind (h.readSource w) fun _ => h.bind (h.writeDest _ _) fun _ => h.bind (h.stepIndex _ _) fun _ => h.stepIndex _ _

theorem Plain.outsOnce (h : Plain R) (w : Width) : Keeps R (outsOnce w) :=
  h.read fun _ => h.bind (h.ioPermitted _ _) fun _ => h.bind (h.readSource w) fun _ => h.bind (h.ioWrite _ _ _) fun _ =>
    h.stepIndex _ _

theorem Plain.scasOnce (h : Plain R) (w : Width) : Keeps R (scasOnce w) :=
  h.bind (h.readDest w) fun _ => h.bind (.getReg h.closed _ _) fun _ =>
    h.bind (h.updFlags fun f => f.status_within _) fun _ => h.stepIndex _ _

theorem Plain.stosOnce (h : Plain R) (w : Width) : Keeps R (stosOnce w) :=
  h.bind (.getReg h.closed _ _) fun _ => h.bind (h.writeDest _ _) fun _ => h.stepIndex _ _

theorem Plain.again (h : Plain R) : Keeps R again := .upd fun s => h.trans (h.cur s _) (h.ctl _ _)

/-- A repeated instruction keeps what one iteration of it keeps (R340). -/
theorem Plain.repeated (h : Plain R) {once : State → M Unit} (stop : Option Bool) (ho : ∀ s, Keeps R (once s)) :
    KeepsNext R fun s => repeated (once s) stop s := by
  refine h.finish fun s => .ite h.advance (h.bind (ho s) fun _ => h.bind (.upd fun t => h.closed.gpr t _) fun _ => ?_)
  exact h.read fun _ => .ite h.advance h.again

/-! Bits (R360 to R366, R571 to R576). -/

theorem Plain.scanBit (h : Plain R) (reg : RegNum) (rm : RM) (find : (n : Nat) → BitVec n → Nat) :
    Keeps R (scanBit reg rm find) :=
  h.read fun _ => h.bind (.readRM h.closed _ _) fun _ => h.bind (.ite (h.pure _) (.setReg h.closed _ _ _)) fun _ =>
    h.bind h.undefStatus fun _ => h.updFlags fun _ => ⟨rfl, id, id, id⟩

theorem Plain.bitFlags (h : Plain R) (c : Bool) : Keeps R (bitFlags c) := by
  have d := Keeps.drawBit h.closed
  refine h.bind d fun _ => h.bind d fun _ => h.bind d fun _ => h.bind d fun _ => ?_
  exact h.updFlags fun _ => ⟨rfl, id, id, id⟩

theorem Plain.bitMem (h : Plain R) (op : BitOp) (w : Width) (k : SReg) (off : BitVec 32) (b : Nat) :
    Keeps R (bitMem op w k off b) :=
  h.bind (.ite (.probeWrite h.closed _ _ _ _) (h.pure _)) fun _ => h.bind (.segReadV h.closed _ _ _) fun _ =>
    h.bind (.ite (.segWriteV h.closed _ _ _ _) (h.pure _)) fun _ => h.bitFlags _

theorem Plain.bitReg (h : Plain R) (op : BitOp) (w : Width) (r : RegNum) (b : Nat) : Keeps R (bitReg op w r b) :=
  h.bind (.getReg h.closed _ _) fun _ => h.bind (.setReg h.closed _ _ _) fun _ => h.bitFlags _

theorem Plain.bitTestImm (h : Plain R) (op : BitOp) (rm : RM) (imm : BitVec 8) : Keeps R (bitTestImm op rm imm) := by
  refine h.read fun s => ?_
  cases rm with
  | reg r => exact h.bitReg _ _ _ _
  | mem m => exact h.bitMem _ _ _ _ _

theorem Plain.bitTestReg (h : Plain R) (op : BitOp) (reg : RegNum) (rm : RM) : Keeps R (bitTestReg op reg rm) := by
  refine h.read fun s => ?_
  cases rm with
  | reg r => exact h.bitReg _ _ _ _
  | mem m => exact h.bitMem _ _ _ _ _

theorem Plain.probeRM (h : Plain R) (w : Width) (rm : RM) : Keeps R (probeRM w rm) := by
  cases rm with
  | reg r => exact h.pure _
  | mem m => exact h.read fun _ => .probeWrite h.closed _ _ _ _

/-! Control transfer (R381 to R408). -/

theorem Plain.nearReturn (h : Plain R) (k : BitVec 16) : Keeps R (nearReturn k) :=
  h.read fun _ => h.bind (.pop h.closed _) fun _ => h.bind (h.checkTarget _) fun _ =>
    h.bind (.upd fun s => h.closed.gpr s _) fun _ => h.jumpTo _

theorem Plain.jumpIf (h : Plain R) (taken : Bool) (d : BitVec 32) : Keeps R (jumpIf taken d) :=
  .ite (h.jumpRel d) h.advance

theorem Plain.loopIf (h : Plain R) (cond : Bool) (d : BitVec 8) : Keeps R (loopIf cond d) :=
  h.bind (.upd fun s => h.closed.gpr s _) fun _ => h.read fun _ => h.jumpIf _ _

theorem Plain.copyFrames (h : Plain R) (w : Width) (k : Nat) : Keeps R (copyFrames w k) := by
  induction k with
  | zero => exact h.pure _
  | succ k ih =>
    refine h.read fun _ => h.bind (.setReg h.closed _ _ _) fun _ => h.read fun _ => ?_
    exact h.bind (.segReadV h.closed _ _ _) fun _ => h.bind (.push h.closed _ _) fun _ => ih

theorem Plain.checkStackSegs (h : Plain R) (n : Nat) (l : List (BitVec 32 × Bool)) : Keeps R (checkStackSegs n l) := by
  induction l with
  | nil => exact h.pure _
  | cons a l ih => exact h.bind (.segCheck h.closed _ _ _ _) fun _ => ih

theorem Plain.probeStack (h : Plain R) (n : Nat) (l : List (BitVec 32 × Bool)) : Keeps R (probeStack n l) := by
  induction l with
  | nil => exact h.pure _
  | cons a l ih => exact h.bind (.probe h.closed _ _ _ _ _) fun _ => ih

theorem Plain.checkTop (h : Plain R) (t : BitVec 32) : Keeps R (checkTop t) :=
  h.read fun _ => .ite (h.pure _) (h.raise _ _)

theorem Plain.checkEnter (h : Plain R) (w : Width) (lev : Nat) (frame : BitVec 16) : Keeps R (checkEnter w lev frame) :=
  h.read fun _ => .ite (h.bind (h.checkStackSegs _ _) fun _ => h.bind (h.checkTop _) fun _ => h.probeStack _ _)
    (h.pure _)

/-! Data transfer and logic. -/

theorem Plain.moveToRM (h : Plain R) (w : Bool) (reg : RegNum) (rm : RM) : Keeps R (moveToRM w reg rm) :=
  h.read fun _ => h.bind (.getReg h.closed _ _) fun _ => .writeRM h.closed _ _ _

theorem Plain.moveFromRM (h : Plain R) (w : Bool) (reg : RegNum) (rm : RM) : Keeps R (moveFromRM w reg rm) :=
  h.read fun _ => h.bind (.readRM h.closed _ _) fun _ => .setReg h.closed _ _ _

theorem Plain.shadowIfSs (h : Plain R) (k : SReg) : Keeps R (shadowIfSs k) := .ite (h.updCtl _) (h.pure _)

theorem Plain.pushAll (h : Plain R) (w : Width) (vs : List (Val w)) : Keeps R (pushAll w vs) := by
  induction vs with
  | nil => exact h.pure _
  | cons v vs ih => exact h.bind (.push h.closed _ _) fun _ => ih

theorem Plain.popSeg (h : Plain R) (w : Width) (k : SReg) : Keeps R (popSeg w k) :=
  h.bind (.peek h.closed _ _) fun _ => h.bind (h.loadSeg _ _) fun _ => h.read fun _ =>
    h.bind (.setSp h.closed _) fun _ => h.shadowIfSs k

theorem Plain.inputTo (h : Plain R) (w : Width) (port : BitVec 16) : Keeps R (inputTo w port) :=
  h.bind (h.ioPermitted _ _) fun _ => h.bind (h.ioRead _ _) fun _ => .setReg h.closed _ _ _

theorem Plain.outputFrom (h : Plain R) (w : Width) (port : BitVec 16) : Keeps R (outputFrom w port) :=
  h.bind (h.ioPermitted _ _) fun _ => h.bind (.getReg h.closed _ _) fun _ => h.ioWrite _ _ _

theorem Plain.loadPointer (h : Plain R) (k : SReg) (reg : RegNum) (m : MemOp) : Keeps R (loadPointer k reg m) :=
  h.read fun _ => h.bind (.readFarPtr h.closed _) fun _ => h.bind (h.loadSeg _ _) fun _ => .setReg h.closed _ _ _

theorem Plain.testWith (h : Plain R) (w : Width) (rm : RM) (b : Val w) : Keeps R (testWith w rm b) :=
  h.bind (.readRM h.closed _ _) fun _ => h.bind (h.aluCompute _ _ _) fun _ => h.pure _

theorem Plain.shiftRM (h : Plain R) (op : ShiftOp) (w : Width) (rm : RM) (c : Nat) : Keeps R (shiftRM op w rm c) :=
  .ite (h.pure _) (h.bind (.readRM h.closed _ _) fun _ => h.bind (h.shiftCompute _ _ _) fun _ =>
    .writeRM h.closed _ _ _)

theorem Plain.drawVal (h : Plain R) (w : Width) : Keeps R (drawVal w) := by
  cases w with
  | w8 => exact .drawByte h.closed
  | w16 => exact .drawWord h.closed
  | w32 => exact .drawDword h.closed

theorem Plain.doubleShift (h : Plain R) (left : Bool) (reg : RegNum) (rm : RM) (c : Nat) :
    Keeps R (doubleShift left reg rm c) := by
  refine .ite (h.pure _) (h.read fun s => h.bind (.readRM h.closed _ _) fun a => .ite ?_ ?_)
  · exact h.bind (h.drawVal _) fun _ => h.bind (.writeRM h.closed _ _ _) fun _ => h.undefStatus
  · refine h.bind (.writeRM h.closed _ _ _) fun _ => h.bind (h.drawIf _ _) fun _ =>
      h.bind (.drawBit h.closed) fun _ => ?_
    exact h.updFlags fun _ => ⟨rfl, id, id, id⟩

/-! Processor control and protection. -/

theorem Plain.npxPending (h : Plain R) : Keeps R npxPending :=
  h.read fun _ => .ite (.ite (h.raise _ _) (h.pure _)) (.ite (.throw h.closed _) (h.pure _))

theorem Plain.specialMove (h : Plain R) {m : State → M Unit} (hm : ∀ s, Keeps R (m s)) :
    KeepsNext R fun s => specialMove (m s) s :=
  h.complete fun s => h.bind h.privileged fun _ => h.bind (hm s) fun _ => h.undefStatus

theorem Plain.withReserved (h : Plain R) (d v : BitVec 32) : Keeps R (withReserved d v) :=
  h.bind (.drawDword h.closed) fun _ => h.pure _

theorem Plain.readCr0 (h : Plain R) : Keeps R readCr0 := h.read fun _ => h.withReserved _ _

theorem Plain.debugGuard (h : Plain R) : Keeps R debugGuard := h.read fun _ => .ite (h.raise _ _) (h.pure _)

theorem Plain.readDr (h : Plain R) (dr : DrNum) (y : Sys) : Keeps R (readDr dr y) := by
  cases dr with
  | dr6 => exact h.withReserved _ _
  | dr7 => exact h.withReserved _ _
  | _ => exact h.pure _

theorem Plain.setZf (h : Plain R) (z : Bool) : Keeps R (setZf z) := h.updFlags fun _ => ⟨rfl, id, id, id⟩

theorem Plain.descIfOk (h : Plain R) (sel : BitVec 16) : Keeps R (descIfOk sel) := by
  refine h.read fun s => .ite (h.pure _) ?_
  cases s.descAddr sel with
  | none => exact h.pure _
  | some a => exact h.bind (.descAt h.closed a) fun _ => h.pure _

theorem Plain.lookAt (h : Plain R) {rm : RM} {ok : State → State → Desc → Bool} {f : State → Desc → M Unit}
    (hf : ∀ s d, Keeps R (f s d)) : KeepsNext R fun s => lookAt rm (ok s) (f s) s := by
  refine h.complete fun s => h.bind h.protectedOnly fun _ => h.bind (.readRM h.closed _ _) fun _ => ?_
  refine h.bind (h.descIfOk _) fun d? => ?_
  cases d? with
  | none => exact h.setZf _
  | some d => exact .ite (h.bind (h.setZf _) fun _ => hf s d) (h.setZf _)

theorem Plain.readTable (h : Plain R) (o : MemOp) : Keeps R (readTable o) :=
  h.read fun _ => h.bind (.segRead h.closed _ _ _ _) fun _ => h.bind (.segRead h.closed _ _ _ _) fun _ => h.pure _

theorem Plain.writeTable (h : Plain R) (o : MemOp) (t : TableReg) : Keeps R (writeTable o t) :=
  h.read fun _ => h.bind (.probeWrite h.closed _ _ _ _) fun _ => h.bind (.probeWrite h.closed _ _ _ _) fun _ =>
    h.bind (.segWrite h.closed _ _ _ _) fun _ => .segWrite h.closed _ _ _ _

theorem Plain.globalDesc (h : Plain R) (sel : BitVec 16) : Keeps R (globalDesc sel) :=
  .ite (h.raise _ _) (.readDesc h.closed _ (h.raise _ _))

theorem Plain.storeSel (h : Plain R) (rm : RM) (sel : BitVec 16) : Keeps R (storeSel rm sel) := by
  refine h.read fun s => ?_
  cases rm with
  | reg r => exact h.bind (.selItem h.closed _ _) fun _ => .setReg h.closed _ _ _
  | mem m => exact .writeRM h.closed _ _ _

theorem Plain.readMsw (h : Plain R) : Keeps R readMsw := h.read fun _ => .ite h.readCr0 (h.pure _)

end Sys2Proof.Machine
end

section
/-! What the coprocessor's instructions keep: they change the coprocessor, its signals, memory through checked
stores, and AX. -/

namespace Sys2Proof.Machine

variable {α : Type} {R : State → State → Prop}

/-- A value from one of two computations, and what follows with it. -/
theorem Plain.bindIte {β : Type} (h : Plain R) {c : Prop} [Decidable c] {a b : M α} {f : α → M β} (ha : Keeps R a)
    (hb : Keeps R b) (hf : ∀ x, Keeps R (f x)) : Keeps R (if c then a >>= f else b >>= f) :=
  .ite (h.bind ha hf) (h.bind hb hf)

/-! Exceptions, condition codes and results (R476 to R479). -/

theorem Plain.settle (h : Plain R) : Keeps R settle := .upd fun s => h.withFpu s _

theorem Plain.resettle (h : Plain R) : Keeps R resettle := .upd fun s => h.withFpu s _

theorem Plain.raiseRounding (h : Plain R) (oe ue pe : Bool) : Keeps R (raiseRounding oe ue pe) := h.updStatus _

theorem Plain.codeNext (h : Plain R) (old : Bool) (c : Code) : Keeps R (c.next old) := by
  cases c with
  | keep => exact h.pure _
  | val b => exact h.pure _
  | undef => exact .drawBit h.closed

theorem Plain.setCodes (h : Plain R) (c : Codes) : Keeps R (setCodes c) :=
  h.read fun _ => h.bind (h.codeNext _ _) fun _ => h.bind (h.codeNext _ _) fun _ => h.bind (h.codeNext _ _) fun _ =>
    h.bind (h.codeNext _ _) fun _ => h.updStatus _

theorem Plain.stackFault (h : Plain R) (c1 : Code) (c : Codes) : Keeps R (stackFault c1 c) :=
  h.read fun _ => h.bind (h.updStatus _) fun _ => h.setCodes _

theorem Plain.putSt (h : Plain R) (i : BitVec 3) (pops : Bool) (v : Temp) : Keeps R (putSt i pops v) := h.updFpu _

theorem Plain.denormalCheck (h : Plain R) (den : Bool) : Keeps R (denormalCheck den) :=
  h.read fun _ => .ite (h.bind (h.updStatus _) fun _ => h.pure _) (h.pure _)

/-- A masked response after the detection of a denormal operand (R477). -/
theorem Plain.maskedResponse (h : Plain R) {c : Prop} [Decidable c] (den : Bool) {m : M Unit} (hm : Keeps R m) :
    Keeps R (if c then do { let go ← Machine.denormalCheck den; if go then m else Pure.pure () } else Pure.pure ()) :=
  .ite (h.bind (h.denormalCheck den) fun _ => .ite hm (h.pure _)) (h.pure _)

theorem Plain.afterInvalid (h : Plain R) (den : Bool) {m : M Unit} (hm : Keeps R m) : Keeps R (afterInvalid den m) :=
  h.read fun _ => h.maskedResponse den hm

theorem Plain.invalidOp (h : Plain R) (den : Bool) {m : M Unit} (hm : Keeps R m) : Keeps R (invalidOp den m) :=
  h.bind (h.updStatus _) fun _ => h.bind (h.setCodes _) fun _ => h.afterInvalid den hm

theorem Plain.zeroDivideOp (h : Plain R) (den : Bool) {m : M Unit} (hm : Keeps R m) : Keeps R (zeroDivideOp den m) :=
  h.read fun _ => h.bind (h.updStatus _) fun _ => h.bind (h.setCodes _) fun _ => h.maskedResponse den hm

theorem Plain.pushTemp (h : Plain R) (v : Temp) (den : Bool) (c : Codes) : Keeps R (pushTemp v den c) :=
  h.read fun _ => .ite (h.bind (h.stackFault _ _) fun _ => h.afterInvalid den (h.updFpu _))
    (h.bind (h.updFpu _) fun _ => h.setCodes _)

theorem Plain.valueOp (h : Plain R) (den : Bool) {v : M Temp} (hv : Keeps R v) (oe ue pe up : Bool)
    (c : Code → Codes) {put : Temp → M Unit} (hp : ∀ v, Keeps R (put v)) :
    Keeps R (valueOp den v oe ue pe up c put) := by
  refine h.bind (h.denormalCheck den) fun go => .ite (h.read fun s => ?_) (h.setCodes _)
  exact h.bind hv fun t => h.bind (h.raiseRounding _ _ _) fun _ => h.bind (h.setCodes _) fun _ => hp t

theorem Plain.drawTo (h : Plain R) {put : Temp → M Unit} (hp : ∀ v, Keeps R (put v)) :
    Keeps R (do let v ← drawTemp; put v) := h.bind (.drawTemp h.closed) hp

theorem Plain.preStandardOp (h : Plain R) (c : Code → Codes) {put : Temp → M Unit} (hp : ∀ v, Keeps R (put v)) :
    Keeps R (preStandardOp c put) := by
  have d := Keeps.drawBit h.closed
  refine h.bind d fun ie => h.bind d fun de => .ite (h.invalidOp de (h.drawTo hp)) (h.bind d fun ze => .ite ?_ ?_)
  · exact h.zeroDivideOp de (h.drawTo hp)
  · exact h.bind d fun _ => h.bind d fun _ => h.bind d fun _ => h.valueOp _ (.drawTemp h.closed) _ _ _ _ _ hp

theorem Plain.deliverRes (h : Plain R) (den : Bool) (r : Res) (c : Code → Codes) {put : Temp → M Unit}
    (hp : ∀ v, Keeps R (put v)) : Keeps R (deliverRes den r c put) := by
  cases r with
  | invalid v => exact h.invalidOp den (hp v)
  | zeroDivide v => exact h.zeroDivideOp den (hp v)
  | value v oe ue pe up => exact h.valueOp den (h.pure v) _ _ _ _ _ hp
  | unstated oe ue pe up => exact h.valueOp den (.drawTemp h.closed) _ _ _ _ _ hp
  | preStandard => exact h.preStandardOp c hp

theorem Plain.maskedOf (h : Plain R) (vs : List Temp) {put : Temp → M Unit} (hp : ∀ v, Keeps R (put v)) :
    Keeps R (maskedOf vs put) := by
  refine h.read fun s => .ite (h.drawTo hp) ?_
  cases vs with
  | nil => exact hp _
  | cons a vs => exact hp _

theorem Plain.underflowTo (h : Plain R) (pushes : Bool) (vs : List Temp) (den : Bool) {put : Temp → M Unit}
    (hp : ∀ v, Keeps R (put v)) : Keeps R (underflowTo pushes vs den put) :=
  h.read fun _ => h.bind (h.stackFault _ _) fun _ => h.afterInvalid den (h.maskedOf vs hp)

/-! What stands around every coprocessor instruction (R424, R482). -/

theorem Plain.whenFitted (h : Plain R) {n m : M Unit} (hn : Keeps R n) (hm : Keeps R m) : Keeps R (whenFitted n m) :=
  h.bind (h.read fun _ => .ite (h.raise _ _) (h.pure _)) fun _ => h.read fun _ => .ite hn hm

theorem Plain.drawBytes (h : Plain R) (n : Nat) : Keeps R (drawBytes n) := by
  induction n with
  | zero => exact h.pure _
  | succ n ih => exact h.bind (.drawByte h.closed) fun _ => h.bind ih fun _ => h.pure _

theorem Plain.npxProbe (h : Plain R) (m : MemOp) (n al : Nat) (write : Bool) : Keeps R (npxProbe m n al write) :=
  h.read fun _ => h.bind (.segCheck h.closed _ _ _ _) fun _ =>
    .ite (h.raise _ _) (h.bind (.pageCheck h.closed _ _ _ _) fun _ => h.pure _)

theorem Plain.noNpxData (h : Plain R) (m : MemOp) (n al : Nat) (write : Bool) : Keeps R (noNpxData m n al write) :=
  .ite (h.bind (h.npxProbe _ _ _ _) fun _ => h.bind (h.drawBytes _) fun _ => .writeMemBytes h.closed _ _ _) (h.pure _)

theorem Plain.npxRecord (h : Plain R) (i : Instr) (m : Option MemOp) : Keeps R (npxRecord i m) :=
  .upd fun s => h.fpu s _

theorem Plain.npxReg (h : Plain R) {i : Instr} {m : M Unit} (hm : Keeps R m) : KeepsNext R (npxReg i m) :=
  h.complete fun _ => h.whenFitted (h.pure _) (h.bind (h.npxRecord _ _) fun _ => h.bind h.npxPending fun _ =>
    h.bind hm fun _ => h.settle)

theorem Plain.npxMem (h : Plain R) {i : Instr} {o : MemOp} {n al : Nat} {write : Bool} {m : M Unit} (hm : Keeps R m) :
    KeepsNext R (npxMem i o n al write m) :=
  h.complete fun _ => h.whenFitted (h.noNpxData _ _ _ _) (h.bind (h.npxProbe _ _ _ _) fun _ =>
    h.bind (h.npxRecord _ _) fun _ => h.bind h.npxPending fun _ => h.bind hm fun _ => h.settle)

theorem Plain.npxStack (h : Plain R) {i : Instr} {m : M Unit} (hm : Keeps R m) : KeepsNext R (npxStack i m) :=
  h.complete fun _ => h.whenFitted (h.pure _) (h.bind (h.npxRecord _ _) fun _ => h.bind h.npxPending fun _ => hm)

theorem Plain.npxCtl (h : Plain R) {m : M Unit} (hm : Keeps R m) : KeepsNext R (npxCtl m) :=
  h.complete fun _ => h.whenFitted (h.pure _) hm

theorem Plain.npxCtlMem (h : Plain R) {waits : Bool} {o : MemOp} {n al : State → Nat} {write : Bool}
    {m : State → M Unit} (hm : ∀ s, Keeps R (m s)) :
    KeepsNext R fun s => npxCtlMem waits o (n s) (al s) write (m s) s :=
  h.complete fun s => h.whenFitted (h.noNpxData _ _ _ _) (h.bind (h.npxProbe _ _ _ _) fun _ =>
    h.bind (.ite h.npxPending (h.pure _)) fun _ => hm s)

/-! Loads, stores and comparisons (R483 to R513). -/

theorem Plain.readNum (h : Plain R) (f : NumFmt) (o : MemOp) (keep : Bool) : Keeps R (readNum f o keep) :=
  h.bind (.readMemBytes h.closed _ _ _) fun _ => h.pure _

theorem Plain.loadNum (h : Plain R) (f : NumFmt) (o : MemOp) : Keeps R (loadNum f o) := by
  refine h.read fun s => h.bind (h.readNum _ _ _) fun ⟨v, den⟩ => .ite (h.pushTemp _ _ _) (.ite ?_ ?_)
  · exact h.invalidOp false (h.updFpu _)
  · exact h.bind (h.denormalCheck _) fun _ => h.bind (h.setCodes _) fun _ => .ite (h.updFpu _) (h.pure _)

theorem Plain.putNum (h : Plain R) (f : NumFmt) (o : MemOp) (pops : Bool) (v : Nat) : Keeps R (putNum f o pops v) :=
  h.bind (.writeMemBytes h.closed _ _ _) fun _ => .ite (h.updFpu _) (h.pure _)

theorem Plain.drawStore (h : Plain R) : Keeps R drawStore := by
  have d := Keeps.drawBit h.closed
  refine h.bind d fun _ => h.bind (.drawTemp h.closed) fun _ => .ite (h.pure _) ?_
  exact h.bind d fun _ => h.bind d fun _ => h.bind d fun _ => h.pure _

theorem Plain.storeNum (h : Plain R) (f : NumFmt) (o : MemOp) (pops : Bool) : Keeps R (storeNum f o pops) := by
  refine h.read fun s => .ite (h.bind (h.stackFault _ _) fun _ => h.afterInvalid false (h.putNum _ _ _ _)) ?_
  refine h.bindIte h.drawStore (h.pure _) fun r => h.bindIte (.drawBit h.closed) (h.pure _) fun den => ?_
  cases r with
  | invalid w => exact h.invalidOp _ (h.putNum _ _ _ _)
  | value w oe ue pe up =>
    refine h.bind (h.denormalCheck _) fun _ => .ite (h.setCodes _) (.ite ?_ ?_)
    · exact h.bind (h.raiseRounding _ _ _) fun _ => h.setCodes _
    · exact h.bind (h.raiseRounding _ _ _) fun _ => h.bind (h.setCodes _) fun _ => h.putNum _ _ _ _

theorem Plain.loadTemp (h : Plain R) (o : MemOp) : Keeps R (loadTemp o) :=
  h.bind (.readMemBytes h.closed _ _ _) fun _ => h.pushTemp _ _ _

/-- Bytes stored and the stack popped (R492, R493). -/
theorem Plain.storePop (h : Plain R) (o : MemOp) (bs : List Byte) (al : Nat) :
    Keeps R (do writeMemBytes o bs al; Machine.updFpu Fpu.pop) :=
  h.bind (.writeMemBytes h.closed _ _ _) fun _ => h.updFpu _

theorem Plain.storeTemp (h : Plain R) (o : MemOp) : Keeps R (storeTemp o) :=
  h.read fun _ => .ite (h.underflowTo _ _ _ fun _ => h.storePop _ _ _) (h.bind (h.setCodes _) fun _ => h.storePop _ _ _)

theorem Plain.loadBcd (h : Plain R) (o : MemOp) : Keeps R (loadBcd o) := by
  refine h.bind (.readMemBytes h.closed _ _ _) fun bs => ?_
  split
  · exact h.pushTemp _ _ _
  · exact h.bind (.drawTemp h.closed) fun _ => h.pushTemp _ _ _

theorem Plain.preStandardBcd (h : Plain R) {put : List Byte → M Unit} (hp : ∀ bs, Keeps R (put bs)) :
    Keeps R (preStandardBcd put) := by
  refine h.bind (.drawBit h.closed) fun _ => h.bind (.drawTemp h.closed) fun _ => .ite (h.invalidOp false (hp _)) ?_
  exact h.bind (.drawBit h.closed) fun _ => h.bind (h.raiseRounding _ _ _) fun _ => h.bind (h.setCodes _) fun _ => hp _

theorem Plain.storeBcdOp (h : Plain R) (o : MemOp) : Keeps R (storeBcdOp o) := by
  refine h.read fun s => .ite (h.bind (h.stackFault _ _) fun _ => h.afterInvalid false (h.storePop _ _ _)) ?_
  refine .ite (h.preStandardBcd fun _ => h.storePop _ _ _) ?_
  split
  · exact h.invalidOp false (h.storePop _ _ _)
  · exact h.bind (h.raiseRounding _ _ _) fun _ => h.bind (h.setCodes _) fun _ => h.storePop _ _ _

theorem Plain.loadSt (h : Plain R) (i : BitVec 3) : Keeps R (loadSt i) :=
  h.read fun _ => .ite (h.underflowTo _ _ _ fun _ => h.updFpu _) (h.pushTemp _ _ _)

theorem Plain.storeSt (h : Plain R) (i : BitVec 3) (pops : Bool) : Keeps R (storeSt i pops) :=
  h.read fun _ => .ite (h.underflowTo _ _ _ (h.putSt i pops)) (h.bind (h.setCodes _) fun _ => h.putSt _ _ _)

theorem Plain.exchange (h : Plain R) (i : BitVec 3) : Keeps R (exchange i) :=
  h.read fun _ => .ite (h.bind (h.stackFault _ _) fun _ => h.afterInvalid _ (h.updFpu _))
    (h.bind (h.setCodes _) fun _ => h.updFpu _)

theorem Plain.popTimes (h : Plain R) (n : Nat) : Keeps R (popTimes n) := by
  induction n with
  | zero => exact h.pure _
  | succ n ih => exact h.bind (h.updFpu _) fun _ => ih

theorem Plain.compareEmpty (h : Plain R) (den : Bool) (pops : Nat) : Keeps R (compareEmpty den pops) :=
  h.read fun _ => h.bind (h.stackFault _ _) fun _ => h.afterInvalid den (h.popTimes pops)

theorem Plain.compareWith (h : Plain R) (quietOk : Bool) (b : Temp) (den : Bool) (pops : Nat) :
    Keeps R (compareWith quietOk b den pops) := by
  have d := Keeps.drawBit h.closed
  refine h.read fun s => h.bindIte d (h.pure _) fun bad => h.bindIte d (h.pure _) fun _ => ?_
  refine h.bind (.ite (h.updStatus _) (h.pure _)) fun _ => .ite (h.setCodes _) ?_
  exact h.bind (h.denormalCheck _) fun _ => h.bind (h.setCodes _) fun _ => .ite (h.popTimes _) (h.pure _)

theorem Plain.compareNum (h : Plain R) (f : NumFmt) (o : MemOp) (pops : Nat) : Keeps R (compareNum f o pops) :=
  h.read fun _ => h.bind (h.readNum _ _ _) fun ⟨_, _⟩ => .ite (h.compareEmpty _ _) (h.compareWith _ _ _ _)

theorem Plain.compareSt (h : Plain R) (quietOk : Bool) (i : BitVec 3) (pops : Nat) :
    Keeps R (compareSt quietOk i pops) := h.read fun _ => .ite (h.compareEmpty _ _) (h.compareWith _ _ _ _)

theorem Plain.testZero (h : Plain R) : Keeps R testZero :=
  h.read fun _ => .ite (h.compareEmpty _ _) (h.compareWith _ _ _ _)

theorem Plain.examine (h : Plain R) : Keeps R examine :=
  h.read fun _ => .ite (h.setCodes _) (.ite (h.setCodes _) (h.setCodes _))

theorem Plain.loadConst (h : Plain R) (k : NpxConst) : Keeps R (loadConst k) := h.read fun _ => h.pushTemp _ _ _

theorem Plain.loadExact (h : Plain R) (v : Temp) : Keeps R (loadExact v) := h.read fun _ => h.pushTemp _ _ _

/-! Arithmetic and the transcendental instructions (R514 to R537). -/

theorem Plain.arithNum (h : Plain R) (op : ArOp) (rev : Bool) (f : NumFmt) (o : MemOp) :
    Keeps R (arithNum op rev f o) :=
  h.read fun _ => h.bind (h.readNum _ _ _) fun ⟨_, _⟩ =>
    .ite (h.underflowTo _ _ _ (h.putSt _ _)) (h.deliverRes _ _ _ (h.putSt _ _))

theorem Plain.underflowPair (h : Plain R) (i j : BitVec 3) {put : Temp → M Unit} (hp : ∀ v, Keeps R (put v)) :
    Keeps R (underflowPair i j put) := h.read fun _ => h.underflowTo _ _ _ hp

theorem Plain.arithSt (h : Plain R) (op : ArOp) (rev d : Bool) (i : BitVec 3) (pops : Bool) :
    Keeps R (arithSt op rev d i pops) :=
  h.read fun _ => .ite (h.underflowPair _ _ (h.putSt _ _)) (h.deliverRes _ _ _ (h.putSt _ _))

theorem Plain.unary (h : Plain R) (f : State → Temp → Res) : Keeps R (unary f) :=
  h.read fun _ => .ite (h.underflowTo _ _ _ (h.putSt _ _)) (h.deliverRes _ _ _ (h.putSt _ _))

theorem Plain.scaleOp (h : Plain R) : Keeps R scaleOp :=
  h.read fun _ => .ite (h.underflowPair _ _ (h.putSt _ _)) (h.deliverRes _ _ _ (h.putSt _ _))

theorem Plain.premOp (h : Plain R) (ieee : Bool) : Keeps R (premOp ieee) :=
  h.read fun _ => .ite (h.underflowPair _ _ (h.putSt _ _)) (h.deliverRes _ _ _ (h.putSt _ _))

theorem Plain.withPush (h : Plain R) (a : Temp) (r : Res) (second : Temp) (c : Code → Codes) :
    Keeps R (withPush a r second c) := by
  refine h.read fun s => .ite (h.bind (h.stackFault _ _) fun _ => h.afterInvalid _ (h.updFpu _)) ?_
  refine h.deliverRes _ _ _ fun v => ?_
  split
  · exact h.updFpu _
  · exact h.updFpu _

theorem Plain.underflowBoth (h : Plain R) : Keeps R underflowBoth := h.underflowTo _ _ _ fun _ => h.updFpu _

theorem Plain.extractOp (h : Plain R) : Keeps R extractOp :=
  h.read fun _ => .ite h.underflowBoth (h.bindIte (.drawTemp h.closed) (h.pure _) fun _ => h.withPush _ _ _ _)

theorem Plain.signOp (h : Plain R) (f : Temp → Temp) : Keeps R (signOp f) :=
  h.read fun _ => .ite (h.underflowTo _ _ _ (h.putSt _ _)) (h.bind (h.setCodes _) fun _ => h.putSt _ _ _)

theorem Plain.trigOp (h : Plain R) (k : Config.NpxFun) (atZero : Temp → Temp) : Keeps R (trigOp k atZero) :=
  h.read fun _ => .ite (h.underflowTo _ _ _ (h.putSt _ _)) (.ite (h.setCodes _) (h.deliverRes _ _ _ (h.putSt _ _)))

theorem Plain.tanOp (h : Plain R) : Keeps R tanOp :=
  h.read fun _ => .ite h.underflowBoth (.ite (h.withPush _ _ _ _) (.ite (h.setCodes _) (h.withPush _ _ _ _)))

theorem Plain.sincosOp (h : Plain R) : Keeps R sincosOp :=
  h.read fun _ => .ite h.underflowBoth (.ite (h.setCodes _) (h.withPush _ _ _ _))

theorem Plain.binaryOp (h : Plain R) (f : State → Temp → Temp → Res) : Keeps R (binaryOp f) :=
  h.read fun _ => .ite (h.underflowPair _ _ (h.putSt _ _)) (h.deliverRes _ _ _ (h.putSt _ _))

theorem Plain.exp2Op (h : Plain R) : Keeps R exp2Op :=
  h.read fun _ => .ite (h.underflowTo _ _ _ (h.putSt _ _)) (h.deliverRes _ _ _ (h.putSt _ _))

/-! Control instructions and images (R538 to R561). -/

theorem Plain.initNpx (h : Plain R) : Keeps R initNpx := .upd fun s => h.trans (h.fpu s _) (h.link _ _)

theorem Plain.underDraw (h : Plain R) (v : BitVec 16) : Keeps R (underDraw v) :=
  h.bind (.drawWord h.closed) fun _ => h.pure _

theorem Plain.drawNibble (h : Plain R) : Keeps R drawNibble := h.bind (.drawByte h.closed) fun _ => h.pure _

theorem Plain.env32 (h : Plain R) : Keeps R env32 := by
  refine h.read fun s => h.bind (h.underDraw _) fun _ => h.bind (h.underDraw _) fun _ =>
    h.bind (h.underDraw _) fun _ => ?_
  refine .ite (h.bind (h.underDraw _) fun _ => h.bind h.drawNibble fun _ => ?_) ?_
  · exact h.bind (.drawBit h.closed) fun _ => h.bind (h.underDraw _) fun _ => h.pure _
  · exact h.bind h.drawNibble fun _ => h.bind (h.underDraw _) fun _ => h.pure _

theorem Plain.envImage (h : Plain R) : Keeps R envImage :=
  h.read fun _ => .ite (h.bind h.env32 fun _ => h.pure _) (h.pure _)

theorem Plain.storeEnv (h : Plain R) (o : MemOp) : Keeps R (storeEnv o) :=
  h.read fun _ => h.bind h.envImage fun _ => h.bind (.writeMemBytes h.closed _ _ _) fun _ =>
    h.bind (h.updFpu _) fun _ =>
    h.bind (h.setCodes _) fun _ => h.resettle

theorem Plain.drawFop (h : Plain R) : Keeps R drawFop := h.bind (.drawWord h.closed) fun _ => h.pure _

theorem Plain.loadEnv (h : Plain R) (o : MemOp) : Keeps R (loadEnv o) :=
  h.read fun _ => h.bind (.readMemBytes h.closed _ _ _) fun _ => h.bind h.drawFop fun _ =>
    h.bind (.upd fun t => h.fpu t _) fun _ => h.resettle

theorem Plain.saveState (h : Plain R) (o : MemOp) : Keeps R (saveState o) :=
  h.read fun _ => h.bind h.envImage fun _ => h.bind (.writeMemBytes h.closed _ _ _) fun _ => h.initNpx

theorem Plain.restoreState (h : Plain R) (o : MemOp) : Keeps R (restoreState o) :=
  h.read fun _ => h.bind (.readMemBytes h.closed _ _ _) fun _ => h.bind h.drawFop fun _ =>
    h.bind (.upd fun t => h.fpu t _) fun _ => h.resettle

theorem Plain.loadCw (h : Plain R) (o : MemOp) : Keeps R (loadCw o) :=
  h.bind (.readMemBytes h.closed _ _ _) fun _ => h.bind (h.updFpu _) fun _ => h.bind (h.setCodes _) fun _ => h.resettle

theorem Plain.storeWord (h : Plain R) (o : MemOp) (v : BitVec 16) : Keeps R (storeWord o v) :=
  h.bind (.writeMemBytes h.closed _ _ _) fun _ => h.setCodes _

theorem Plain.storeSwAx (h : Plain R) : Keeps R storeSwAx :=
  h.read fun _ => h.bind (.setReg h.closed _ _ _) fun _ => h.setCodes _

theorem Plain.drawAx (h : Plain R) : Keeps R drawAx := h.bind (.drawWord h.closed) fun _ => .setReg h.closed _ _ _

theorem Plain.clearExceptions (h : Plain R) : Keeps R clearExceptions := h.bind (h.updStatus _) fun _ => h.setCodes _

theorem Plain.setPm (h : Plain R) : Keeps R setPm :=
  h.read fun _ => .ite (h.updFpu _) (.ite (h.raise _ _) (h.pure _))

end Sys2Proof.Machine
end

section
/-! What each instruction keeps, and what a step keeps. -/

namespace Sys2Proof.Machine

variable {R : State → State → Prop}

/-! Meanings that are written out in the instruction itself. -/

theorem Plain.intN (h : Plain R) (typ : BitVec 8) : KeepsNext R (execIntN typ) := by
  intro s t ht
  unfold execIntN at ht
  split at ht
  · exact h.finishAt (h.raise _ _ s) ht
  · exact h.deliver _ s t ht

theorem Plain.into (h : Plain R) : KeepsNext R execInto := by
  intro s t ht
  unfold execInto at ht
  split at ht
  · exact h.deliver _ s t ht
  · exact h.completeAt (h.pure () s) ht

theorem Plain.prefixed (h : Plain R) (c : State → Cur) : KeepsNext R fun s => prefixed s (c s) := by
  intro s t ht
  cases ht
  exact h.cur s _

theorem Plain.enterFrame (h : Plain R) (frame : BitVec 16) (level : BitVec 8) :
    KeepsNext R (execEnter frame level) := by
  refine h.complete fun s => h.bind (h.checkEnter _ _ _) fun _ => h.bind (.push h.closed _ _) fun _ => ?_
  refine h.read fun s1 => h.bind (.ite (h.pure _) ?_) fun _ => h.bind (.setReg h.closed _ _ _) fun _ => ?_
  · exact h.bind (h.copyFrames _ _) fun _ => .push h.closed _ _
  · exact h.read fun _ => h.bind (h.checkTop _) fun _ => .setSp h.closed _

theorem Plain.cmpxchg (h : Plain R) (w : Bool) (reg : RegNum) (rm : RM) : KeepsNext R (execCmpxchg w reg rm) := by
  refine h.complete fun s => h.bind (h.probeRM _ _) fun _ => h.bind (.readRM h.closed _ _) fun d => ?_
  refine h.bind (h.updFlags fun f => f.status_within _) fun _ => .ite (.writeRM h.closed _ _ _) ?_
  exact h.bind (.writeRM h.closed _ _ _) fun _ => .setReg h.closed _ _ _

theorem Plain.xadd (h : Plain R) (w : Bool) (reg : RegNum) (rm : RM) : KeepsNext R (execXadd w reg rm) := by
  refine h.complete fun s => h.bind (h.probeRM _ _) fun _ => h.bind (.readRM h.closed _ _) fun d => ?_
  have flags (o : AluOut (s.opW w).bits) : Keeps R (Machine.updFlags fun f => f.status o) :=
    h.updFlags fun f => f.status_within o
  cases rm with
  | reg r => exact h.bind (.setReg h.closed _ _ _) fun _ => h.bind (.setReg h.closed _ _ _) fun _ => flags _
  | mem m => exact h.bind (.writeRM h.closed _ _ _) fun _ => h.bind (.setReg h.closed _ _ _) fun _ => flags _

theorem Plain.pusha (h : Plain R) : KeepsNext R execPusha := by
  refine h.complete fun s => .ite (h.bind (h.pushAll _ _) fun _ => .ite (h.raise _ _) (.throw h.closed _)) ?_
  exact h.bind (.requireRoom h.closed _ _) fun _ => h.pushAll _ _

theorem Plain.popa (h : Plain R) : KeepsNext R execPopa := by
  have p (w : Width) := Keeps.pop h.closed w
  have s (w : Width) (i : RegNum) (v : Val w) := Keeps.setReg h.closed w i v
  refine h.complete fun _ => h.bind (p _) fun _ => h.bind (p _) fun _ => h.bind (p _) fun _ => h.bind (p _) fun _ => ?_
  refine h.bind (p _) fun _ => h.bind (p _) fun _ => h.bind (p _) fun _ => h.bind (p _) fun _ => ?_
  refine h.bind (s _ _ _) fun _ => h.bind (s _ _ _) fun _ => h.bind (s _ _ _) fun _ => h.bind (s _ _ _) fun _ => ?_
  exact h.bind (s _ _ _) fun _ => h.bind (s _ _ _) fun _ => s _ _ _

/-- The register forms that depend on the operand size (R281, R282, R571). -/
theorem Keeps.bySize {m n : M Unit} (os : Size) (hm : Keeps R m) (hn : Keeps R n) :
    Keeps R (match os with | .s16 => m | .s32 => n) := by cases os <;> assumption

theorem Plain.movRmSreg (h : Plain R) (sreg : SReg) (rm : RM) : KeepsNext R (execMovRmSreg sreg rm) := by
  refine h.complete fun s => ?_
  cases rm with
  | reg r => exact h.bind (.selItem h.closed _ _) fun _ => .setReg h.closed _ _ _
  | mem m => exact .writeRM h.closed _ _ _

theorem Plain.movFromCr (h : Plain R) (cr : CrNum) (reg : RegNum) : KeepsNext R (execMovFromCr cr reg) := by
  refine h.specialMove fun s => ?_
  cases cr with
  | cr0 => exact h.bind h.readCr0 fun _ => .setReg h.closed _ _ _
  | cr2 => exact h.bind (h.pure _) fun _ => .setReg h.closed _ _ _
  | cr3 => exact h.bind (h.withReserved _ _) fun _ => .setReg h.closed _ _ _

theorem Plain.smsw (h : Plain R) (rm : RM) : KeepsNext R (execSmsw rm) := by
  refine h.complete fun s => h.bind h.readMsw fun v => ?_
  cases rm with
  | reg r => exact .ite (.setReg h.closed _ _ _) (h.storeSel _ _)
  | mem m => exact .writeRM h.closed _ _ _

theorem Plain.arpl (h : Plain R) (reg : RegNum) (rm : RM) : KeepsNext R (execArpl reg rm) :=
  h.complete fun _ => h.bind h.protectedOnly fun _ => h.bind (.readRM h.closed _ _) fun _ =>
    .ite (h.bind (.writeRM h.closed _ _ _) fun _ => h.setZf _) (h.setZf _)

theorem Plain.bound (h : Plain R) (reg : RegNum) (m : MemOp) : KeepsNext R (execBound reg m) :=
  h.complete fun _ => h.bind (.segReadV h.closed _ _ _) fun _ => h.bind (.segReadV h.closed _ _ _) fun _ =>
    .ite (h.raise _ _) (h.pure _)

theorem Plain.npxNum (h : Plain R) {i : Instr} {f : NumFmt} {o : MemOp} {write : Bool} {m : M Unit}
    (hm : Keeps R m) : KeepsNext R (npxNum i f o write m) := h.npxMem hm

/-! The instructions that write a system register or the system flags. -/

/-- The instructions whose own effect a plain relation need not keep: they write CR0 to CR3, the debug, test and table
registers, LDTR, TR, or the flags with IOPL. -/
def systemInstr : Instr → Bool
  | .clts => true
  | .popf => true
  | .iret => true
  | .lmsw _ => true
  | .lgdt _ => true
  | .lidt _ => true
  | .lldt _ => true
  | .ltr _ => true
  | .movToCr _ _ => true
  | .movToDr _ _ => true
  | .movToTr _ _ => true
  | _ => false

/-- Every instruction but the system instructions keeps a plain relation: the shared operation behind each one does. -/
theorem exec_keeps (h : Plain R) (i : Instr) (hi : systemInstr i = false) : KeepsNext R (exec i) := by
  unfold exec
  cases i with
  | clts | popf | iret | lmsw | lgdt | lidt | lldt | ltr | movToCr | movToDr | movToTr => cases hi
  -- data transfer
  | movRmReg => exact h.complete fun _ => h.moveToRM _ _ _
  | movRegRm => exact h.complete fun _ => h.moveFromRM _ _ _
  | movRmImm => exact h.complete fun _ => .writeRM h.closed _ _ _
  | movRegImm | lea | lahf => exact h.complete fun _ => .setReg h.closed _ _ _
  | movAccMem | xlat => exact h.complete fun _ => h.bind (.segReadV h.closed _ _ _) fun _ => .setReg h.closed _ _ _
  | movMemAcc => exact h.complete fun _ => .segWriteV h.closed _ _ _ _
  | movSregRm =>
    exact h.complete fun _ => h.bind (.readRM h.closed _ _) fun _ => h.bind (h.loadSeg _ _) fun _ => h.shadowIfSs _
  | movRmSreg => exact h.movRmSreg _ _
  | movsx | movzx => exact h.complete fun _ => h.bind (.readRM h.closed _ _) fun _ => .setReg h.closed _ _ _
  | pushRm => exact h.complete fun _ => h.bind (.readRM h.closed _ _) fun _ => .push h.closed _ _
  | pushReg | pushImm => exact h.complete fun _ => .push h.closed _ _
  | pushSreg | pushFs | pushGs => exact h.complete fun _ => .pushSel h.closed _ _
  | popRm => exact h.complete fun _ => h.bind (.pop h.closed _) fun _ => .writeRM h.closed _ _ _
  | popReg => exact h.complete fun _ => h.bind (.pop h.closed _) fun _ => .setReg h.closed _ _ _
  | popEs | popSs | popDs | popFs | popGs => exact h.complete fun _ => h.popSeg _ _
  | pusha => exact h.pusha
  | popa => exact h.popa
  | xchgRmReg =>
    exact h.complete fun _ => h.bind (.readRM h.closed _ _) fun _ => h.bind (.writeRM h.closed _ _ _) fun _ =>
      .setReg h.closed _ _ _
  | xchgAcc => exact h.complete fun _ => h.bind (.setReg h.closed _ _ _) fun _ => .setReg h.closed _ _ _
  | inPort | inDx => exact h.complete fun _ => h.inputTo _ _
  | outPort | outDx => exact h.complete fun _ => h.outputFrom _ _
  | lds | les | lfs | lgs | lss => exact h.complete fun _ => h.loadPointer _ _ _
  -- arithmetic, logic and flags
  | addRmReg | orRmReg | adcRmReg | sbbRmReg | andRmReg | subRmReg | xorRmReg | cmpRmReg =>
    exact h.complete fun _ => h.aluRmReg _ _ _ _ _
  | addRmImm | orRmImm | adcRmImm | sbbRmImm | andRmImm | subRmImm | xorRmImm | cmpRmImm
  | addAccImm | orAccImm | adcAccImm | sbbAccImm | andAccImm | subAccImm | xorAccImm | cmpAccImm =>
    exact h.complete fun _ => h.aluRmImm _ _ _ _
  | incRm | incReg | decRm | decReg => exact h.complete fun _ => h.incDec _ _ _
  | neg =>
    exact h.complete fun _ => h.bind (.readRM h.closed _ _) fun _ => h.bind (.writeRM h.closed _ _ _) fun _ =>
      h.updFlags fun f => f.status_within _
  | notRm => exact h.complete fun _ => h.bind (.readRM h.closed _ _) fun _ => .writeRM h.closed _ _ _
  | mul | imulAcc =>
    exact h.complete fun _ => h.bind (.readRM h.closed _ _) fun _ => h.bind (h.setPair _ _ _) fun _ => h.mulFlags _
  | imulRegRm | imulRegRmImm => exact h.complete fun _ => h.bind (.readRM h.closed _ _) fun _ => h.imulTo _ _ _ _
  | div | idiv =>
    exact h.complete fun _ => h.bind (.readRM h.closed _ _) fun _ => .ite (h.raise _ _) (h.divided _ _ _)
  | aaa | aas => exact h.complete fun _ => h.asciiAdjust _
  | daa | das => exact h.complete fun _ => h.decimalAdjust _
  | aad | aam => exact h.complete fun _ => h.bind (.setReg h.closed _ _ _) fun _ => h.asciiFlags _
  | cbw | cwd => exact h.complete fun s => .bySize s.os (.setReg h.closed _ _ _) (.setReg h.closed _ _ _)
  | rol | ror | rcl | rcr | shl | shr | sar => exact h.complete fun _ => h.shiftRM _ _ _ _
  | shldImm | shldCl | shrdImm | shrdCl => exact h.complete fun _ => h.doubleShift _ _ _ _
  | testRmReg | testRmImm | testAccImm => exact h.complete fun _ => h.testWith _ _ _
  | clc | cld | cmc | sahf | stc | std => exact h.complete fun _ => h.updFlags fun _ => ⟨rfl, id, id, id⟩
  | cli => exact h.complete fun _ => h.bind h.ioplSensitive fun _ => h.updFlags fun _ => ⟨rfl, id, id, id⟩
  | sti =>
    exact h.complete fun _ => h.bind h.ioplSensitive fun _ => h.bind (h.updFlags fun _ => ⟨rfl, id, id, id⟩) fun _ =>
      h.updCtl _
  | pushf => exact h.complete fun _ => h.bind h.v86Sensitive fun _ => .push h.closed _ _
  -- strings and bits
  | cmps => exact h.complete fun _ => h.cmpsOnce _
  | ins => exact h.complete fun _ => h.insOnce _
  | lods => exact h.complete fun _ => h.lodsOnce _
  | movs => exact h.complete fun _ => h.movsOnce _
  | outs => exact h.complete fun _ => h.outsOnce _
  | scas => exact h.complete fun _ => h.scasOnce _
  | stos => exact h.complete fun _ => h.stosOnce _
  | repeCmps | repneCmps => exact h.repeated _ fun _ => h.cmpsOnce _
  | repIns => exact h.repeated _ fun _ => h.insOnce _
  | repLods => exact h.repeated _ fun _ => h.lodsOnce _
  | repMovs => exact h.repeated _ fun _ => h.movsOnce _
  | repOuts => exact h.repeated _ fun _ => h.outsOnce _
  | repeScas | repneScas => exact h.repeated _ fun _ => h.scasOnce _
  | repStos => exact h.repeated _ fun _ => h.stosOnce _
  | bsf | bsr => exact h.complete fun _ => h.scanBit _ _ _
  | btImm | btcImm | btrImm | btsImm => exact h.complete fun _ => h.bitTestImm _ _ _
  | btReg | btcReg | btrReg | btsReg => exact h.complete fun _ => h.bitTestReg _ _ _
  | bswap =>
    exact h.complete fun s => .bySize s.os (h.bind (.drawWord h.closed) fun _ => .setReg h.closed _ _ _)
      (.setReg h.closed _ _ _)
  | cmpxchg => exact h.cmpxchg _ _ _
  | xadd => exact h.xadd _ _ _
  -- control transfer
  | callNear => exact h.finish fun _ => h.callTo _
  | callRm => exact h.finish fun _ => h.bind (.readRM h.closed _ _) fun _ => h.callTo _
  | callFar | jmpFar => exact h.finish fun _ => h.farTransfer _ _ _
  | callMemFar | jmpMemFar => exact h.finish fun _ => h.bind (.readFarPtr h.closed _) fun _ => h.farTransfer _ _ _
  | jmpShort | jmpNear => exact h.finish fun _ => h.jumpRel _
  | jmpRm => exact h.finish fun _ => h.bind (.readRM h.closed _ _) fun _ => h.nearTransfer _
  | retNear | retNearImm => exact h.finish fun _ => h.nearReturn _
  | retFar | retFarImm => exact h.finish fun _ => h.farReturn _
  | jO | jNo | jB | jNb | jE | jNe | jBe | jNbe | jS | jNs | jP | jNp | jL | jNl | jLe | jNle | jcxz =>
    exact h.finish fun _ => h.jumpIf _ _
  | loop | loopz | loopnz => exact h.finish fun _ => h.loopIf _ _
  | setO | setNo | setB | setNb | setE | setNe | setBe | setNbe | setS | setNs | setP | setNp | setL | setNl | setLe
  | setNle => exact h.complete fun _ => .writeRM h.closed _ _ _
  | enter => exact h.enterFrame _ _
  | leave =>
    exact h.complete fun _ => h.bind (.setSp h.closed _) fun _ => h.bind (.pop h.closed _) fun _ =>
      .setReg h.closed _ _ _
  | intN => exact h.intN _
  | int3 => exact fun s t ht => h.deliver _ s t ht
  | into => exact h.into
  | bound => exact h.bound _ _
  -- processor control and protection
  | hlt => exact h.complete fun _ => h.bind h.privileged fun _ => h.updCtl _
  | nop => exact h.complete fun _ => h.pure _
  | wait => exact h.complete fun _ => .ite (h.raise _ _) h.npxPending
  | invd | wbinvd => exact h.complete fun _ => h.privileged
  | invlpg => exact h.complete fun _ => h.bind h.privileged fun _ => .upd fun s => h.closed.tlb s _
  | movFromCr => exact h.movFromCr _ _
  | movFromDr =>
    exact h.specialMove fun _ => h.bind h.debugGuard fun _ => h.bind (h.readDr _ _) fun _ => .setReg h.closed _ _ _
  | movFromTr => exact h.specialMove fun _ => h.bind (.drawDword h.closed) fun _ => .setReg h.closed _ _ _
  | arpl => exact h.arpl _ _
  | lar | lsl => exact h.lookAt fun _ _ => .setReg h.closed _ _ _
  | verr | verw => exact h.lookAt fun _ _ => h.pure _
  | sgdt | sidt => exact h.complete fun _ => h.writeTable _ _
  | sldt | str => exact h.complete fun _ => h.bind h.protectedOnly fun _ => h.storeSel _ _
  | smsw => exact h.smsw _
  | lockPrefix | repnePrefix | repPrefix | esPrefix | csPrefix | ssPrefix | dsPrefix | fsPrefix | gsPrefix
  | opSizePrefix | addrSizePrefix => exact h.prefixed _
  -- the coprocessor
  | esc =>
    exact h.complete fun _ => .ite (h.raise _ _) (h.whenFitted (h.pure _) (.ite (h.pure _) (h.refuse _)))
  | fldMem | fild | fildM64 => exact h.npxNum (h.loadNum _ _)
  | fldM80 => exact h.npxMem (h.loadTemp _)
  | fbld => exact h.npxMem (h.loadBcd _)
  | fldSt => exact h.npxReg (h.loadSt _)
  | fstMem | fist | fstpMem | fistp | fistpM64 => exact h.npxNum (h.storeNum _ _ _)
  | fstpM80 => exact h.npxMem (h.storeTemp _)
  | fbstp => exact h.npxMem (h.storeBcdOp _)
  | fstSt | fstpSt => exact h.npxReg (h.storeSt _ _)
  | fxch => exact h.npxReg (h.exchange _)
  | fcomMem | ficom | fcompMem | ficomp => exact h.npxNum (h.compareNum _ _ _)
  | fcomSt | fcompSt | fcompp | fucom | fucomp | fucompp => exact h.npxReg (h.compareSt _ _ _)
  | ftst => exact h.npxReg h.testZero
  | fxam => exact h.npxReg h.examine
  | fldz | fld1 => exact h.npxReg (h.loadExact _)
  | fldpi | fldl2t | fldl2e | fldlg2 | fldln2 => exact h.npxReg (h.loadConst _)
  | faddMem | fiadd | fsubMem | fsubrMem | fisub | fisubr | fmulMem | fimul | fdivMem | fdivrMem | fidiv | fidivr =>
    exact h.npxNum (h.arithNum _ _ _ _)
  | faddSt | faddp | fsubSt | fsubrSt | fsubrp | fsubp | fmulSt | fmulp | fdivSt | fdivrSt | fdivrp | fdivp =>
    exact h.npxReg (h.arithSt _ _ _ _ _)
  | fsqrt | frndint => exact h.npxReg (h.unary _)
  | fscale => exact h.npxReg h.scaleOp
  | fprem | fprem1 => exact h.npxReg (h.premOp _)
  | fxtract => exact h.npxReg h.extractOp
  | fabs | fchs => exact h.npxReg (h.signOp _)
  | fptan => exact h.npxReg h.tanOp
  | fsin | fcos => exact h.npxReg (h.trigOp _ _)
  | fsincos => exact h.npxReg h.sincosOp
  | f2xm1 => exact h.npxReg h.exp2Op
  | fpatan | fyl2x | fyl2xp1 => exact h.npxReg (h.binaryOp _)
  | fldcw => exact h.npxCtlMem fun _ => h.loadCw _
  | fstcw | fstsw => exact h.npxCtlMem fun _ => h.storeWord _ _
  | fstenv => exact h.npxCtlMem fun _ => h.storeEnv _
  | fldenv => exact h.npxCtlMem fun _ => h.loadEnv _
  | fsave => exact h.npxCtlMem fun _ => h.saveState _
  | frstor => exact h.npxCtlMem fun _ => h.restoreState _
  | fsetpm => exact h.npxCtl h.setPm
  | finit => exact h.npxCtl h.initNpx
  | fclex => exact h.npxCtl h.clearExceptions
  | fstswAx => exact h.complete fun _ => h.whenFitted h.drawAx h.storeSwAx
  | ffree | fincstp | fdecstp => exact h.npxStack (h.bind (h.updFpu _) fun _ => h.setCodes _)
  | fnop => exact h.npxStack (h.pure _)

end Sys2Proof.Machine
end

section
/-! What a step keeps, from what each instruction keeps. -/

namespace Sys2Proof.Machine

variable {α β : Type} {R : State → State → Prop}

/-! Fetching (R131). -/

theorem Plain.codeByte (h : Plain R) (a : Nat) : Keeps R (codeByte a) := by
  refine h.bind (.physRead h.closed _) fun b => h.read fun s => ?_
  cases oldByte s.stored (busAddr s.cfg a) with
  | none => exact h.pure _
  | some old => exact h.bind (.drawBit h.closed) fun _ => h.pure _

theorem Plain.fetchByte (h : Plain R) (off : Nat) : Keeps R (fetchByte off) :=
  h.read fun _ => .ite (h.raise _ _) (h.bind (.linAddrs h.closed _ _ _ _) fun _ => h.codeByte _)

theorem Plain.decodeStop (h : Plain R) (e : DecErr) : Keeps R (decodeStop e : M α) := by
  cases e with
  | more => exact h.raise _ _
  | ud => exact h.raise _ _
  | undocumented => exact h.refuse _

theorem Plain.fetchFrom (h : Plain R) (c : Ctx) (start more : Nat) (bs : List Byte) :
    Keeps R (fetchFrom c start more bs) := by
  induction more generalizing bs with
  | zero =>
    unfold Machine.fetchFrom
    split
    · exact h.pure _
    · exact h.decodeStop _
  | succ more ih =>
    unfold Machine.fetchFrom
    split
    · exact h.pure _
    · exact h.bind (h.fetchByte _) fun _ => ih _
    · exact h.decodeStop _
    · exact h.decodeStop _

theorem Plain.fetchInstr (h : Plain R) : Keeps R fetchInstr := h.read fun _ => h.fetchFrom _ _ _ _

theorem Plain.checkLock (h : Plain R) (i : Instr) : Keeps R (checkLock i) :=
  h.read fun _ => .ite (.ite (h.pure _) (h.raise _ _)) (.ite (h.raise _ _) (h.pure _))

theorem Plain.checkPrefixes (h : Plain R) (i : Instr) : Keeps R (checkPrefixes i) :=
  h.read fun _ => .ite (h.checkLock i) (h.pure _)

theorem Plain.fetchChecked (h : Plain R) : Keeps R fetchChecked :=
  h.bind h.fetchInstr fun _ => h.bind (h.checkPrefixes _) fun _ => h.bind (.upd fun s => h.cur s _) fun _ => h.pure _

theorem Plain.runFetched (h : Plain R) (hx : ∀ i, KeepsNext R (exec i)) : KeepsNext R runFetched := by
  intro s t ht
  unfold Machine.runFetched at ht
  cases hf : Machine.fetchChecked s with
  | ok i u => rw [hf] at ht; exact h.trans ((h.fetchChecked s).1 i u hf) (hx i u t ht)
  | error x u =>
    rw [hf] at ht
    refine h.finishAt ?_ ht
    exact .error rfl ((h.fetchChecked s).2 x u hf)

/-! The boundary (R605). -/

/-- The state in which an event is taken, or in which execution goes on. -/
def Boundary.state : Boundary → State
  | .take _ s => s
  | .goOn s => s

theorem Plain.sampleNmi (h : Plain R) (s : State) : R s s.sampleNmi := by
  unfold State.sampleNmi
  split
  · exact h.refl s
  · exact h.trans (h.closed.env s _) (h.ctl _ _)

theorem Plain.irqBoundary (h : Plain R) (s : State) : R s (irqBoundary s).state := by
  unfold Machine.irqBoundary
  split
  · exact h.refl s
  · split
    · exact h.refl s
    · dsimp only
      split <;> exact h.closed.env s _

/-- At a boundary a plain relation is kept but for the single-step trap, which sets BS in DR6. -/
theorem Plain.boundary (h : Plain R) (hs : ∀ s : State, R s s.singleStep) (s : State) : R s (boundary s).state := by
  unfold Machine.boundary
  refine h.trans (h.sampleNmi s) ?_
  dsimp only
  split
  · exact h.refl _
  · split
    · exact hs _
    · split
      · exact h.ctl _ _
      · split
        · exact h.irqBoundary _
        · exact h.refl _

theorem Plain.stayHalted (h : Plain R) : KeepsNext R stayHalted := by
  intro s t ht
  unfold Machine.stayHalted at ht
  split at ht <;> cases ht
  exact h.ctl s _

theorem Plain.atBoundary (h : Plain R) (hs : ∀ s : State, R s s.singleStep) (hx : ∀ i, KeepsNext R (exec i)) :
    KeepsNext R atBoundary := by
  intro s t ht
  have hb := h.boundary hs s
  unfold Machine.atBoundary at ht
  cases hbs : Machine.boundary s with
  | take e u => rw [hbs] at ht hb; exact h.trans hb (h.deliver e u t ht)
  | goOn u =>
    rw [hbs] at ht hb
    refine h.trans hb ?_
    dsimp only at ht
    split at ht
    · exact h.stayHalted u t ht
    · exact h.trans (h.ctl u _) (h.runFetched hx _ t ht)

/-- A step keeps what every instruction and the single-step trap keep. -/
theorem Plain.step (h : Plain R) (hs : ∀ s : State, R s s.singleStep) (hx : ∀ i, KeepsNext R (exec i)) :
    KeepsNext R step := by
  intro s t ht
  unfold Machine.step at ht
  split at ht
  · cases ht
  · split at ht
    · exact h.atBoundary hs hx s t ht
    · exact h.runFetched hx s t ht

end Sys2Proof.Machine
end

section
/-! The invariant of the machine (`State.Inv`): every step keeps it, and reset establishes it. -/

namespace Sys2Proof.Machine

variable {α β : Type}

/-- The parameters stay, and so does the invariant if it holds before. -/
def InvStep (s t : State) : Prop := s.Inv → t.cfg = s.cfg ∧ t.Inv

/-- The system flags of `f` may be set in `s`: each is set already or one the processor and the mode have, VM in
protected mode from the 80386 on, RF from the 80386 on, AC on the 80486 (R28). -/
structure Flags.Allowed (f : Flags) (s : State) : Prop where
  vm : f.vm = true → s.flags.vm = true ∨ (s.sys.cr0.pe = true ∧ s.has386 = true)
  rf : f.rf = true → s.flags.rf = true ∨ s.has386 = true
  ac : f.ac = true → s.flags.ac = true ∨ s.has486 = true

theorem Flags.Within.allowed {f : Flags} {s : State} (h : f.Within s.flags) : f.Allowed s :=
  ⟨fun hv => .inl (h.vm hv), fun hr => .inl (h.rf hr), fun ha => .inl (h.ac ha)⟩

theorem State.Inv.rf_has386 {s : State} (i : s.Inv) (h : s.flags.rf = true) : s.has386 = true := by
  by_contra hn
  simp [(i.flags286 (by simpa using hn)).1] at h

theorem State.Inv.vm_has386 {s : State} (i : s.Inv) (h : s.flags.vm = true) : s.has386 = true := by
  by_contra hn
  simp [(i.flags286 (by simpa using hn)).2] at h

theorem State.Inv.ac_has486 {s : State} (i : s.Inv) (h : s.flags.ac = true) : s.has486 = true := by
  by_contra hn
  simp [i.flags386 (by simpa using hn)] at h

/-- Flags that may be set keep the invariant. -/
theorem State.Inv.setFlags {s : State} (i : s.Inv) {f : Flags} (hf : f.Allowed s) : (s.setFlags f).Inv := by
  have hvm (h : f.vm = true) : s.sys.cr0.pe = true ∧ s.has386 = true :=
    (hf.vm h).elim (fun hv => ⟨i.virtual hv, i.vm_has386 hv⟩) id
  have hrf (h : f.rf = true) : s.has386 = true := (hf.rf h).elim i.rf_has386 id
  have hac (h : f.ac = true) : s.has486 = true := (hf.ac h).elim i.ac_has486 id
  refine { i with virtual := fun h => (hvm h).1, flags286 := fun hn => ?_, flags386 := fun hn => ?_ }
  · have hn : s.has386 = false := hn
    simp only [hn, Bool.false_eq_true, and_false, imp_false, Bool.not_eq_true] at hvm hrf
    exact ⟨hrf, hvm⟩
  · have hn : s.has486 = false := hn
    simpa [hn] using hac

/-- A byte stored on the bus keeps memory canonical and within the physical space (R70, R71). -/
theorem State.Inv.storeByte {s : State} (i : s.Inv) (a : Nat) (v : Byte) : (s.storeByte (busAddr s.cfg a) v).Inv :=
  { i with
    memory := wf_memSet _ v i.memory
    inRange := fun c hc => (mem_memSet hc).elim (fun he => he ▸ busAddr_lt s.cfg a) (i.inRange c) }

/-- A new CR0 keeps the invariant if PG comes with PE, NW with CD, and PE with virtual-8086 mode (R32). -/
theorem State.Inv.setCr0 {s : State} (i : s.Inv) {n : Cr0} (hpg : n.pg = true → n.pe = true)
    (hnw : n.nw = true → n.cd = true) (hvm : s.flags.vm = true → n.pe = true) : (s.setCr0 n).Inv := by
  unfold State.setCr0
  dsimp only
  split
  · exact { i with paging := hpg, caches := hnw, virtual := hvm }
  · exact { i with paging := hpg, caches := hnw, virtual := hvm }

theorem State.setCr0_cfg (s : State) (n : Cr0) : (s.setCr0 n).cfg = s.cfg := by
  unfold State.setCr0
  dsimp only
  split <;> rfl

theorem closed_invStep : Closed InvStep where
  refl _ i := ⟨rfl, i⟩
  trans _ _ _ hst htu i := by
    obtain ⟨hc, it⟩ := hst i
    obtain ⟨hc', iu⟩ := htu it
    exact ⟨hc'.trans hc, iu⟩
  draws _ _ i := ⟨rfl, { i with }⟩
  env _ _ i := ⟨rfl, { i with }⟩
  store _ a v i := ⟨rfl, i.storeByte a v⟩
  tlb _ _ i := ⟨rfl, { i with }⟩
  cr2 _ _ i := ⟨rfl, { i with }⟩
  gpr _ _ i := ⟨rfl, { i with }⟩

theorem plain_invStep : Plain InvStep where
  closed := closed_invStep
  eip _ _ i := ⟨rfl, { i with }⟩
  cur _ _ i := ⟨rfl, { i with }⟩
  stored _ _ i := ⟨rfl, { i with }⟩
  ctl _ _ i := ⟨rfl, { i with }⟩
  fpu _ _ i := ⟨rfl, { i with }⟩
  link _ _ i := ⟨rfl, { i with }⟩
  cpl _ _ i := ⟨rfl, { i with }⟩
  flags _ _ hf i := ⟨rfl, i.setFlags hf.allowed⟩
  segs _ _ hv i := ⟨rfl, { i with dataRights := fun k hk => hv k hk (i.dataRights k hk) }⟩
  restored s t hst i := by
    obtain ⟨hc, it⟩ := hst i
    exact ⟨rfl, { i with memory := it.memory, inRange := hc ▸ it.inRange }⟩

/-! The system instructions keep the invariant. -/

/-- From `s` the invariant may be assumed. -/
theorem KeepsAt.of_inv {m : M α} {s : State} (h : s.Inv → KeepsAt InvStep m s) : KeepsAt InvStep m s :=
  ⟨fun a t hm i => (h i).1 a t hm i, fun e t hm i => (h i).2 e t hm i⟩

theorem privileged_ok {s t : State} {a : Unit} (h : privileged s = .ok a t) : t = s ∧ s.cpl = 0#2 := by
  unfold privileged at h
  simp only [M.bind_run, getS_run] at h
  split at h
  · rename_i hc; cases h; exact ⟨rfl, hc⟩
  · cases h

/-- Virtual-8086 mode is at level 3 (R39). -/
theorem State.Inv.vm_of_level0 {s : State} (i : s.Inv) (hc : s.cpl = 0#2) : s.flags.vm = false := by
  by_contra hv
  have hv : s.flags.vm = true := by simpa using hv
  simp [State.cpl, i.virtual hv, hv] at hc

/-- A privileged instruction: what follows runs at level 0. -/
theorem KeepsAt.privileged {R : State → State → Prop} (h : Plain R) {f : Unit → M α} {s : State}
    (hf : s.cpl = 0#2 → KeepsAt R (f ()) s) : KeepsAt R (Machine.privileged >>= f) s := by
  refine (h.privileged s).bind h.closed fun a t ht => ?_
  obtain ⟨rfl, hc⟩ := privileged_ok ht
  exact hf hc

theorem cr0From_caches {s : State} (v : BitVec 32) (i : s.Inv)
    (h : ¬ (s.has486 && !(s.cr0From v).cd && (s.cr0From v).nw) = true) :
    (s.cr0From v).nw = true → (s.cr0From v).cd = true := by
  intro hn
  cases h4 : s.has486 with
  | true => simpa [h4, hn] using h
  | false =>
    simp only [State.cr0From, h4] at hn ⊢
    exact i.caches hn

theorem writeCr0_keeps {s : State} (v : BitVec 32) (hc : s.cpl = 0#2) : KeepsAt InvStep (writeCr0 v) s := by
  have p := plain_invStep
  refine .of_inv fun i => .get p.closed (.ite (fun _ => p.raise _ _ s) fun hpg =>
    .ite (fun _ => p.raise _ _ s) fun hnw => ?_)
  refine .ite (fun _ => p.refuse _ s) fun _ => .upd fun _ => ⟨s.setCr0_cfg _, i.setCr0 ?_ (cr0From_caches v i hnw) ?_⟩
  · simpa using hpg
  · simp [i.vm_of_level0 hc]

theorem movToCr_keeps (cr : CrNum) (reg : RegNum) : KeepsNext InvStep (execMovToCr cr reg) := by
  have p := plain_invStep
  intro s t ht
  refine p.completeAt (.privileged p fun hc => ?_) ht
  refine KeepsAt.bind p.closed ?_ fun _ u _ => p.undefStatus u
  cases cr with
  | cr0 => exact writeCr0_keeps _ hc
  | cr2 => exact .upd fun i => ⟨rfl, { i with }⟩
  | cr3 => exact .upd fun i => ⟨rfl, { i with }⟩

/-- A value masked with the defined bits has no reserved ones. -/
theorem masked_reserved (v d : BitVec 32) : v &&& d &&& ~~~d = 0#32 := by
  simp [BitVec.and_assoc]

theorem setDr_keeps {s : State} (i : s.Inv) (dr : DrNum) (v : BitVec 32) (hv : dr = .dr7 → v.extractLsb' 0 8 = 0#8) :
    (s.setSys (s.sys.setDr dr v)).Inv := by
  cases dr with
  | dr6 => exact { i with dr6 := masked_reserved v _ }
  | dr7 =>
    refine { i with dr7 := masked_reserved v _, unarmed := ?_ }
    show (v &&& dr7Defined).extractLsb' 0 8 = 0#8
    rw [BitVec.extractLsb'_and, hv rfl, BitVec.zero_and]
  | _ => exact { i with }

theorem movToDr_keeps (dr : DrNum) (reg : RegNum) : KeepsNext InvStep (execMovToDr dr reg) := by
  have p := plain_invStep
  refine p.specialMove fun s => p.bind p.debugGuard fun _ u => ?_
  refine .ite (fun _ => p.refuse _ u) fun hv => .upd fun i => ⟨rfl, setDr_keeps i dr _ fun hd => ?_⟩
  by_contra hne
  exact hv ⟨hd, hne⟩

/-- The parameters, the flags and CR0 stay. -/
structure SameMode (s t : State) : Prop where
  cfg : t.cfg = s.cfg
  flags : t.flags = s.flags
  cr0 : t.sys.cr0 = s.sys.cr0

theorem closed_sameMode : Closed SameMode where
  refl _ := ⟨rfl, rfl, rfl⟩
  trans _ _ _ h h' := ⟨h'.cfg.trans h.cfg, h'.flags.trans h.flags, h'.cr0.trans h.cr0⟩
  draws _ _ := ⟨rfl, rfl, rfl⟩
  env _ _ := ⟨rfl, rfl, rfl⟩
  store _ _ _ := ⟨rfl, rfl, rfl⟩
  tlb _ _ := ⟨rfl, rfl, rfl⟩
  cr2 _ _ := ⟨rfl, rfl, rfl⟩
  gpr _ _ := ⟨rfl, rfl, rfl⟩

/-- After what leaves the mode alone, a computation keeps the invariant. -/
def KeepsFrom (s : State) (m : M α) : Prop := ∀ u, SameMode s u → KeepsAt InvStep m u

theorem KeepsFrom.bind {s : State} {m : M α} {f : α → M β} (hq : Keeps SameMode m) (hm : Keeps InvStep m)
    (hf : ∀ a, KeepsFrom s (f a)) : KeepsFrom s (m >>= f) := fun u hu =>
  (hm u).bind closed_invStep fun a t ht => hf a t (closed_sameMode.trans _ _ _ hu ((hq u).1 a t ht))

theorem KeepsFrom.pop {s : State} (w : Width) {f : Val w → M β} (hf : ∀ a, KeepsFrom s (f a)) :
    KeepsFrom s (pop w >>= f) := .bind (.pop closed_sameMode w) (.pop closed_invStep w) hf

theorem KeepsFrom.peek {s : State} (w : Width) (k : Nat) {f : Val w → M β} (hf : ∀ a, KeepsFrom s (f a)) :
    KeepsFrom s (peek w k >>= f) := .bind (.peek closed_sameMode w k) (.peek closed_invStep w k) hf

/-- The 32-bit operand size is the 80386's and 80486's (R136). -/
theorem State.has386_of_os {s : State} (h : s.os = .s32) : s.has386 = true := by
  by_contra hn
  have hn : s.has386 = false := by simpa using hn
  simp [State.os, State.defaultSize, hn] at h

/-- What may be set stays so where the mode is the same. -/
theorem Flags.Allowed.of_same {f : Flags} {s u : State} (h : f.Allowed s) (hu : SameMode s u) : f.Allowed u := by
  have h3 : u.has386 = s.has386 := by unfold State.has386; rw [hu.cfg]
  have h4 : u.has486 = s.has486 := by unfold State.has486; rw [hu.cfg]
  exact ⟨by rw [hu.flags, hu.cr0, h3]; exact h.vm, by rw [hu.flags, h3]; exact h.rf, by rw [hu.flags, h4]; exact h.ac⟩

/-- Flags that may be set in `s` and do not set VM may be set wherever the processor is the same. -/
theorem Flags.Allowed.of_cfg {f : Flags} {s u : State} (h : f.Allowed s) (i : s.Inv) (hv : f.vm = false)
    (hc : u.cfg = s.cfg) : f.Allowed u := by
  have h3 : u.has386 = s.has386 := by unfold State.has386; rw [hc]
  have h4 : u.has486 = s.has486 := by unfold State.has486; rw [hc]
  refine ⟨by simp [hv], fun hr => .inr ?_, fun ha => .inr ?_⟩
  · rw [h3]; exact (h.rf hr).elim i.rf_has386 id
  · rw [h4]; exact (h.ac ha).elim i.ac_has486 id

theorem popFlags_allowed (s : State) (v : BitVec 32) (os : Size) : (s.popFlags v os).Allowed s := by
  cases os with
  | s16 => exact ⟨.inl, .inl, .inl⟩
  | s32 =>
    refine ⟨.inl, nofun, fun ha => ?_⟩
    cases h4 : s.has486 with
    | true => exact .inr rfl
    | false => exact .inl (by simpa [State.popFlags, h4, Flags.load16] using ha)

theorem irFlags_allowed (s : State) (v : BitVec 32) : (s.irFlags v s.os).Allowed s := by
  cases hos : s.os with
  | s16 => exact ⟨.inl, .inl, .inl⟩
  | s32 =>
    refine ⟨.inl, fun _ => .inr (State.has386_of_os hos), fun ha => ?_⟩
    cases h4 : s.has486 with
    | true => exact .inr rfl
    | false => exact .inl (by simpa [State.irFlags, h4, Flags.load16] using ha)

theorem irFlags_vm (s : State) (v : BitVec 32) (os : Size) : (s.irFlags v os).vm = s.flags.vm := by cases os <;> rfl

theorem popf_keeps : KeepsNext InvStep execPopf := by
  have p := plain_invStep
  have sens : Keeps SameMode v86Sensitive :=
    .get closed_sameMode fun u => Keeps.ite (.raise closed_sameMode _ _) (.pure closed_sameMode _) u
  intro s t ht
  refine p.completeAt (KeepsFrom.bind sens p.v86Sensitive (fun _ => .pop _ fun v => ?_) s (closed_sameMode.refl s)) ht
  exact fun u hu => .upd fun i => ⟨rfl, i.setFlags ((popFlags_allowed s _ _).of_same hu)⟩

/-- What IRET does after its flags. -/
theorem unblock_jump_keeps (o : BitVec 32) : Keeps InvStep (do unblockNmi; jumpTo o) :=
  plain_invStep.bind (plain_invStep.updCtl _) fun _ => plain_invStep.jumpTo o

theorem iretReal_keeps : Keeps InvStep iretReal := by
  have p := plain_invStep
  refine .get p.closed fun s => ?_
  refine KeepsFrom.pop _ (fun _ => .pop _ fun sel => .pop _ fun fl => ?_) s (closed_sameMode.refl s)
  refine fun u hu => .ite (fun _ => p.raise _ _ u) fun _ => ?_
  have cs : Keeps SameMode (putSeg .cs (s.segs.cs.toReal (itemSel sel))) := .upd fun _ => ⟨rfl, rfl, rfl⟩
  refine KeepsFrom.bind cs (p.putCs _) (fun _ w hw => ?_) u hu
  refine KeepsAt.bind p.closed (.upd fun i => ?_) fun _ x _ => unblock_jump_keeps _ x
  exact ⟨rfl, i.setFlags ((irFlags_allowed s _).of_same hw)⟩

/-- The flags of a return to virtual-8086 mode (R413). -/
theorem v86Flags_allowed {u : State} (f : Flags) (hpe : u.sys.cr0.pe = true) (h3 : u.has386 = true) :
    ({ f with ac := f.ac && u.has486 } : Flags).Allowed u :=
  ⟨fun _ => .inr ⟨hpe, h3⟩, fun _ => .inr h3, fun ha => .inr (Bool.and_eq_true_iff.1 ha).2⟩

theorem iretToV86_keeps {s : State} (o : BitVec 32) (sel : BitVec 16) (f : BitVec 32) (hpe : s.sys.cr0.pe = true)
    (h3 : s.has386 = true) : KeepsAt InvStep (iretToV86 o sel f) s := by
  have p := plain_invStep
  refine KeepsFrom.peek _ _ (fun sp => .peek _ _ fun ss => .peek _ _ fun es => .peek _ _ fun ds => .peek _ _ fun fs =>
    .peek _ _ fun gs u hu => ?_) s (closed_sameMode.refl s)
  refine KeepsAt.bind p.closed (.upd fun i => ⟨rfl, ?_⟩) fun _ x _ => unblock_jump_keeps _ x
  have h3u : u.has386 = true := by unfold State.has386 at h3 ⊢; rw [hu.cfg]; exact h3
  have iu := i.setFlags (v86Flags_allowed (Flags.ofWord f) (hu.cr0 ▸ hpe) h3u)
  refine { iu with dataRights := fun k hk => ?_ }
  have data : arSegment 0x93#8 = true := by decide
  cases k with
  | cs | ss => simp at hk
  | _ => exact data

theorem iretProt_keeps {s : State} (hp : s.protMode = true) : KeepsAt InvStep iretProt s := by
  have p := plain_invStep
  obtain ⟨hpe, hvm⟩ : s.sys.cr0.pe = true ∧ s.flags.vm = false := by simpa [State.protMode] using hp
  refine .of_inv fun i => .get p.closed (.ite (fun _ => p.refuse _ s) fun _ => ?_)
  refine KeepsFrom.peek _ _ (fun o => .peek _ _ fun sel => .peek _ _ fun fl u hu => ?_) s (closed_sameMode.refl s)
  refine .ite (fun hc => ?_) fun _ => ?_
  · have h3 : u.has386 = true := by
      have := State.has386_of_os hc.1
      unfold State.has386 at this ⊢; rw [hu.cfg]; exact this
    exact iretToV86_keeps _ _ _ (hu.cr0 ▸ hpe) h3
  · refine .of_inv fun iu => (p.returnProt _ _ _ _ _ u).bind p.closed fun _ w hw => ?_
    have hc : w.cfg = s.cfg := (((p.returnProt _ _ _ _ _ u).1 _ w hw iu).1).trans hu.cfg
    refine KeepsAt.bind p.closed (.upd fun iw => ⟨rfl, iw.setFlags ?_⟩) fun _ x _ => p.updCtl _ x
    exact (irFlags_allowed s _).of_cfg i ((irFlags_vm _ _ _).trans hvm) hc

theorem iret_keeps : KeepsNext InvStep execIret := by
  have p := plain_invStep
  refine p.finish fun _ => .get p.closed fun s => .ite iretProt_keeps fun _ => ?_
  exact .ite (fun _ => p.raise _ _ s) fun _ => iretReal_keeps s

theorem exec_invStep (i : Instr) : KeepsNext InvStep (exec i) := by
  have p := plain_invStep
  by_cases hi : systemInstr i = false
  · exact exec_keeps p i hi
  unfold exec
  cases i with
  | clts => exact p.complete fun _ => p.bind p.privileged fun _ => .upd fun _ i => ⟨rfl, { i with }⟩
  | popf => exact popf_keeps
  | iret => exact iret_keeps
  | lmsw rm =>
    refine p.complete fun _ => p.bind p.privileged fun _ => p.bind (.readRM p.closed _ _) fun v => .upd fun s i => ?_
    exact ⟨s.setCr0_cfg _, i.setCr0 (by simp +contextual [i.paging]) i.caches (by simp +contextual [i.virtual])⟩
  | lgdt | lidt =>
    exact p.complete fun _ => p.bind p.privileged fun _ => p.bind (p.readTable _) fun _ =>
      .upd fun _ i => ⟨rfl, { i with }⟩
  | lldt rm =>
    refine p.complete fun _ => p.bind p.protectedOnly fun _ => p.bind p.privileged fun _ => ?_
    refine p.bind (.readRM p.closed _ _) fun sel => .ite (.upd fun _ i => ⟨rfl, { i with }⟩) ?_
    exact p.bind (p.globalDesc _) fun d => .ite (p.raise _ _) (.ite (p.raise _ _) (.upd fun _ i => ⟨rfl, { i with }⟩))
  | ltr rm =>
    refine p.complete fun _ => p.bind p.protectedOnly fun _ => p.bind p.privileged fun _ => ?_
    refine p.bind (.readRM p.closed _ _) fun sel => .ite (p.raise _ _) (p.bind (p.globalDesc _) fun d => ?_)
    refine .ite (p.raise _ _) (.ite (p.raise _ _) (p.bind (.sysWrite p.closed _ _) fun _ => ?_))
    exact .upd fun _ i => ⟨rfl, { i with }⟩
  | movToCr cr reg => exact movToCr_keeps cr reg
  | movToDr dr reg => exact movToDr_keeps dr reg
  | movToTr tr reg =>
    refine p.specialMove fun _ => .upd fun _ i => ⟨rfl, ?_⟩
    cases tr <;> exact { i with }
  | _ => exact absurd rfl hi

theorem singleStep_invStep (s : State) : InvStep s s.singleStep := by
  intro i
  unfold State.singleStep
  split
  · refine ⟨rfl, { i with dr6 := ?_ }⟩
    show (s.sys.dr6 ||| place 32 true 14) &&& ~~~dr6Defined = 0#32
    rw [BitVec.and_comm, BitVec.and_or_distrib_left, BitVec.and_comm, i.dr6]
    decide
  · exact ⟨rfl, i⟩

/-- Settles O57: the invariant is a relation every part of the machine keeps, but for the single-step trap and the
system instructions, which are checked one by one. -/
theorem stepKeepsInv : Obligations.StepKeepsInv := fun s t i ht =>
  (plain_invStep.step singleStep_invStep exec_invStep s t ht i).2

end Sys2Proof.Machine
end

section
/-! The state after reset (R50, R51, R661). -/

namespace Sys2Proof.Machine

/-- Settles O58: reset sets every field the invariant speaks of, whatever the processor; of CR0 it sets CD and NW
together, and no other bit the invariant restricts. -/
theorem resetHasInv : Obligations.ResetHasInv := fun c legal =>
  { memory := rfl
    inRange := nofun
    pair := legal
    paging := nofun
    caches := id
    virtual := nofun
    flags286 := fun _ => ⟨rfl, rfl⟩
    flags386 := fun _ => rfl
    dr6 := BitVec.zero_and
    dr7 := BitVec.zero_and
    unarmed := rfl
    dataRights := by
      intro k hk
      simp only [List.mem_cons, List.not_mem_nil, or_false] at hk
      have data : arSegment SegReg.resetData.access = true := by decide
      obtain rfl | rfl | rfl | rfl := hk <;> exact data }

/-- Settles O59: each register of the state after reset is evaluated. -/
theorem resetValues : Obligations.ResetValues := by
  unfold Obligations.ResetValues
  decide

end Sys2Proof.Machine
end

section
/-! The decoder reads from the front: what it answers to some bytes, other than that it needs more, stands whatever
bytes follow them (R130, R131). -/

namespace Sys2Proof

variable {α β : Type}

/-- A parser's answer to some bytes, unless it asks for more, is its answer to every list they begin. -/
structure Parse.Stable (p : Parse α) : Prop where
  ok : ∀ (bs more : List Byte) (a : α) (rest : List Byte), p bs = .ok a rest → p (bs ++ more) = .ok a (rest ++ more)
  error : ∀ (bs more : List Byte) (e : DecErr) (rest : List Byte), p bs = .error e rest → e ≠ .more →
    ∃ left, p (bs ++ more) = .error e left

namespace Parse.Stable

/-! The ways of building a parser. -/

theorem pure (a : α) : Stable (pure a : Parse α) where
  ok bs more b rest h := by cases h; rfl
  error bs more e rest h := by cases h

theorem throw (e : DecErr) : Stable (throw e : Parse α) where
  ok bs more b rest h := by cases h
  error bs more e' rest h _ := by cases h; exact ⟨_, rfl⟩

theorem bind {p : Parse α} {f : α → Parse β} (hp : Stable p) (hf : ∀ a, Stable (f a)) : Stable (p >>= f) where
  ok bs more b rest h := by
    change EStateM.bind p f bs = _ at h
    change EStateM.bind p f (bs ++ more) = _
    unfold EStateM.bind at h ⊢
    cases hm : p bs with
    | ok a mid => rw [hm] at h; rw [hp.ok bs more a mid hm]; exact (hf a).ok mid more b rest h
    | error e left => rw [hm] at h; cases h
  error bs more e rest h he := by
    change EStateM.bind p f bs = _ at h
    change ∃ left, EStateM.bind p f (bs ++ more) = _
    unfold EStateM.bind at h ⊢
    cases hm : p bs with
    | ok a mid => rw [hm] at h; rw [hp.ok bs more a mid hm]; exact (hf a).error mid more e rest h he
    | error e' left =>
      rw [hm] at h; cases h
      obtain ⟨left, hl⟩ := hp.error bs more _ _ hm he
      exact ⟨left, by rw [hl]⟩

theorem map {p : Parse α} (f : α → β) (hp : Stable p) : Stable (f <$> p) := hp.bind fun a => .pure (f a)

theorem ite {c : Prop} [Decidable c] {p q : Parse α} (hp : Stable p) (hq : Stable q) :
    Stable (if c then p else q) := by split <;> assumption

theorem nextByte : Stable nextByte where
  ok bs more a rest h := by
    cases bs with
    | nil => cases h
    | cons b bs => cases h; rfl
  error bs more e rest h he := by
    cases bs with
    | nil => cases h; exact absurd rfl he
    | cons b bs => cases h

/-- REP and REPNE look at the byte behind them and at nothing further (R133). -/
theorem parseRep (z : Bool) : Stable (parseRep z) where
  ok bs more a rest h := by
    cases bs with
    | nil => cases h
    | cons b bs =>
      simp only [Sys2Proof.parseRep, List.cons_append] at h ⊢
      split at h <;> cases h <;> rfl
  error bs more e rest h he := by
    cases bs with
    | nil => cases h; exact absurd rfl he
    | cons b bs =>
      simp only [Sys2Proof.parseRep] at h
      split at h <;> cases h

/-! Operands (R140 to R158). -/

theorem nextWord : Stable nextWord := nextByte.bind fun _ => nextByte.bind fun _ => .pure _

theorem nextDword : Stable nextDword := nextWord.bind fun _ => nextWord.bind fun _ => .pure _

theorem parseImm (os : Size) (w : Bool) : Stable (parseImm os w) := by
  cases w with
  | false => cases os <;> exact .map _ nextByte
  | true =>
    cases os with
    | s16 => exact .map _ nextWord
    | s32 => exact .map _ nextDword

theorem parseOff (sz : Size) : Stable (parseOff sz) := by
  cases sz with
  | s16 => exact .map _ nextWord
  | s32 => exact .map _ nextDword

theorem parseDisp16 (md : BitVec 2) : Stable (parseDisp16 md) :=
  .ite (.pure _) (.ite (.map _ nextByte) (.map _ nextWord))

theorem parseDisp32 (md : BitVec 2) : Stable (parseDisp32 md) :=
  .ite (.pure _) (.ite (.map _ nextByte) (.map _ nextDword))

theorem parseSib (md : BitVec 2) : Stable (parseSib md) :=
  nextByte.bind fun _ => .ite (.map _ nextDword) (.map _ (.parseDisp32 md))

theorem parseMem (adr : Size) (md : BitVec 2) (rm : BitVec 3) : Stable (parseMem adr md rm) := by
  cases adr with
  | s16 => exact .ite (.map _ nextWord) (.map _ (.parseDisp16 md))
  | s32 => exact .ite (.parseSib md) (.ite (.map _ nextDword) (.map _ (.parseDisp32 md)))

theorem parseModRM (c : Ctx) : Stable (parseModRM c) :=
  nextByte.bind fun _ => .ite (.pure _) ((parseMem _ _ _).bind fun _ => .pure _)

theorem regRM (c : Ctx) (f : RegNum → RM → Instr) : Stable (regRM c f) := (parseModRM c).bind fun _ => .pure _

theorem needMem (rm : RM) (f : MemOp → Instr) : Stable (needMem rm f) := by
  cases rm with
  | reg r => exact .throw _
  | mem m => exact .pure _

theorem regMem (c : Ctx) (f : RegNum → MemOp → Instr) : Stable (regMem c f) :=
  (parseModRM c).bind fun ⟨mid, rm⟩ => needMem rm (f mid)

theorem since386 {c : Ctx} {p : Parse Instr} (hp : Stable p) : Stable (since386 c p) := .ite hp (.throw _)

theorem since486 {c : Ctx} {p : Parse Instr} (hp : Stable p) : Stable (since486 c p) := .ite hp (.throw _)

theorem parseString (c : Ctx) (b : Byte) : Stable (parseString c b) := by
  unfold Sys2Proof.parseString
  split
  · exact .pure _
  · exact .throw _

theorem parseSreg3 (c : Ctx) (mid : BitVec 3) : Stable (parseSreg3 c mid) := by
  unfold Sys2Proof.parseSreg3
  split
  case h_7 => exact .throw _
  all_goals exact .pure _

/-! The one-byte opcodes (R160, R162, R163). -/

theorem parseAlu (c : Ctx) (b : Byte) (rr : Bool → Bool → RegNum → RM → Instr) (ai : Bool → Imm → Instr) :
    Stable (parseAlu c b rr ai) := .ite (.map _ (parseImm _ _)) (regRM _ _)

theorem parse0to3 (c : Ctx) (b : Byte) {two : Parse Instr} (h : Stable two) : Stable (parse0to3 c b two) := by
  unfold Sys2Proof.parse0to3
  split
  case h_4 => exact h
  case h_17 | h_18 | h_19 | h_20 | h_21 | h_22 | h_23 | h_24 => exact parseAlu _ _ _ _
  all_goals exact .pure _

theorem parse6 (c : Ctx) (b : Byte) : Stable (parse6 c b) := by
  unfold Sys2Proof.parse6
  split
  case h_1 | h_2 => exact .pure _
  case h_3 => exact regMem _ _
  case h_4 => exact regRM _ _
  case h_5 | h_6 | h_7 | h_8 => exact since386 (.pure _)
  case h_9 | h_11 => exact .map _ (parseImm _ _)
  case h_10 | h_12 => exact (parseModRM c).bind fun _ => .map _ (parseImm _ _)
  case h_13 => exact parseString c b

theorem parse7 (b : Byte) : Stable (parse7 b) := nextByte.bind fun _ => .pure _

theorem parseImmGroup (c : Ctx) (b : Byte) : Stable (parseImmGroup c b) := by
  refine (parseModRM c).bind fun ⟨mid, rm⟩ => (parseImm _ _).bind fun imm => ?_
  split
  case h_2 | h_5 | h_7 => exact .ite (.pure _) (.throw _)
  all_goals exact .pure _

theorem parse8 (c : Ctx) (b : Byte) : Stable (parse8 c b) := by
  unfold Sys2Proof.parse8
  dsimp only
  split
  case h_1 | h_2 | h_3 | h_4 => exact parseImmGroup c b
  case h_13 => exact (parseModRM c).bind fun ⟨_, _⟩ => (parseSreg3 c _).bind fun _ => .pure _
  case h_14 => exact regMem _ _
  case h_15 => exact (parseModRM c).bind fun ⟨_, _⟩ => (parseSreg3 c _).bind fun _ => .ite (.throw _) (.pure _)
  case h_16 => exact (parseModRM c).bind fun ⟨_, _⟩ => .ite (.pure _) (.throw _)
  all_goals exact regRM _ _

theorem parse9 (c : Ctx) (b : Byte) : Stable (parse9 c b) := by
  unfold Sys2Proof.parse9
  split
  case h_4 => exact (parseOff _).bind fun _ => nextWord.bind fun _ => .pure _
  all_goals exact .pure _

theorem parseA (c : Ctx) (b : Byte) : Stable (parseA c b) := by
  unfold Sys2Proof.parseA
  dsimp only
  split
  case h_1 | h_2 | h_3 | h_4 => exact .map _ (parseOff _)
  case h_5 | h_6 => exact .map _ (parseImm _ _)
  case h_7 => exact parseString c b

theorem parseShift (c : Ctx) (w : Bool) {count : Parse Count} (h : Stable count) : Stable (parseShift c w count) := by
  refine (parseModRM c).bind fun ⟨mid, rm⟩ => h.bind fun k => ?_
  split
  case h_7 => exact .throw _
  all_goals exact .pure _

theorem parseC (c : Ctx) (b : Byte) : Stable (parseC c b) := by
  unfold Sys2Proof.parseC
  dsimp only
  split
  case h_1 | h_2 => exact parseShift c _ (.map _ nextByte)
  case h_3 | h_11 => exact .map _ nextWord
  case h_5 | h_6 => exact regMem _ _
  case h_7 | h_8 => exact (parseModRM c).bind fun ⟨_, _⟩ => .ite (.map _ (parseImm _ _)) (.throw _)
  case h_9 => exact nextWord.bind fun _ => nextByte.bind fun _ => .pure _
  case h_14 => exact .map _ nextByte
  all_goals exact .pure _

theorem parseEsc (c : Ctx) (b : Byte) : Stable (parseEsc c b) := by
  refine (parseModRM c).bind fun ⟨mid, rm⟩ => ?_
  cases rm <;> exact .pure _

theorem parseD (c : Ctx) (b : Byte) : Stable (parseD c b) := by
  unfold Sys2Proof.parseD
  dsimp only
  split
  case h_5 | h_6 => exact nextByte.bind fun _ => .ite (.pure _) (.throw _)
  case h_7 => exact .throw _
  case h_8 => exact .pure _
  case h_9 => exact parseEsc c b
  all_goals exact parseShift c _ (.pure _)

theorem parseE (c : Ctx) (b : Byte) : Stable (parseE c b) := by
  unfold Sys2Proof.parseE
  dsimp only
  split
  case h_9 | h_10 => exact .map _ (parseImm _ _)
  case h_11 => exact (parseOff _).bind fun _ => nextWord.bind fun _ => .pure _
  case h_13 | h_14 | h_15 | h_16 => exact .pure _
  all_goals exact .map _ nextByte

theorem parseF6 (c : Ctx) (w : Bool) : Stable (parseF6 c w) := by
  refine (parseModRM c).bind fun ⟨mid, rm⟩ => ?_
  dsimp only
  split
  case h_1 => exact .map _ (parseImm _ _)
  case h_2 => exact .throw _
  all_goals exact .pure _

theorem parseFE (c : Ctx) (w : Bool) : Stable (parseFE c w) := by
  refine (parseModRM c).bind fun ⟨mid, rm⟩ => ?_
  dsimp only
  split
  case h_4 | h_6 => exact needMem rm _
  case h_8 => exact .throw _
  all_goals exact .pure _

theorem parseF (c : Ctx) (b : Byte) : Stable (parseF c b) := by
  unfold Sys2Proof.parseF
  split
  case h_2 => exact .throw _
  case h_3 | h_4 => exact parseRep _
  case h_7 | h_8 => exact parseF6 c _
  case h_15 | h_16 => exact parseFE c _
  all_goals exact .pure _

/-! The two-byte opcodes (R161). -/

theorem parse0F00 (c : Ctx) : Stable (parse0F00 c) := by
  refine (parseModRM c).bind fun ⟨mid, rm⟩ => ?_
  dsimp only
  split
  case h_7 => exact .throw _
  all_goals exact .pure _

theorem parse0F01 (c : Ctx) : Stable (parse0F01 c) := by
  refine (parseModRM c).bind fun ⟨mid, rm⟩ => ?_
  dsimp only
  split
  case h_5 | h_6 => exact .pure _
  case h_7 => exact since486 (needMem rm _)
  case h_8 => exact .throw _
  all_goals exact needMem rm _

theorem parse0F0 (c : Ctx) (lo : Nat) : Stable (parse0F0 c lo) := by
  unfold Sys2Proof.parse0F0
  split
  case h_1 => exact parse0F00 c
  case h_2 => exact parse0F01 c
  case h_3 | h_4 => exact regRM _ _
  case h_5 | h_6 | h_8 => exact .ite (.throw _) (.throw _)
  case h_7 => exact .pure _
  case h_9 | h_10 => exact since486 (.pure _)
  case h_11 => exact .throw _

theorem parseCr (eee : BitVec 3) : Stable (parseCr eee) := by
  unfold Sys2Proof.parseCr
  split
  case h_4 => exact .throw _
  all_goals exact .pure _

theorem parseDr (eee : BitVec 3) : Stable (parseDr eee) := by
  unfold Sys2Proof.parseDr
  split
  case h_7 => exact .throw _
  all_goals exact .pure _

theorem parseTr (eee : BitVec 3) : Stable (parseTr eee) := by
  unfold Sys2Proof.parseTr
  split
  case h_3 => exact .throw _
  all_goals exact .pure _

theorem parseSpecial {num : BitVec 3 → Parse α} (hn : ∀ e, Stable (num e)) (f : α → RegNum → Instr) :
    Stable (parseSpecial num f) := nextByte.bind fun _ => (hn _).bind fun _ => .pure _

theorem parse0F2 (c : Ctx) (lo : Nat) : Stable (parse0F2 c lo) := by
  unfold Sys2Proof.parse0F2
  split
  case h_1 | h_3 => exact since386 (parseSpecial parseCr _)
  case h_2 | h_4 => exact since386 (parseSpecial parseDr _)
  case h_5 | h_6 => exact since386 (parseSpecial parseTr _)
  case h_7 => exact .throw _

theorem parse0F8 (c : Ctx) (lo : Nat) : Stable (parse0F8 c lo) := (parseImm _ _).bind fun _ => .pure _

theorem parse0F9 (c : Ctx) (lo : Nat) : Stable (parse0F9 c lo) := (parseModRM c).bind fun ⟨_, _⟩ => .pure _

theorem parse0FA (c : Ctx) (lo : Nat) : Stable (parse0FA c lo) := by
  unfold Sys2Proof.parse0FA
  split
  case h_3 => exact .ite (.throw _) (.throw _)
  case h_5 | h_12 => exact (parseModRM c).bind fun ⟨_, _⟩ => .map _ nextByte
  case h_7 | h_8 | h_15 => exact .throw _
  case h_4 | h_6 | h_11 | h_13 | h_14 => exact regRM _ _
  all_goals exact .pure _

theorem parse0FBA (c : Ctx) : Stable (parse0FBA c) := by
  refine (parseModRM c).bind fun ⟨mid, rm⟩ => ?_
  dsimp only
  split
  case h_5 => exact .throw _
  all_goals exact .map _ nextByte

theorem parse0FB (c : Ctx) (lo : Nat) : Stable (parse0FB c lo) := by
  unfold Sys2Proof.parse0FB
  split
  case h_1 | h_2 => exact since486 (regRM _ _)
  case h_3 | h_5 | h_6 => exact regMem _ _
  case h_9 => exact parse0FBA c
  case h_15 => exact .throw _
  all_goals exact regRM _ _

theorem parse0FC (c : Ctx) (b : Byte) : Stable (parse0FC c b) := by
  unfold Sys2Proof.parse0FC
  split
  case h_1 | h_2 => exact regRM _ _
  case h_9 => exact .pure _
  all_goals exact .throw _

theorem parseTwo (c : Ctx) : Stable (parseTwo c) := by
  refine nextByte.bind fun b => ?_
  dsimp only
  split
  case h_1 => exact parse0F0 _ _
  case h_2 => exact .ite (.throw _) (.throw _)
  case h_3 => exact parse0F2 _ _
  case h_4 => exact since386 (parse0F8 _ _)
  case h_5 => exact since386 (parse0F9 _ _)
  case h_6 => exact since386 (parse0FA _ _)
  case h_7 => exact since386 (parse0FB _ _)
  case h_8 => exact since486 (parse0FC _ _)
  case h_9 => exact .throw _

theorem parseInstr (c : Ctx) : Stable (parseInstr c) := by
  refine nextByte.bind fun b => ?_
  split
  case h_5 | h_6 => exact .pure _
  case h_12 => exact .map _ (parseImm _ _)
  case h_7 => exact parse6 c b
  case h_8 => exact parse7 b
  case h_9 => exact parse8 c b
  case h_10 => exact parse9 c b
  case h_11 => exact parseA c b
  case h_13 => exact parseC c b
  case h_14 => exact parseD c b
  case h_15 => exact parseE c b
  case h_16 => exact parseF c b
  all_goals exact parse0to3 c b (parseTwo c)

end Parse.Stable

end Sys2Proof
end

section
/-! Fetching (R131): the bytes at the program counter that can be fetched are what the decoder is given, one more each
time it asks. -/

namespace Sys2Proof

/-- What the decoder answers to some bytes, unless it asks for more, it answers to every list they begin. -/
theorem decode_append (c : Ctx) (bs more : List Byte) (h : decode c bs ≠ .stop .more) :
    decode c (bs ++ more) = decode c bs := by
  unfold decode at h ⊢
  cases hp : parseInstr c bs with
  | ok i rest =>
    rw [(Parse.Stable.parseInstr c).ok bs more i rest hp]
    simp only [List.length_append, Nat.add_sub_add_right]
  | error e rest =>
    have he : e ≠ .more := by rintro rfl; exact h (by rw [hp])
    obtain ⟨left, hl⟩ := (Parse.Stable.parseInstr c).error bs more e rest hp he
    rw [hl]

namespace Machine

/-- What a fetch makes of the decoder's answer. -/
def Decoded.fetch : Decoded → M (Instr × Nat)
  | .instr i n => pure (i, n)
  | .stop e => decodeStop e

/-! The bytes at the program counter. -/

theorem State.codeAt_length (s : State) (n : Nat) : (s.codeAt n).length = n := by simp [State.codeAt]

theorem State.codeAt_succ (s : State) (n : Nat) :
    s.codeAt (n + 1) =
      s.codeAt n ++ [memGet s.mem (s.flat (s.linear s.segs.cs (BitVec.ofNat 32 (s.fetchOffset + n))))] := by
  simp [State.codeAt, List.range_succ]

/-- Fewer bytes at the program counter begin more of them. -/
theorem State.codeAt_prefix (s : State) {k m : Nat} (h : k ≤ m) : s.codeAt k <+: s.codeAt m := by
  induction h with
  | refl => exact List.prefix_rfl
  | step _ ih => exact ih.trans (s.codeAt_succ _ ▸ List.prefix_append _ _)

theorem State.fetches_paging {s : State} {m : Nat} (h : s.fetches m = true) : s.paging = false := by
  induction m with
  | zero => simpa [State.fetches] using h
  | succ m ih => exact ih (by simp only [State.fetches, Bool.and_eq_true] at h; exact h.2)

/-- Bytes that can be fetched can be fetched one by one. -/
theorem fetchByte_of_fetches {s : State} {k m : Nat} (h : s.fetches m = true) (hk : k < m) :
    fetchByte (s.fetchOffset + k) s =
      .ok (memGet s.mem (s.flat (s.linear s.segs.cs (BitVec.ofNat 32 (s.fetchOffset + k))))) s := by
  induction hk with
  | refl =>
    have paging := State.fetches_paging h
    simp only [State.fetches, Bool.and_eq_true, decide_eq_true_eq, beq_iff_eq, Option.isNone_iff_eq_none] at h
    obtain ⟨⟨⟨limit, ram⟩, unstored⟩, -⟩ := h
    unfold State.flat at ram unstored ⊢
    simp [fetchByte, codeByte, physRead, linAddrs_plain _ _ paging, State.flats, Nat.not_lt.mpr limit, ram, unstored]
  | step _ ih => exact ih (by simp only [State.fetches, Bool.and_eq_true] at h; exact h.2)

/-! Fetching an instruction. -/

/-- The fetch ends where the decoder has its answer. -/
theorem fetchFrom_of_decode {c : Ctx} {start more : Nat} {bs : List Byte} (h : decode c bs ≠ .stop .more) :
    fetchFrom c start more bs = Decoded.fetch (decode c bs) := by
  cases more with
  | zero => unfold fetchFrom; cases decode c bs <;> rfl
  | succ more =>
    unfold fetchFrom
    cases hd : decode c bs with
    | instr i n => rfl
    | stop e =>
      cases e with
      | more => exact absurd hd h
      | ud => rfl
      | undocumented => rfl

/-- The fetch goes on where the decoder asks for more. -/
theorem fetchFrom_more {c : Ctx} {start more : Nat} {bs : List Byte} {b : Byte} {s : State}
    (h : decode c bs = .stop .more) (hb : fetchByte (start + bs.length) s = .ok b s) :
    fetchFrom c start (more + 1) bs s = fetchFrom c start more (bs ++ [b]) s := by
  rw [fetchFrom, h]
  simp [hb]

/-- Of bytes that can be fetched and that the decoder knows, any first few fetched lead to its answer. -/
theorem fetchFrom_of_fetches {c : Ctx} {s : State} {k m more : Nat} (h : s.fetches m = true) (hk : k ≤ m)
    (room : m - k ≤ more) (hd : decode c (s.codeAt m) ≠ .stop .more) :
    fetchFrom c s.fetchOffset more (s.codeAt k) s = Decoded.fetch (decode c (s.codeAt m)) s := by
  induction more generalizing k with
  | zero =>
    obtain rfl : k = m := by omega
    rw [fetchFrom_of_decode hd]
  | succ more ih =>
    by_cases hm : decode c (s.codeAt k) = .stop .more
    · have lt : k < m := lt_of_le_of_ne hk (by rintro rfl; exact hd hm)
      have hb := fetchByte_of_fetches h lt
      rw [fetchFrom_more hm (by rw [s.codeAt_length]; exact hb), ← s.codeAt_succ]
      exact ih lt (by omega)
    · obtain ⟨tail, ht⟩ := s.codeAt_prefix hk
      rw [fetchFrom_of_decode hm, ← ht, decode_append c _ tail hm]

/-- A fetch of known bytes gives what the decoder answers to them. -/
theorem fetchInstr_of_fetches {s : State} {m : Nat} (h : s.fetches m = true) (room : m ≤ s.cfg.maxInsnLen - s.cur.len)
    (hd : decode s.ctx (s.codeAt m) ≠ .stop .more) :
    fetchInstr s = Decoded.fetch (decode s.ctx (s.codeAt m)) s :=
  fetchFrom_of_fetches (k := 0) h (Nat.zero_le m) room hd

theorem checkPrefixes_of_fit {s : State} {i : Instr} (h : s.prefixesFit i = true) : checkPrefixes i s = .ok () s := by
  simp only [State.prefixesFit, Bool.or_eq_true, Bool.not_eq_true'] at h
  obtain (hp | hl) | hf := h
  · simp [checkPrefixes, hp]
  · simp [checkPrefixes, hl]
  · have lock : checkLock i s = .ok () s := by
      cases h386 : s.has386 with
      | false =>
        simp only [h386, Bool.false_eq_true, if_false, Bool.not_eq_true'] at hf
        simp only [checkLock, M.bind_run, getS_run, h386, hf, Bool.false_eq_true, if_false, M.pure_run]
      | true =>
        simp only [h386, if_true] at hf
        simp only [checkLock, M.bind_run, getS_run, h386, hf, if_true, M.pure_run]
    simp only [checkPrefixes, M.bind_run, getS_run]
    split
    · exact lock
    · rfl

/-- An instruction that can be fetched and that its prefixes fit is executed. -/
theorem runFetched_instr {s : State} {i : Instr} {n m : Nat} (h : s.fetches m = true)
    (room : m ≤ s.cfg.maxInsnLen - s.cur.len) (hd : decode s.ctx (s.codeAt m) = .instr i n)
    (fit : s.prefixesFit i = true) : runFetched s = exec i (s.fetched n) := by
  have hf : fetchInstr s = .ok (i, n) s := by
    rw [fetchInstr_of_fetches h room (by simp [hd]), hd]; rfl
  have hc : fetchChecked s = .ok i (s.fetched n) := by
    simp [fetchChecked, hf, checkPrefixes_of_fit fit, State.fetched]
  unfold runFetched
  rw [hc]

/-- Bytes that stand for no instruction take interrupt 6 (R131, R606). -/
theorem runFetched_undefined {s : State} {m : Nat} (h : s.fetches m = true)
    (room : m ≤ s.cfg.maxInsnLen - s.cur.len) (hd : decode s.ctx (s.codeAt m) = .stop .ud) :
    runFetched s = deliver ⟨6#8, .fault, s.eip, none⟩ s := by
  have hf : fetchInstr s = .error (.exc ⟨6#8, none⟩) s := by
    rw [fetchInstr_of_fetches h room (by simp [hd]), hd]; rfl
  have hc : fetchChecked s = .error (.exc ⟨6#8, none⟩) s := by simp [fetchChecked, hf]
  have event : excEvent ⟨6#8, none⟩ s.eip = ⟨6#8, .fault, s.eip, none⟩ := rfl
  have restored : restore s s = s := rfl
  have taken := finish_exc (m := fun _ => .error (.exc ⟨6#8, none⟩) s) (s := s) (t := s) rfl
  rw [event, restored] at taken
  unfold runFetched
  rw [hc]
  exact taken

/-! The boundary. -/

/-- At a quiet boundary nothing is taken (R605, R620). -/
theorem boundary_quiet {s : State} (h : s.quiet = true) : boundary s = .goOn s := by
  simp only [State.quiet, Bool.and_eq_true, List.isEmpty_iff] at h
  obtain ⟨⟨-, noNmi⟩, h⟩ := h
  have sampled : s.sampleNmi = s := by simp [State.sampleNmi, noNmi]
  unfold boundary
  rw [sampled]
  by_cases hss : s.ctl.shadow = .ss
  · rw [if_pos hss]
  · simp only [hss, beq_iff_eq, Bool.or_eq_true, Bool.and_eq_true, Bool.not_eq_true', bne_iff_ne, ne_eq, false_or,
      List.isEmpty_iff] at h
    obtain ⟨⟨noTrap, noNmi⟩, noIrq⟩ := h
    have nmi : (s.ctl.nmiPending && !s.ctl.nmiBlocked) = false := by
      obtain hp | hb := noNmi
      · rw [hp, Bool.false_and]
      · rw [hb, Bool.not_true, Bool.and_false]
    rw [if_neg hss, noTrap, nmi]
    obtain (off | shadow) | ⟨npx, stream⟩ := noIrq
    · simp [off]
    · simp [shadow]
    · simp [irqBoundary, npx, stream]

theorem State.quiet_running {s : State} (h : s.quiet = true) : s.ctl.activity = .running := by
  simp only [State.quiet, Bool.and_eq_true, beq_iff_eq] at h
  exact h.1.1

theorem State.begin_fetches (s : State) (m : Nat) : s.begin.fetches m = s.fetches m := by
  induction m with
  | zero => rfl
  | succ m ih =>
    simp only [State.fetches, ih]
    rfl

/-- A step fetches and executes: from the state in which an instruction starts, or, with part of it behind, from the
state itself. -/
theorem step_runFetched {s : State} (on : s.ctl.activity ≠ .shutdown) (quiet : s.cur.len = 0 → s.quiet = true) :
    step s = runFetched (if s.cur.len = 0 then s.begin else s) := by
  unfold step
  rw [if_neg on]
  split
  · next h0 => simp [atBoundary, boundary_quiet (quiet h0), State.quiet_running (quiet h0)]
  · rfl

/-- Settles O53: the state in which an instruction starts has the same code, and what is fetched there is what the
decoder says of it. -/
theorem stepRunsDecoded : Obligations.StepRunsDecoded := by
  intro s i n m t on quiet room h
  rw [step_runFetched on quiet]
  by_cases h0 : s.cur.len = 0
  · have starts : t = s.begin := if_pos h0
    rw [if_pos h0, starts]
    rw [← s.begin_fetches m] at h
    exact ⟨runFetched_instr h room, runFetched_undefined h room⟩
  · have starts : t = s := if_neg h0
    rw [if_neg h0, starts]
    exact ⟨runFetched_instr h room, runFetched_undefined h room⟩

end Machine
end Sys2Proof
end

section
/-! Descriptors in plain memory (R87, R90, R91): what reading one gives, what its accessed bit changes, and what loading
a segment register from one does. -/

namespace Sys2Proof.Machine

/-! Stores and the other parts of the state. -/

/-- A change of the state that stores do not see can be made before or after them. -/
theorem State.putBytes_comm (f : State → State) (hf : ∀ s a v, (f s).storeByte a v = f (s.storeByte a v))
    (hc : ∀ s, (f s).cfg = s.cfg) (s : State) (lin : BitVec 32) (bs : List Byte) :
    (f s).putBytes lin bs = f (s.putBytes lin bs) := by
  induction bs generalizing s lin with
  | nil => rfl
  | cons b bs ih =>
    have flat : (f s).flat lin = s.flat lin := by unfold State.flat; rw [hc]
    show ((f s).storeByte ((f s).flat lin) b).putBytes (lin + 1#32) bs = f ((s.storeByte (s.flat lin) b).putBytes _ bs)
    rw [flat, hf, ih]

/-- The accessed bit of a descriptor likewise. -/
theorem State.marked_comm (f : State → State) (hf : ∀ s a v, (f s).storeByte a v = f (s.storeByte a v))
    (hc : ∀ s, (f s).cfg = s.cfg) (s : State) (d : Desc) : (f s).marked d = f (s.marked d) := by
  unfold State.marked
  split
  · rfl
  · exact s.putBytes_comm f hf hc _ _

theorem State.marked_setGpr (s : State) (v : Oct (BitVec 32)) (d : Desc) :
    (s.setGpr v).marked d = (s.marked d).setGpr v := s.marked_comm (·.setGpr v) (fun _ _ _ => rfl) (fun _ => rfl) d
theorem State.marked_setSegs (s : State) (v : SegRegs) (d : Desc) :
    (s.setSegs v).marked d = (s.marked d).setSegs v := s.marked_comm (·.setSegs v) (fun _ _ _ => rfl) (fun _ => rfl) d
theorem State.marked_setSys (s : State) (v : Sys) (d : Desc) :
    (s.setSys v).marked d = (s.marked d).setSys v := s.marked_comm (·.setSys v) (fun _ _ _ => rfl) (fun _ => rfl) d

/-- Setting an accessed bit changes memory and the note of stored bytes only. -/
theorem State.marked_frame (s : State) (d : Desc) :
    s.marked d = (s.setMem (s.marked d).mem).setStored (s.marked d).stored := by
  unfold State.marked
  split
  · rfl
  · exact s.putBytes_frame _ _

@[simp] theorem State.marked_cfg (s : State) (d : Desc) : (s.marked d).cfg = s.cfg := by rw [s.marked_frame]; rfl
@[simp] theorem State.marked_gpr (s : State) (d : Desc) : (s.marked d).gpr = s.gpr := by rw [s.marked_frame]; rfl
@[simp] theorem State.marked_segs (s : State) (d : Desc) : (s.marked d).segs = s.segs := by rw [s.marked_frame]; rfl
@[simp] theorem State.marked_flags (s : State) (d : Desc) : (s.marked d).flags = s.flags := by rw [s.marked_frame]; rfl
@[simp] theorem State.marked_sys (s : State) (d : Desc) : (s.marked d).sys = s.sys := by rw [s.marked_frame]; rfl
@[simp] theorem State.marked_ctl (s : State) (d : Desc) : (s.marked d).ctl = s.ctl := by rw [s.marked_frame]; rfl
@[simp] theorem State.marked_draws (s : State) (d : Desc) : (s.marked d).draws = s.draws := by rw [s.marked_frame]; rfl

/-! Plain memory. -/

/-- Whether memory is plain depends on the parameters and on CR0 alone. -/
theorem State.plain_congr {s t : State} (hc : t.cfg = s.cfg) (h0 : t.sys.cr0 = s.sys.cr0) (lin : BitVec 32) (n : Nat) :
    t.plain lin n = s.plain lin n := by
  induction n generalizing lin with
  | zero => simp only [State.plain, State.paging, State.has386, hc, h0]
  | succ n ih => simp only [State.plain, State.flat, ih, hc]

/-- A system read of plain memory (R90). -/
theorem sysRead_plain {s : State} {lin : BitVec 32} {n : Nat} (h : s.plain lin n = true) :
    sysRead lin n s = .ok (s.bytesAt lin n) s := by
  unfold sysRead linRead
  simp only [M.bind_run, linAddrs_plain _ _ (State.plain_paging h), physReadAll_plain h]

/-- A system write to plain memory (R90). -/
theorem sysWrite_plain {s : State} {lin : BitVec 32} {bs : List Byte} (h : s.plain lin bs.length = true) :
    sysWrite lin bs s = .ok () (s.putBytes lin bs) := by
  unfold sysWrite linWrite
  simp only [M.bind_run, linAddrs_plain _ _ (State.plain_paging h), physWriteAll_plain h]

/-! Descriptors. -/

theorem descAt_plain {s : State} {a : BitVec 32} (lo : s.plain a 4 = true) (hi : s.plain (a + 4#32) 4 = true) :
    descAt a s = .ok (s.descRead a) s := by
  unfold descAt
  simp only [M.bind_run, sysRead_plain lo, sysRead_plain hi, getS_run, M.pure_run]
  rfl

/-- What it says of a selector that it names a descriptor: where that stands in plain memory. -/
theorem State.names_iff {s : State} {sel : BitVec 16} {d : Desc} : s.names sel d = true ↔
    selNull sel = false ∧ ∃ a, s.descAddr sel = some a ∧ s.plain a 4 = true ∧ s.plain (a + 4#32) 4 = true ∧
      s.descRead a = d := by
  unfold State.names State.descPlain State.descOf
  cases selNull sel <;> cases s.descAddr sel <;> simp [and_assoc]

theorem State.not_null_of_names {s : State} {sel : BitVec 16} {d : Desc} (h : s.names sel d = true) :
    selNull sel = false := (State.names_iff.1 h).1

/-- The descriptor a selector names is the one that is read (R87). -/
theorem readDesc_names {s : State} {sel : BitVec 16} {d : Desc} (beyond : M Desc) (h : s.names sel d = true) :
    readDesc sel beyond s = .ok d s := by
  obtain ⟨-, a, ha, lo, hi, rfl⟩ := State.names_iff.1 h
  unfold readDesc
  simp only [M.bind_run, getS_run, ha, descAt_plain lo hi]

/-- A selector beyond its table (R87). -/
theorem readDesc_beyond {s : State} {sel : BitVec 16} (beyond : M Desc) (h : s.descAddr sel = none) :
    readDesc sel beyond s = beyond s := by
  unfold readDesc
  simp only [M.bind_run, getS_run, h]

/-- The access byte of a named descriptor stands in plain memory. -/
theorem State.plain_access {s : State} {sel : BitVec 16} {d : Desc} (h : s.names sel d = true) :
    s.plain (d.addr + 5#32) 1 = true := by
  obtain ⟨-, a, -, -, hi, rfl⟩ := State.names_iff.1 h
  have addr : (s.descRead a).addr = a := by unfold State.descRead Desc.ofWords; split <;> rfl
  have next : a + 4#32 + 1#32 = a + 5#32 := by rw [BitVec.add_assoc]; rfl
  have paging := State.plain_paging hi
  simp only [State.plain, next, Bool.and_eq_true] at hi
  simp only [addr, State.plain, Bool.and_eq_true]
  exact ⟨hi.2.1, by rw [paging]; rfl⟩

/-- The accessed bit is set in memory where it was 0 (R91). -/
theorem setAccessed_plain {s : State} {d : Desc} (h : s.plain (d.addr + 5#32) 1 = true) :
    setAccessed d s = .ok () (s.marked d) := by
  unfold setAccessed State.marked
  split
  · rfl
  · exact sysWrite_plain h

/-- A segment register other than CS is loaded in protected mode (R91): null, unless it is SS. -/
theorem loadSeg_null {s : State} {k : SReg} {sel : BitVec 16} (hp : s.protMode = true) (hn : selNull sel = true)
    (hk : k ≠ .ss) : loadSeg k sel s = .ok () (s.setSegs (s.segs.put k ((s.segs.get k).toNull sel))) := by
  unfold loadSeg
  simp [hp, hn, hk]

/-- The descriptor may be loaded into SS (R91). -/
def Desc.fitsStack (d : Desc) (sel : BitVec 16) (level : BitVec 2) : Prop :=
  selRpl sel = level ∧ arWritable d.access = true ∧ arDpl d.access = level ∧ arPresent d.access = true

theorem checkStackDesc_of_fits {d : Desc} {sel : BitVec 16} {level : BitVec 2} (wrong absent : M Unit)
    (h : d.fitsStack sel level) : checkStackDesc sel d level wrong absent = pure () := by
  obtain ⟨rpl, writable, dpl, present⟩ := h
  simp [checkStackDesc, rpl, writable, dpl, present]

/-- The descriptor may be loaded into DS, ES, FS or GS (R91). -/
def Desc.fitsData (d : Desc) (sel : BitVec 16) (cpl : BitVec 2) : Prop :=
  arReadable d.access = true ∧ arPresent d.access = true ∧ (arConforming d.access = true ∨
    (cpl.toNat ≤ (arDpl d.access).toNat ∧ (selRpl sel).toNat ≤ (arDpl d.access).toNat))

theorem checkDataDesc_of_fits {d : Desc} {sel : BitVec 16} {cpl : BitVec 2} (h : d.fitsData sel cpl) :
    checkDataDesc sel d cpl = pure () := by
  obtain ⟨readable, present, level⟩ := h
  have privilege : ¬ (arConforming d.access = false ∧ (arDpl d.access).toNat < (maxPl cpl (selRpl sel)).toNat) := by
    rintro ⟨conforming, below⟩
    obtain met | ⟨hc, hr⟩ := level
    · rw [met] at conforming; exact absurd conforming (by decide)
    · unfold maxPl at below; split at below <;> omega
  unfold checkDataDesc
  rw [if_neg (by simp [readable]), if_neg privilege, if_neg (by simp [present])]

/-- A segment register other than CS is loaded from a descriptor that fits (R91). -/
theorem loadSeg_named {s : State} {k : SReg} {sel : BitVec 16} {d : Desc} (hp : s.protMode = true)
    (hd : s.names sel d = true) (hss : k = .ss → d.fitsStack sel s.cpl) (hds : k ≠ .ss → d.fitsData sel s.cpl) :
    loadSeg k sel s = .ok () ((s.marked d).setSegs (s.segs.put k (d.asSeg sel))) := by
  have check : (if k = .ss then checkStackDesc sel d s.cpl (raiseGP (selErr sel)) (raiseSS (selErr sel))
      else checkDataDesc sel d s.cpl) = pure () := by
    split
    · next h => exact checkStackDesc_of_fits _ _ (hss h)
    · next h => exact checkDataDesc_of_fits (hds h)
  unfold loadSeg
  simp only [M.bind_run, getS_run, hp, State.not_null_of_names hd, readDesc_names _ hd, check, M.pure_run,
    setAccessed_plain (State.plain_access hd), putSeg_run, State.marked_segs, Bool.not_true, Bool.false_eq_true,
    if_false]
  rfl

end Sys2Proof.Machine
end

section
/-! Loads of a segment register in protected mode by MOV, POP and the pointer loads (R204, R215, R230 to R234): each is
the load itself with what the instruction does around it. -/

namespace Sys2Proof.Machine

/-! The stack pointer. -/

/-- Cutting a stack pointer to its width before an addition changes nothing. -/
theorem spTrunc_add_spTrunc (wide : Bool) (v d : BitVec 32) :
    spTrunc wide (spTrunc wide v + d) = spTrunc wide (v + d) := by
  cases wide with
  | true => rfl
  | false =>
    simp only [spTrunc, Bool.false_eq_true, if_false]
    apply BitVec.eq_of_toNat_eq
    simp [BitVec.toNat_add]

@[simp] theorem spTrunc_spTrunc (wide : Bool) (v : BitVec 32) : spTrunc wide (spTrunc wide v) = spTrunc wide v := by
  simpa using spTrunc_add_spTrunc wide v 0#32

@[simp] theorem State.spAdd_zero (s : State) : s.spAdd 0#32 = s.sp := by
  simp [State.spAdd, State.sp]

/-- The state after a load of a segment register by MOV or POP: that of SS opens the interrupt shadow, which does not
chain (R620). -/
def State.shadowed (s : State) (k : SReg) : State :=
  if k = .ss ∧ s.ctl.prevShadow = .none then s.setCtl { s.ctl with shadow := .ss, dbPending := false } else s

theorem shadowIfSs_run (k : SReg) (s : State) : shadowIfSs k s = .ok () (s.shadowed k) := by
  unfold shadowIfSs shadowSs State.shadowed
  by_cases hk : k = .ss <;> by_cases hs : s.ctl.prevShadow = .none <;> simp [hk, hs, State.setCtl]

/-- The stack pointer moves the same before and after the shadow opens. -/
theorem State.shadowed_popped (s : State) (k : SReg) (w : Width) :
    (s.popped w).shadowed k = (s.shadowed k).popped w := by
  have ctl : (s.popped w).ctl = s.ctl := rfl
  unfold State.shadowed
  rw [ctl]
  split <;> rfl

/-! The instructions, from the load they make. -/

/-- MOV to a segment register (R204). -/
theorem movSregRm_ok {s t : State} {k : SReg} {rm : RM} (read : s.rmReads .w16 rm = true)
    (load : loadSeg k (s.rmVal .w16 rm) s = .ok () t) : exec (.movSregRm k rm) s = .next (t.shadowed k).advance :=
  complete_ok (by simp only [M.bind_run, readRM_ok read, load, shadowIfSs_run])

/-- POP of a segment register (R215): the pointer moves after the load. -/
theorem popSeg_ok {s t : State} {w : Width} {k : SReg} (pops : s.pops w = true)
    (load : loadSeg k ((s.popVal w).setWidth 16) s = .ok () t) : popSeg w k s = .ok () ((t.shadowed k).popped w) := by
  have top : peek w 0 s = .ok (s.popVal w) s := by
    have h := @peek_ok s w 0
    rw [show BitVec.ofNat 32 0 = 0#32 from rfl, State.spAdd_zero] at h
    exact h pops
  unfold popSeg itemSel
  simp only [M.bind_run, top, load, getS_run, setSp, updS_run, shadowIfSs_run]
  exact congrArg _ (t.shadowed_popped k w)

/-- An offset of the operand size keeps its value in 32 bits. -/
theorem setWidth_setWidth_width (os : Size) (v : Val os.width) : (v.setWidth 32).setWidth os.width.bits = v := by
  cases os with
  | s16 => exact (BitVec.setWidth_setWidth_of_le _ (by decide)).trans (BitVec.setWidth_eq v)
  | s32 => simp

/-- A pointer load (R230 to R234): the segment register, then the general one. -/
theorem loadPointer_ok {s t : State} {k : SReg} {reg : RegNum} {m : MemOp}
    (off : s.reaches (s.memSeg m) (s.ea m) s.os.width.bytes false s.os.width.bytes = true)
    (sel : s.reaches (s.memSeg m) (s.ea m + BitVec.ofNat 32 s.os.width.bytes) 2 false 2 = true)
    (load : loadSeg k (s.memVal .w16 (s.memSeg m) (s.ea m + BitVec.ofNat 32 s.os.width.bytes)) s = .ok () t) :
    loadPointer k reg m s = .ok () (t.regPut s.os.width reg (s.memVal s.os.width (s.memSeg m) (s.ea m))) := by
  unfold loadPointer
  simp only [M.bind_run, getS_run, readFarPtr_ok off sel, load, setReg_run, State.regPut, setWidth_setWidth_width]

/-- Settles O4: the load is one of a null selector or of a named descriptor; each instruction makes that load. -/
theorem dataSegmentLoad : Obligations.DataSegmentLoad := by
  intro s k sel d reg rm m w t r loaded shadowed popIns ptrIns prot notCs nullFits fits
  have load : loadSeg k sel s = .ok () loaded := by
    cases hn : selNull sel with
    | true =>
      have h := loadSeg_null prot hn (nullFits hn)
      simpa only [loaded, t, r, hn, if_true, SegReg.toNull] using h
    | false =>
      obtain ⟨named, present, stack, data⟩ := fits hn
      have h := loadSeg_named (k := k) prot named
        (fun hk => by obtain ⟨rpl, writable, dpl⟩ := stack hk; exact ⟨rpl, writable, dpl, present⟩)
        (fun hk => by obtain ⟨readable, level⟩ := data hk; exact ⟨readable, present, level⟩)
      simpa only [loaded, t, r, hn, Bool.false_eq_true, if_false, State.marked_segs] using h
  have shadow : loaded.shadowed k = shadowed := by
    have ctl : loaded.ctl = s.ctl := by
      show t.ctl = s.ctl
      simp only [t]; split <;> simp
    unfold State.shadowed
    rw [ctl]
  refine ⟨fun reads value => ?_, fun pops value => ?_, fun off selReads value => ?_⟩
  · rw [← shadow]
    exact movSregRm_ok reads (by rw [value]; exact load)
  · have done := complete_ok (popSeg_ok pops (by rw [value]; exact load))
    rw [shadow] at done
    cases k with
    | cs => exact absurd rfl notCs
    | es | ss | ds | fs | gs => exact done
  · have done := complete_ok (loadPointer_ok (reg := reg) off selReads (by rw [value]; exact load))
    cases k with
    | cs => exact absurd rfl notCs
    | es | ss | ds | fs | gs => exact done

end Sys2Proof.Machine
end

section
/-! Stored bytes read back (R70, R71, R74), and what an access to memory is turned away for (R90, R110). -/

namespace Sys2Proof.Machine

/-! Addresses on the bus: within 1 MB no two are the same. -/

/-- Neither the width of the bus nor the mask of bit 20 touches the low 20 bits of an address (R71, R83). -/
theorem busAddr_mod (c : Config) (a : Nat) : busAddr c a % 2 ^ 20 = a % 2 ^ 20 := by
  have wide : 2 ^ 20 ∣ 2 ^ c.physBits := Nat.pow_dvd_pow 2 (by unfold Config.physBits; cases c.cpu <;> decide)
  have bus : a % 2 ^ c.physBits % 2 ^ 20 = a % 2 ^ 20 := Nat.mod_mod_of_dvd a wide
  unfold busAddr
  simp only
  split
  · next masked =>
    have high : 2 ^ 20 ≤ a % 2 ^ c.physBits := Nat.ge_two_pow_of_testBit (by simp_all)
    omega
  · exact bus

/-- Two addresses less than 1 MB apart are two places in memory. -/
theorem State.flat_ne (s : State) (lin : BitVec 32) {k : Nat} (pos : 0 < k) (near : k < 2 ^ 20) :
    s.flat (lin + BitVec.ofNat 32 k) ≠ s.flat lin := by
  intro same
  have low := congrArg (· % 2 ^ 20) same
  simp only [State.flat, busAddr_mod, BitVec.toNat_add, BitVec.toNat_ofNat] at low
  omega

theorem add_ofNat_succ (lin : BitVec 32) (k : Nat) :
    lin + BitVec.ofNat 32 (k + 1) = lin + 1#32 + BitVec.ofNat 32 k := by
  rw [BitVec.add_assoc, Nat.add_comm k 1, BitVec.ofNat_add]

theorem State.not_within {s : State} {lin : BitVec 32} {n a : Nat}
    (h : ∀ k < n, s.flat (lin + BitVec.ofNat 32 k) ≠ a) : s.within lin n a = false := by
  induction n generalizing lin with
  | zero => rfl
  | succ n ih =>
    have head : s.flat lin ≠ a := by simpa using h 0 (Nat.succ_pos n)
    have tail : s.within (lin + 1#32) n a = false :=
      ih fun k hk => add_ofNat_succ lin k ▸ h (k + 1) (Nat.succ_lt_succ hk)
    simp only [State.within, tail, Bool.or_false, beq_eq_false_iff_ne]
    exact Ne.symm head

/-! Reading back. -/

theorem State.bytesAt_length (s : State) (lin : BitVec 32) (n : Nat) : (s.bytesAt lin n).length = n := by
  induction n generalizing lin with
  | zero => rfl
  | succ n ih => simp [State.bytesAt, ih]

theorem State.bytesAt_getElem? (s : State) (lin : BitVec 32) {n i : Nat} (h : i < n) :
    (s.bytesAt lin n)[i]? = some (memGet s.mem (s.flat (lin + BitVec.ofNat 32 i))) := by
  induction i generalizing lin n with
  | zero => cases n with
    | zero => omega
    | succ n => simp [State.bytesAt]
  | succ i ih => cases n with
    | zero => omega
    | succ n =>
      rw [State.bytesAt, List.getElem?_cons_succ, ih (lin + 1#32) (by omega), add_ofNat_succ lin i]

/-- Up to 1 MB, what is stored is what is read: each byte is stored at a place of its own. -/
theorem State.bytesAt_putBytes (s : State) (lin : BitVec 32) {bs : List Byte} (wf : Memory.wf s.mem = true)
    (size : bs.length ≤ 2 ^ 20) : (s.putBytes lin bs).bytesAt lin bs.length = bs := by
  induction bs generalizing s lin with
  | nil => rfl
  | cons b bs ih =>
    simp only [List.length_cons] at size
    let t := s.storeByte (s.flat lin) b
    have head : memGet (t.putBytes (lin + 1#32) bs).mem (s.flat lin) = b := by
      have apart : t.within (lin + 1#32) bs.length (s.flat lin) = false :=
        State.not_within fun k hk => add_ofNat_succ lin k ▸ s.flat_ne lin (by omega) (by omega)
      rw [t.putBytes_get_ne _ _ _ apart]
      exact memGet_memSet_self b wf
    have tail : (t.putBytes (lin + 1#32) bs).bytesAt (lin + 1#32) bs.length = bs :=
      ih t (lin + 1#32) (wf_memSet _ _ wf) (by omega)
    have flat : (t.putBytes (lin + 1#32) bs).flat lin = s.flat lin := by unfold State.flat; simp [t]
    show memGet (t.putBytes (lin + 1#32) bs).mem ((t.putBytes (lin + 1#32) bs).flat lin) :: _ = _
    rw [flat, head]
    exact congrArg _ tail

theorem leBytes_getElem? (n v : Nat) {i : Nat} (h : i < n) :
    (leBytes n v)[i]? = some (BitVec.ofNat 8 (v / 256 ^ i)) := by
  induction i generalizing n v with
  | zero => cases n with
    | zero => omega
    | succ n => simp [leBytes]
  | succ i ih => cases n with
    | zero => omega
    | succ n =>
      rw [leBytes, List.getElem?_cons_succ, ih n (v / 256) (by omega), Nat.div_div_eq_div_mul, Nat.pow_succ']

/-- A stored value stands in memory with its least significant byte first (R74). -/
theorem State.byte_of_putBytes (s : State) (lin : BitVec 32) {w : Width} (v : Val w) {i : Nat}
    (wf : Memory.wf s.mem = true) (h : i < w.bytes) :
    memGet (s.putBytes lin (leBytes w.bytes v.toNat)).mem (s.flat (lin + BitVec.ofNat 32 i)) =
      (v >>> (8 * i)).setWidth 8 := by
  have back := s.bytesAt_putBytes lin (bs := leBytes w.bytes v.toNat) wf (by rw [leBytes_length]; cases w <;> decide)
  rw [leBytes_length] at back
  have byte := congrArg (·[i]?) back
  simp only [State.bytesAt_getElem? _ _ h, leBytes_getElem? _ _ h, Option.some.injEq] at byte
  have flat : (s.putBytes lin (leBytes w.bytes v.toNat)).flat = s.flat := by funext; unfold State.flat; simp
  rw [flat] at byte
  rw [byte]
  apply BitVec.eq_of_toNat_eq
  simp [Nat.shiftRight_eq_div_pow, Nat.pow_mul]

theorem State.leVal_putBytes (s : State) (lin : BitVec 32) {w : Width} (v : Val w) (wf : Memory.wf s.mem = true) :
    leVal w.bits ((s.putBytes lin (leBytes w.bytes v.toNat)).bytesAt lin w.bytes) = v := by
  have back := s.bytesAt_putBytes lin (bs := leBytes w.bytes v.toNat) wf (by rw [leBytes_length]; cases w <;> decide)
  rw [leBytes_length] at back
  rw [back, leVal_leBytes]

/-! Accesses that are turned away. -/

/-- The segment lets the access through as far as its rights go (R90). -/
def State.grants (s : State) (k : SReg) (write : Bool) : Prop :=
  s.protMode = false ∨
    ((s.segs.get k).usable = true ∧ (if write then arWritable else arReadable) (s.segs.get k).access = true)

/-- The vector of an access beyond a segment: #SS through SS, else #GP (R90). -/
def faultVector (k : SReg) : BitVec 8 := if k = .ss then 12#8 else 13#8

theorem segFault_run {α : Type} (k : SReg) (s : State) :
    (segFault k : M α) s = .error (.exc ⟨faultVector k, some 0#16⟩) s := by cases k <;> rfl

/-- The access does not lie within the segment: below an expand-down segment's limit or beyond its top, else beyond the
limit (R90). -/
theorem segHolds_false_iff (r : SegReg) (off : BitVec 32) (n : Nat) : segHolds r off n = false ↔
    if arExpandDown r.access then off.toNat ≤ r.limit.toNat ∨ (if r.db then 2 ^ 32 else 2 ^ 16) < off.toNat + n
    else r.limit.toNat + 1 < off.toNat + n := by
  unfold segHolds
  cases arExpandDown r.access with
  | true =>
    simp only [if_true, Bool.and_eq_false_iff, decide_eq_false_iff_not, Nat.not_lt, Nat.not_le]
    rfl
  | false => simp

theorem State.aligned_false_iff (s : State) (lin : BitVec 32) (al : Nat) : s.aligned lin al = false ↔
    s.has486 = true ∧ s.sys.cr0.am = true ∧ s.flags.ac = true ∧ s.cpl = 3#2 ∧ lin.toNat % al ≠ 0 := by
  simp [State.aligned, and_assoc]

section
variable {s : State} {k : SReg} {off : BitVec 32} {n al : Nat} {write : Bool}

theorem segAddrs_of_segCheck {x : Stop} (h : segCheck k off n write s = .error x s) :
    segAddrs k off n write al s = .error x s := by
  unfold segAddrs
  simp only [M.bind_run, h]

theorem segAddrs_unusable (prot : s.protMode = true) (h : (s.segs.get k).usable = false) :
    segAddrs k off n write al s = .error (.exc ⟨faultVector k, some 0#16⟩) s :=
  segAddrs_of_segCheck (by simp [segCheck, prot, h, segFault_run])

theorem segAddrs_forbidden (prot : s.protMode = true) (usable : (s.segs.get k).usable = true)
    (h : (if write then arWritable else arReadable) (s.segs.get k).access = false) :
    segAddrs k off n write al s = .error (.exc ⟨13#8, some 0#16⟩) s := by
  apply segAddrs_of_segCheck
  cases write with
  | true => simp only [if_true] at h; simp [segCheck, prot, usable, h, raiseGP]
  | false => simp only [Bool.false_eq_true, if_false] at h; simp [segCheck, prot, usable, h, raiseGP]

theorem segCheck_granted (h : s.grants k write) : segCheck k off n write s =
    if segHolds (s.segs.get k) off n then .ok (s.linOf k off) s
    else .error (.exc ⟨faultVector k, some 0#16⟩) s := by
  obtain real | ⟨usable, right⟩ := h
  · cases hh : segHolds (s.segs.get k) off n <;> simp [segCheck, State.linOf, real, hh, segFault_run]
  · cases write with
    | true =>
      simp only [if_true] at right
      cases hh : segHolds (s.segs.get k) off n <;> simp [segCheck, State.linOf, usable, right, hh, segFault_run]
    | false =>
      simp only [Bool.false_eq_true, if_false] at right
      cases hh : segHolds (s.segs.get k) off n <;> simp [segCheck, State.linOf, usable, right, hh, segFault_run]

theorem segAddrs_outside (h : s.grants k write) (out : segHolds (s.segs.get k) off n = false) :
    segAddrs k off n write al s = .error (.exc ⟨faultVector k, some 0#16⟩) s :=
  segAddrs_of_segCheck (by rw [segCheck_granted h, out]; rfl)

theorem alignCheck_misaligned {lin : BitVec 32} (h : s.aligned lin al = false) :
    alignCheck lin al s = .error (.exc ⟨17#8, some 0#16⟩) s := by
  obtain ⟨i486, am, ac, level, odd⟩ := (s.aligned_false_iff lin al).1 h
  simp [alignCheck, i486, am, ac, level, odd, raiseAC]

theorem segAddrs_misaligned (h : s.grants k write) (inside : segHolds (s.segs.get k) off n = true)
    (paging : s.paging = false) (odd : s.aligned (s.linOf k off) al = false) :
    segAddrs k off n write al s = .error (.exc ⟨17#8, some 0#16⟩) s := by
  unfold segAddrs pageCheck
  simp only [M.bind_run, segCheck_granted h, inside, if_true, getS_run, linAddrs_plain _ _ paging,
    alignCheck_misaligned odd]

end

/-- MOV from memory takes what its access is turned away for (R200, R606). -/
theorem movFromMem_trap {s : State} {wb : Bool} {reg : RegNum} {m : MemOp} {x : BitVec 8}
    (h : segAddrs (s.memSeg m) (s.ea m) (s.opW wb).bytes false (s.opW wb).bytes s =
      .error (.exc ⟨x, some 0#16⟩) s) :
    exec (.movRegRm wb reg (.mem m)) s = deliver (excEvent ⟨x, some 0#16⟩ s.eip) s :=
  complete_exc (t := s) (by
    simp only [moveFromRM, readRM, segReadV, segRead, M.bind_run, getS_run, h])

/-- MOV to memory likewise. -/
theorem movToMem_trap {s : State} {wb : Bool} {reg : RegNum} {m : MemOp} {x : BitVec 8}
    (h : segAddrs (s.memSeg m) (s.ea m) (s.opW wb).bytes true (s.opW wb).bytes s =
      .error (.exc ⟨x, some 0#16⟩) s) :
    exec (.movRmReg wb reg (.mem m)) s = deliver (excEvent ⟨x, some 0#16⟩ s.eip) s :=
  complete_exc (t := s) (by
    simp only [moveToRM, writeRM, segWriteV, segWrite, leBytes_length, M.bind_run, getS_run, getReg_run, h])

/-- Settles O49: bytes stored at places of their own read back; each fault is one of the checks before the access. -/
theorem storesChangeTheirBytes : Obligations.StoresChangeTheirBytes := by
  intro s lin bs w v a i wb reg m t u k off r n outside load store trap segTrap granted misaligned
  have kind : excEvent ⟨faultVector k, some 0#16⟩ s.eip =
      ⟨if k = .ss then 12#8 else 13#8, .fault, s.eip, some 0#16⟩ := by
    unfold faultVector; split <;> rfl
  have out : outside ↔ segHolds r (s.ea m) n = false := (segHolds_false_iff r (s.ea m) n).symm
  have hload {x : BitVec 8} : segAddrs k (s.ea m) n false n s = .error (.exc ⟨x, some 0#16⟩) s →
    load = deliver (excEvent ⟨x, some 0#16⟩ s.eip) s := movFromMem_trap
  have hstore {x : BitVec 8} : segAddrs k (s.ea m) n true n s = .error (.exc ⟨x, some 0#16⟩) s →
    store = deliver (excEvent ⟨x, some 0#16⟩ s.eip) s := movToMem_trap
  refine ⟨fun wf => ⟨s.putBytes_frame lin bs, s.putBytes_get_ne lin bs a, s.bytesAt_putBytes lin wf,
    s.byte_of_putBytes lin v wf, s.leVal_putBytes lin v wf⟩, fun prot unusable => ?_, fun prot usable right => ?_,
    fun prot usable right => ?_, fun ok far => ?_, fun ok far => ?_,
    fun odd paging => ⟨fun ok near => ?_, fun ok near => ?_⟩⟩
  · rw [hload (segAddrs_unusable prot unusable), hstore (segAddrs_unusable prot unusable), kind]
    exact ⟨rfl, rfl⟩
  · exact hload (segAddrs_forbidden prot usable right)
  · exact hstore (segAddrs_forbidden prot usable right)
  · rw [hload (segAddrs_outside ok (out.1 far)), kind]
  · rw [hstore (segAddrs_outside ok (out.1 far)), kind]
  · exact hload (segAddrs_misaligned ok (by simpa using mt out.2 near) paging ((s.aligned_false_iff _ _).2 odd))
  · exact hstore (segAddrs_misaligned ok (by simpa using mt out.2 near) paging ((s.aligned_false_iff _ _).2 odd))

end Sys2Proof.Machine
end

section
/-! The table walk (R101 to R105): the entries it reads and updates are words of memory that overlap wholly or not at
all, since both stand at multiples of 4. -/

namespace Sys2Proof.Machine

/-! Addresses of entries. -/

/-- The number two bit vectors stand for side by side. -/
theorem toNat_append_eq {n m : Nat} (x : BitVec n) (y : BitVec m) : (x ++ y).toNat = x.toNat * 2 ^ m + y.toNat := by
  rw [BitVec.toNat_append, ← Nat.shiftLeft_add_eq_or_of_lt y.isLt, Nat.shiftLeft_eq]

/-- The address of entry `i` of the table whose frame a word holds (R101). -/
def entryAt (base : BitVec 32) (i : BitVec 10) : BitVec 32 := base.extractLsb' 12 20 ++ i ++ 0#2

/-- The upper 20 bits of one word linked with the lower 12 of another. -/
theorem page_or (v u : BitVec 32) :
    (v &&& 0xFFFFF000#32) ||| (u &&& 0xFFF#32) = v.extractLsb' 12 20 ++ u.extractLsb' 0 12 := by
  apply BitVec.eq_of_getLsbD_eq
  intro i hi
  simp only [BitVec.getLsbD_or, BitVec.getLsbD_and, BitVec.getLsbD_append, BitVec.getLsbD_extractLsb']
  interval_cases i <;> simp

theorem page_base (v : BitVec 32) : v &&& 0xFFFFF000#32 = v.extractLsb' 12 20 ++ 0#12 := by
  simpa using page_or v 0#32

theorem entryAt_toNat (base : BitVec 32) (i : BitVec 10) :
    (entryAt base i).toNat = (base &&& 0xFFFFF000#32).toNat + i.toNat * 4 := by
  rw [page_base]
  simp only [entryAt, toNat_append_eq, BitVec.toNat_ofNat]
  omega

theorem entryAt_mod (base : BitVec 32) (i : BitVec 10) : (entryAt base i).toNat % 4 = 0 := by
  simp only [entryAt, toNat_append_eq, BitVec.toNat_ofNat]
  omega

/-- A frame linked with the lower 12 bits of the linear address (R101). -/
theorem frame_linked (pte lin : BitVec 32) : ((pte &&& 0xFFFFF000#32) ||| (lin &&& 0xFFF#32)).toNat =
    (pte.extractLsb' 12 20).toNat * 4096 + (lin.extractLsb' 0 12).toNat := by
  rw [page_or, toNat_append_eq]
  rfl

/-- The bytes of an aligned word stand side by side on the bus (R71). -/
theorem busAddr_add (c : Config) {a i : Nat} (aligned : a % 4 = 0) (h : i < 4) :
    busAddr c (a + i) = busAddr c a + i := by
  have wide : 2 ^ c.physBits = 2 ^ 24 ∨ 2 ^ c.physBits = 2 ^ 32 := by
    unfold Config.physBits; cases c.cpu <;> simp
  have bus : (a + i) % 2 ^ c.physBits = a % 2 ^ c.physBits + i := by obtain e | e := wide <;> rw [e] <;> omega
  have low : a % 2 ^ c.physBits % 4 = 0 := by obtain e | e := wide <;> rw [e] <;> omega
  have bit : (a % 2 ^ c.physBits + i).testBit 20 = (a % 2 ^ c.physBits).testBit 20 := by
    simp only [Nat.testBit_eq_decide_div_mod_eq]
    congr 2
    omega
  unfold busAddr
  simp only [bus, bit]
  split
  · next masked =>
    have high : 2 ^ 20 ≤ a % 2 ^ c.physBits := Nat.ge_two_pow_of_testBit (by simp_all)
    omega
  · rfl

/-! Words of memory. -/

/-- The aligned word at an address (R71). -/
def State.word (s : State) (e : BitVec 32) : BitVec 32 := leVal 32 (s.bytesAt e 4)

/-- RAM answers at the four bytes of a word. -/
def State.ramWord (s : State) (e : BitVec 32) : Prop :=
  ∀ i < 4, kindAt s.cfg.memmap (busAddr s.cfg (e.toNat + i)) = .ram

/-- The state after a word is updated where that changes it. -/
def State.updWord (s : State) (e old new : BitVec 32) : State :=
  if new = old then s else s.putBytes e (leBytes 4 new.toNat)

section
variable {s : State} {e : BitVec 32}

theorem word_addrs (s : State) (aligned : e.toNat % 4 = 0) :
    [e.toNat, e.toNat + 1, e.toNat + 2, e.toNat + 3] = s.flats e 4 := by
  simp [State.flats, BitVec.toNat_add]
  omega

theorem State.bytesAt_word (s : State) (aligned : e.toNat % 4 = 0) (m : List Host.Cell) :
    ([e.toNat, e.toNat + 1, e.toNat + 2, e.toNat + 3].map fun x => memGet m (busAddr s.cfg x)) =
      (s.setMem m).bytesAt e 4 := by
  rw [word_addrs s aligned]
  rfl

theorem State.ramWord.mem (h : s.ramWord e) (aligned : e.toNat % 4 = 0) {a : Nat} (ha : a ∈ s.flats e 4) :
    kindAt s.cfg.memmap (busAddr s.cfg a) = .ram := by
  rw [← word_addrs s aligned] at ha
  simp only [List.mem_cons, List.not_mem_nil, or_false] at ha
  obtain rfl | rfl | rfl | rfl := ha
  · exact h 0 (by decide)
  · exact h 1 (by decide)
  · exact h 2 (by decide)
  · exact h 3 (by decide)

theorem physReadAll_ram {as : List Nat} (h : ∀ a ∈ as, kindAt s.cfg.memmap (busAddr s.cfg a) = .ram) :
    physReadAll as s = .ok (as.map fun a => memGet s.mem (busAddr s.cfg a)) s := by
  induction as with
  | nil => rfl
  | cons a as ih =>
    have first : physRead a s = .ok (memGet s.mem (busAddr s.cfg a)) s := by
      simp only [physRead, h a List.mem_cons_self]
    have rest := ih fun b hb => h b (List.mem_cons_of_mem a hb)
    simp only [physReadAll, M.bind_run, first, rest, M.pure_run, List.map_cons]

theorem physWriteAll_ram {lin : BitVec 32} {bs : List Byte}
    (h : ∀ a ∈ s.flats lin bs.length, kindAt s.cfg.memmap (busAddr s.cfg a) = .ram) :
    physWriteAll (s.flats lin bs.length) bs s = .ok () (s.putBytes lin bs) := by
  induction bs generalizing s lin with
  | nil => rfl
  | cons b bs ih =>
    have flats : ∀ (n : Nat) (l : BitVec 32), s.flats l n = (s.storeByte (s.flat lin) b).flats l n := by
      intro n; induction n with
      | zero => intro l; rfl
      | succ n ihn => intro l; simp only [State.flats, ihn]
    have first : physWrite lin.toNat b s = .ok () (s.storeByte (s.flat lin) b) := by
      simp only [physWrite, h lin.toNat List.mem_cons_self]
      rfl
    simp only [List.length_cons, State.flats, physWriteAll, M.bind_run, first]
    rw [flats]
    exact ih fun a ha => h a (List.mem_cons_of_mem _ (flats .. ▸ ha))

theorem physRead32_ram (h : s.ramWord e) (aligned : e.toNat % 4 = 0) :
    physRead32 e.toNat s = .ok (s.word e) s := by
  unfold physRead32
  rw [word_addrs s aligned]
  simp only [M.bind_run, physReadAll_ram fun a ha => h.mem aligned ha, M.pure_run]
  rfl

theorem physWrite32_ram (h : s.ramWord e) (aligned : e.toNat % 4 = 0) (v : BitVec 32) :
    physWrite32 e.toNat v s = .ok () (s.putBytes e (leBytes 4 v.toNat)) := by
  unfold physWrite32
  rw [word_addrs s aligned]
  exact physWriteAll_ram (bs := leBytes 4 v.toNat) fun a ha => h.mem aligned ha

theorem updWord_run (h : s.ramWord e) (aligned : e.toNat % 4 = 0) (old new : BitVec 32) :
    (if new = old then (pure () : M Unit) else physWrite32 e.toNat new) s = .ok () (s.updWord e old new) := by
  unfold State.updWord
  split
  · rfl
  · exact physWrite32_ram h aligned new

theorem State.updWord_frame (s : State) (e old new : BitVec 32) :
    s.updWord e old new = (s.setMem (s.updWord e old new).mem).setStored (s.updWord e old new).stored := by
  unfold State.updWord
  split
  · rfl
  · exact s.putBytes_frame _ _

@[simp] theorem State.updWord_cfg (s : State) (e old new : BitVec 32) : (s.updWord e old new).cfg = s.cfg := by
  rw [s.updWord_frame]; rfl

theorem State.updWord_wf {old new : BitVec 32} (wf : Memory.wf s.mem = true) :
    Memory.wf (s.updWord e old new).mem = true := by
  unfold State.updWord
  split
  · exact wf
  · exact s.putBytes_wf _ _ wf

/-- The addresses on the bus of the bytes of an aligned word. -/
theorem State.flat_word (s : State) (aligned : e.toNat % 4 = 0) {i : Nat} (h : i < 4) :
    s.flat (e + BitVec.ofNat 32 i) = busAddr s.cfg e.toNat + i := by
  have sum : (e + BitVec.ofNat 32 i).toNat = e.toNat + i := by simp [BitVec.toNat_add]; omega
  rw [State.flat, sum, busAddr_add s.cfg aligned h]

/-- An address is none of the four of a word. -/
theorem State.not_within_word {x : Nat} (aligned : e.toNat % 4 = 0) (h : ∀ i < 4, x ≠ busAddr s.cfg (e.toNat + i)) :
    s.within e 4 x = false :=
  State.not_within fun i hi => by rw [s.flat_word aligned hi, ← busAddr_add s.cfg aligned hi]; exact (h i hi).symm

theorem State.updWord_get {old new : BitVec 32} {x : Nat} (h : s.within e 4 x = false) :
    memGet (s.updWord e old new).mem x = memGet s.mem x := by
  unfold State.updWord
  split
  · rfl
  · exact s.putBytes_get_ne _ _ _ (by rw [leBytes_length]; exact h)

/-- An updated word holds its new value. -/
theorem State.word_updWord {new : BitVec 32} (wf : Memory.wf s.mem = true) :
    (s.updWord e (s.word e) new).word e = new := by
  unfold State.updWord
  split
  · next same => exact same.symm
  · exact s.leVal_putBytes e (w := .w32) new wf

/-- Words whose bytes stand at the same places with the same contents are the same. -/
theorem State.word_congr {t : State} {f : BitVec 32} (h : ∀ i < 4,
    memGet t.mem (t.flat (f + BitVec.ofNat 32 i)) = memGet s.mem (s.flat (e + BitVec.ofNat 32 i))) :
    t.word f = s.word e := by
  unfold State.word
  congr 1
  apply List.ext_getElem?
  intro i
  by_cases hi : i < 4
  · rw [t.bytesAt_getElem? f hi, s.bytesAt_getElem? e hi, h i hi]
  · rw [List.getElem?_eq_none (by rw [State.bytesAt_length]; omega),
      List.getElem?_eq_none (by rw [State.bytesAt_length]; omega)]

/-- Updating one word leaves a word at another place alone. -/
theorem State.word_updWord_ne {f old new : BitVec 32} (he : e.toNat % 4 = 0) (hf : f.toNat % 4 = 0)
    (ne : busAddr s.cfg e.toNat ≠ busAddr s.cfg f.toNat) : (s.updWord e old new).word f = s.word f := by
  apply State.word_congr
  intro i hi
  have flat : (s.updWord e old new).flat = s.flat := by funext; unfold State.flat; simp
  rw [flat]
  apply State.updWord_get
  apply State.not_within
  intro j hj
  rw [s.flat_word he hj, s.flat_word hf hi]
  have le := busAddr_mod s.cfg e.toNat
  have lf := busAddr_mod s.cfg f.toNat
  omega

end

/-! The walk. -/

/-- Where the directory entry of a linear address stands (R101). -/
def State.dirAt (s : State) (lin : BitVec 32) : BitVec 32 := entryAt s.sys.cr3 (lin.extractLsb' 22 10)

/-- The directory entry. -/
def State.pde (s : State) (lin : BitVec 32) : BitVec 32 := s.word (s.dirAt lin)

/-- Where the table entry stands. -/
def State.tabAt (s : State) (lin : BitVec 32) : BitVec 32 := entryAt (s.pde lin) (lin.extractLsb' 12 10)

theorem State.dirAt_toNat (s : State) (lin : BitVec 32) :
    (s.sys.cr3 &&& 0xFFFFF000#32).toNat + (lin.extractLsb' 22 10).toNat * 4 = (s.dirAt lin).toNat :=
  (entryAt_toNat _ _).symm

theorem State.tabAt_toNat (s : State) (lin : BitVec 32) :
    (s.pde lin &&& 0xFFFFF000#32).toNat + (lin.extractLsb' 12 10).toNat * 4 = (s.tabAt lin).toNat :=
  (entryAt_toNat _ _).symm

/-- The table entry. -/
def State.pte (s : State) (lin : BitVec 32) : BitVec 32 := s.word (s.tabAt lin)

theorem State.dirAt_mod (s : State) (lin : BitVec 32) : (s.dirAt lin).toNat % 4 = 0 := entryAt_mod _ _

theorem State.tabAt_mod (s : State) (lin : BitVec 32) : (s.tabAt lin).toNat % 4 = 0 := entryAt_mod _ _

/-- A bit that both entries must have (R103). -/
def State.bothBits (s : State) (lin : BitVec 32) (k : Nat) : Bool := bitOf (s.pde lin) k && bitOf (s.pte lin) k

/-- The entries allow the access (R103). -/
def State.pageGrants (s : State) (lin : BitVec 32) (write user : Bool) : Bool :=
  pageAllows (s.sys.cr0.wp && s.has486) user write (s.bothBits lin 2) (s.bothBits lin 1)

/-- The table entry after the walk: A is set, and D by a write (R105). -/
def State.pteAfter (s : State) (lin : BitVec 32) (write : Bool) : BitVec 32 :=
  s.pte lin ||| (if write then 0x60#32 else 0x20#32)

/-- The state after the entries are updated. -/
def State.walked (s : State) (lin : BitVec 32) (write : Bool) : State :=
  (s.updWord (s.dirAt lin) (s.pde lin) (s.pde lin ||| 0x20#32)).updWord (s.tabAt lin) (s.pte lin) (s.pteAfter lin write)

/-- The state after the walk: the entry is cached in place of what the page had (R106). -/
def State.refilled (s : State) (lin : BitVec 32) (write : Bool) : State :=
  let t := s.walked lin write
  let e : TlbEntry :=
    { page := lin.extractLsb' 12 20, frame := (s.pte lin).extractLsb' 12 20, user := s.bothBits lin 2
      writable := s.bothBits lin 1, dirty := bitOf (s.pteAfter lin write) 6 }
  t.setTlb (e :: tlbDrop t.tlb (lin.extractLsb' 12 20))

/-- A page fault leaves the address in CR2 (R104). -/
def State.pageFaulted (s : State) (lin : BitVec 32) : State := s.setSys { s.sys with cr2 := lin }

theorem or_eq_self_iff_bit5 (v : BitVec 32) : v ||| 0x20#32 = v ↔ bitOf v 5 = true := by
  constructor
  · intro h
    have bit := congrArg (fun x => BitVec.getLsbD x 5) h
    simp only [BitVec.getLsbD_or] at bit
    rw [bitOf, ← bit]
    simp
  · intro h
    ext i hi
    rw [BitVec.getElem_or]
    interval_cases i <;> simp_all [bitOf, ← BitVec.getLsbD_eq_getElem]

section
variable {s : State} {lin : BitVec 32} {write user : Bool}

theorem pageFault_run {α : Type} (p : Bool) :
    (pageFault lin p write user : M α) s =
      .error (.exc ⟨14#8, some (pfCode p write user)⟩) (s.pageFaulted lin) := rfl

section
variable (dirRam : s.ramWord (s.dirAt lin)) (tabRam : bitOf (s.pde lin) 0 = true → s.ramWord (s.tabAt lin))
include dirRam tabRam

/-- The walk of entries that are present and allow the access: the frame, with the entries updated and cached. -/
theorem walk_ok (present : s.bothBits lin 0 = true) (allowed : s.pageGrants lin write user = true) :
    walk lin write user s = .ok ((s.pte lin).extractLsb' 12 20) (s.refilled lin write) := by
  obtain ⟨pdePresent, ptePresent⟩ := Bool.and_eq_true_iff.1 present
  have readDir : physRead32 (s.dirAt lin).toNat s = .ok (s.pde lin) s := physRead32_ram dirRam (s.dirAt_mod lin)
  have readTab : physRead32 (s.tabAt lin).toNat s = .ok (s.pte lin) s :=
    physRead32_ram (tabRam pdePresent) (s.tabAt_mod lin)
  have writeDir := updWord_run dirRam (s.dirAt_mod lin) (s.pde lin) (s.pde lin ||| 0x20#32)
  have writeTab := updWord_run (s := s.updWord (s.dirAt lin) (s.pde lin) (s.pde lin ||| 0x20#32))
    (fun i hi => by simpa using tabRam pdePresent i hi) (s.tabAt_mod lin) (s.pte lin) (s.pteAfter lin write)
  have after : s.pte lin ||| 0x20#32 ||| (if write then 0x40#32 else 0#32) = s.pteAfter lin write := by
    unfold State.pteAfter
    rw [BitVec.or_assoc]
    cases write <;> rfl
  have grants : pageAllows (s.sys.cr0.wp && s.has486) user write (bitOf (s.pde lin) 2 && bitOf (s.pte lin) 2)
      (bitOf (s.pde lin) 1 && bitOf (s.pte lin) 1) = true := allowed
  simp only [or_eq_self_iff_bit5] at writeDir
  unfold walk
  simp only [M.bind_run, getS_run, State.dirAt_toNat, readDir, State.tabAt_toNat, pdePresent, readTab, ptePresent,
    grants, after, writeDir, writeTab, updS_run, M.pure_run, Bool.not_true, Bool.false_eq_true, if_false]
  rfl

/-- The walk of entries that are not both present or do not allow the access (R103, R104). -/
theorem walk_fault (h : s.bothBits lin 0 = false ∨ s.pageGrants lin write user = false) :
    walk lin write user s =
      .error (.exc ⟨14#8, some (pfCode (s.bothBits lin 0) write user)⟩) (s.pageFaulted lin) := by
  have readDir : physRead32 (s.dirAt lin).toNat s = .ok (s.pde lin) s := physRead32_ram dirRam (s.dirAt_mod lin)
  unfold walk
  simp only [M.bind_run, getS_run, State.dirAt_toNat, readDir, State.tabAt_toNat]
  cases pdePresent : bitOf (s.pde lin) 0 with
  | false => simp [State.bothBits, pdePresent, pageFault_run]
  | true =>
    have readTab : physRead32 (s.tabAt lin).toNat s = .ok (s.pte lin) s :=
      physRead32_ram (tabRam pdePresent) (s.tabAt_mod lin)
    cases ptePresent : bitOf (s.pte lin) 0 with
    | false => simp [State.bothBits, pdePresent, ptePresent, readTab, pageFault_run]
    | true =>
      have denied : pageAllows (s.sys.cr0.wp && s.has486) user write (bitOf (s.pde lin) 2 && bitOf (s.pte lin) 2)
          (bitOf (s.pde lin) 1 && bitOf (s.pte lin) 1) = false := by
        obtain absent | denied := h
        · simp [State.bothBits, pdePresent, ptePresent] at absent
        · exact denied
      have bits : s.bothBits lin 0 = true := by simp [State.bothBits, pdePresent, ptePresent]
      simp only [M.bind_run, readTab, ptePresent, denied, bits, pageFault_run, Bool.not_true, Bool.not_false,
        Bool.false_eq_true, if_false, if_true]

end

/-! What the walk leaves in memory (R105). -/

theorem State.walked_frame (s : State) (lin : BitVec 32) (write : Bool) :
    s.walked lin write = (s.setMem (s.walked lin write).mem).setStored (s.walked lin write).stored := by
  have trans {t u : State} (h : t = (s.setMem t.mem).setStored t.stored) (k : u = (t.setMem u.mem).setStored u.stored) :
      u = (s.setMem u.mem).setStored u.stored := by rw [k, h]; rfl
  exact trans (s.updWord_frame ..) (State.updWord_frame ..)

@[simp] theorem State.walked_cfg (s : State) (lin : BitVec 32) (write : Bool) : (s.walked lin write).cfg = s.cfg := by
  rw [s.walked_frame]; rfl

/-- Bytes of neither entry are as before. -/
theorem State.walked_get {x : Nat} (dir : s.within (s.dirAt lin) 4 x = false)
    (tab : s.within (s.tabAt lin) 4 x = false) : memGet (s.walked lin write).mem x = memGet s.mem x := by
  have same : ∀ (n : Nat) (l : BitVec 32) (t : State), t.cfg = s.cfg → t.within l n x = s.within l n x := by
    intro n l t hc
    induction n generalizing l with
    | zero => rfl
    | succ n ih => simp only [State.within, State.flat, hc, ih]
  unfold State.walked
  rw [State.updWord_get (by rw [same _ _ _ (s.updWord_cfg ..)]; exact tab), State.updWord_get dir]

/-- The directory entry has A set, where the table entry stands elsewhere. -/
theorem State.walked_dir (wf : Memory.wf s.mem = true)
    (ne : busAddr s.cfg (s.dirAt lin).toNat ≠ busAddr s.cfg (s.tabAt lin).toNat) :
    (s.walked lin write).word (s.dirAt lin) = s.pde lin ||| 0x20#32 := by
  unfold State.walked
  rw [State.word_updWord_ne (s.tabAt_mod lin) (s.dirAt_mod lin) (by simpa using ne.symm)]
  exact State.word_updWord wf

/-- The table entry has A set, and D after a write; where it is the directory entry itself, too. -/
theorem State.walked_tab (wf : Memory.wf s.mem = true) :
    (s.walked lin write).word (s.tabAt lin) = s.pteAfter lin write := by
  let t := s.updWord (s.dirAt lin) (s.pde lin) (s.pde lin ||| 0x20#32)
  show (t.updWord (s.tabAt lin) (s.pte lin) (s.pteAfter lin write)).word (s.tabAt lin) = _
  by_cases changes : s.pteAfter lin write = s.pte lin
  · have kept : t.word (s.tabAt lin) = s.pte lin := by
      by_cases shared : busAddr s.cfg (s.dirAt lin).toNat = busAddr s.cfg (s.tabAt lin).toNat
      · have same : s.pte lin = s.pde lin := State.word_congr fun i hi => by
          rw [s.flat_word (s.tabAt_mod lin) hi, ← shared, ← s.flat_word (s.dirAt_mod lin) hi]
        have accessed : s.pde lin ||| 0x20#32 = s.pde lin := by
          rw [or_eq_self_iff_bit5, ← same, ← changes]
          unfold State.pteAfter bitOf
          cases write <;> simp
        have unchanged : t = s := if_pos accessed
        rw [unchanged]
        rfl
      · exact State.word_updWord_ne (s.dirAt_mod lin) (s.tabAt_mod lin) shared
    rw [State.updWord, if_pos changes, kept, changes]
  · rw [State.updWord, if_neg changes]
    exact t.leVal_putBytes _ (w := .w32) _ (State.updWord_wf wf)

/-! Translation. -/

/-- Where no cached entry covers an address, a byte of it is translated by the walk (R101, R106). -/
theorem linAddrs_walk (paging : s.paging = true) (miss : tlbFind s.tlb (lin.extractLsb' 12 20) = none) :
    linAddrs lin 1 write user s = match walk lin write user s with
      | .ok f t => .ok [f.toNat * 4096 + (lin.extractLsb' 0 12).toNat] t
      | .error x t => .error x t := by
  have room : 1 ≤ 4096 - (lin.extractLsb' 0 12).toNat := by omega
  unfold linAddrs translate
  simp only [M.bind_run, getS_run, paging, miss, Bool.not_true, Bool.false_eq_true, if_false]
  cases walk lin write user s with
  | ok f t => simp only [M.pure_run, if_pos room, runFrom, List.range_one, List.map_cons, List.map_nil, Nat.add_zero]
  | error x t => rfl

/-- An address of one byte is always aligned (R110). -/
theorem State.aligned_one (s : State) (lin : BitVec 32) : s.aligned lin 1 = true := by
  simp [State.aligned, Nat.mod_one]

/-- The physical addresses of a byte whose segment checks pass (R90, R100). -/
theorem segAddrs_byte {k : SReg} {off : BitVec 32} (h : s.allows k off 1 write 1 = true) :
    segAddrs k off 1 write 1 s = linAddrs (s.linOf k off) 1 write (s.cpl == 3#2) s := by
  unfold segAddrs pageCheck
  simp only [M.bind_run, getS_run, segCheck_ok h]
  cases linAddrs (s.linOf k off) 1 write (s.cpl == 3#2) s with
  | ok as t => simp only [alignCheck_ok (t.aligned_one _), M.pure_run]
  | error x t => rfl

/-- A byte read into AL (R203). -/
theorem movAccMem_byte {addr : Off} {a : Nat} {t : State}
    (h : segAddrs s.directSeg (Off.val addr) 1 false 1 s = .ok [a] t)
    (ram : kindAt t.cfg.memmap (busAddr t.cfg a) = .ram) :
    exec (.movAccMem false addr) s = .next (t.regPut .w8 rAX (memGet t.mem (busAddr t.cfg a))).advance := by
  have read := physReadAll_ram (s := t) (as := [a]) (by simpa using ram)
  have value : leVal 8 [memGet t.mem (busAddr t.cfg a)] = memGet t.mem (busAddr t.cfg a) := by
    simp [leVal, leNat]
  refine complete_ok (t := t.regPut .w8 rAX (memGet t.mem (busAddr t.cfg a))) ?_
  show (segReadV .w8 s.directSeg (Off.val addr) >>= fun v => setReg .w8 rAX v) s = _
  simp only [segReadV, segRead, M.bind_run, h, read, List.map_cons, List.map_nil, M.pure_run, value, setReg_run]
  rfl

theorem movAccMem_trap {addr : Off} {x : Exc} {t : State}
    (h : segAddrs s.directSeg (Off.val addr) 1 false 1 s = .error (.exc x) t) :
    exec (.movAccMem false addr) s = deliver (excEvent x s.eip) (restore s t) := by
  refine complete_exc ?_
  show (segReadV .w8 s.directSeg (Off.val addr) >>= fun v => setReg .w8 rAX v) s = _
  simp only [segReadV, segRead, M.bind_run, h]

theorem State.reg_regPut (s : State) (v : BitVec 8) : (s.regPut .w8 rAX v).reg .w8 rAL = v := by
  have low : bitOf (0#3 : BitVec 3) 2 = false := rfl
  simp only [State.regPut, State.reg, State.setGpr_gpr, regWrite, regRead, low, Bool.false_eq_true, if_false,
    Oct.get_set_self]
  exact BitVec.extractLsb'_append_eq_right

end

/-- The error code of a page fault, bit by bit (R104). -/
theorem pfCode_eq (p write user : Bool) :
    pfCode p write user = 0#13 ++ BitVec.ofBool user ++ BitVec.ofBool write ++ BitVec.ofBool p := by
  cases p <;> cases write <;> cases user <;> decide

/-- Settles O50: the walk reads two entries, and either faults or updates them. -/
theorem pagingTranslates : Obligations.PagingTranslates := by
  intro s lin write addr user ram at4 dir pde tab pte phys both allowed code failed paging miss dirRam tabRam
  have hdir : dir = (s.dirAt lin).toNat := s.dirAt_toNat lin
  have word {u : State} {e : BitVec 32} (hc : u.cfg = s.cfg) (aligned : e.toNat % 4 = 0) :
      at4 u.mem e.toNat = u.word e := by
    show leVal 32 (List.map (fun x => memGet u.mem (busAddr s.cfg x)) _) = _
    rw [← hc, u.bytesAt_word aligned]
    rfl
  have hpde : pde = s.pde lin := by
    show at4 s.mem dir = _
    rw [hdir]
    exact word rfl (s.dirAt_mod lin)
  have htab : tab = (s.tabAt lin).toNat := by
    show (pde &&& _).toNat + _ = _
    rw [hpde]
    exact s.tabAt_toNat lin
  have hpte : pte = s.pte lin := by
    show at4 s.mem tab = _
    rw [htab]
    exact word rfl (s.tabAt_mod lin)
  have hboth (k : Nat) : both k = s.bothBits lin k := by
    show (pde.getLsbD k && pte.getLsbD k) = _
    rw [hpde, hpte]
    rfl
  have hallowed (write : Bool) : allowed write = s.pageGrants lin write user := by
    simp only [allowed, hboth]
    rfl
  have hcode (write : Bool) : code write = pfCode (s.bothBits lin 0) write user := by
    rw [pfCode_eq, ← hboth]
  have hphys : phys.toNat = ((s.pte lin).extractLsb' 12 20).toNat * 4096 + (lin.extractLsb' 0 12).toNat := by
    rw [← frame_linked, ← hpte]
  have dirRam : s.ramWord (s.dirAt lin) := by rw [hdir] at dirRam; exact dirRam
  have tabRam : bitOf (s.pde lin) 0 = true → s.ramWord (s.tabAt lin) := by
    rw [hpde, htab] at tabRam; exact tabRam
  have translated (write : Bool) (present : both 0 = true) (grants : allowed write = true) :
      linAddrs lin 1 write user s = .ok [phys.toNat] (s.refilled lin write) := by
    rw [linAddrs_walk paging miss, walk_ok dirRam tabRam (hboth 0 ▸ present) (hallowed write ▸ grants), hphys]
  have faulted (write : Bool) (h : both 0 = false ∨ allowed write = false) :
      linAddrs lin 1 write user s = .error (.exc ⟨14#8, some (code write)⟩) failed := by
    rw [linAddrs_walk paging miss, walk_fault dirRam tabRam (by rwa [← hboth, ← hallowed]), hcode]
    rfl
  refine ⟨fun present grants => ⟨_, translated write present grants, ?_, fun wf =>
      ⟨?_, fun ne => ?_, fun x other => ?_⟩⟩,
    faulted write, fun linear passes => ⟨fun present grants physRam => ?_, fun h => ?_⟩⟩
  · exact congrArg (State.setTlb · (s.refilled lin write).tlb) (s.walked_frame lin write)
  · rw [htab, hpte]
    exact (word (u := s.walked lin write) (s.walked_cfg lin write) (s.tabAt_mod lin)).trans (State.walked_tab wf)
  · rw [hdir, htab] at ne
    rw [hdir, hpde]
    exact (word (u := s.walked lin write) (s.walked_cfg lin write) (s.dirAt_mod lin)).trans (State.walked_dir wf ne)
  · rw [hdir, htab] at other
    exact State.walked_get (State.not_within_word (s.dirAt_mod lin) fun i hi => (other i hi).1)
      (State.not_within_word (s.tabAt_mod lin) fun i hi => (other i hi).2)
  · have cfg : (s.refilled lin false).cfg = s.cfg := s.walked_cfg lin false
    have loaded := movAccMem_byte (s := s) (by rw [segAddrs_byte passes, linear]; exact translated false present grants)
      (by rw [cfg]; exact physRam)
    rw [cfg] at loaded
    exact ⟨_, loaded, State.reg_regPut _ _⟩
  · have trapped := movAccMem_trap (by rw [segAddrs_byte passes, linear]; exact faulted false h)
    have restored : restore s failed = failed := rfl
    have event : excEvent ⟨14#8, some (code false)⟩ s.eip = ⟨14#8, .fault, s.eip, some (code false)⟩ := rfl
    rw [restored, event] at trapped
    exact trapped

end Sys2Proof.Machine
end

section
/-! The stack pointer and the items of the stack (R112): several pops are reads above the top and one move of the
pointer; a push changes memory and the pointer alone. -/

namespace Sys2Proof.Machine

/-! The stack pointer. -/

theorem Oct.set_set {α : Type} (o : Oct α) (i : BitVec 3) (v u : α) : (o.set i v).set i u = o.set i u := by
  apply Oct.ext_get
  intro j
  by_cases h : j = i
  · subst h; rw [Oct.get_set_self, Oct.get_set_self]
  · rw [Oct.get_set_ne _ _ h, Oct.get_set_ne _ _ h, Oct.get_set_ne _ _ h]

/-- Of two writes of the stack pointer the second stands. -/
theorem State.gprWithSp_again (s : State) (u v : BitVec 32) :
    (s.setGpr (s.gprWithSp u)).gprWithSp v = s.gprWithSp v := by
  unfold State.gprWithSp State.stack32
  simp only [State.setGpr_segs, State.setGpr_gpr]
  split
  · exact Oct.set_set s.gpr rSP u v
  · simp only [regWrite, Oct.get_set_self, Oct.set_set, BitVec.extractLsb'_append_eq_left]

/-- The stack pointer reads as it was written, at its width. -/
theorem State.sp_gprWithSp (s : State) (v : BitVec 32) : (s.setGpr (s.gprWithSp v)).sp = spTrunc s.stack32 v := by
  unfold State.sp State.gprWithSp
  show spTrunc s.stack32 _ = _
  cases s.stack32 with
  | true => simp [State.reg, regRead, regWrite, spTrunc]
  | false => simp [State.reg, regRead, regWrite, spTrunc, BitVec.extractLsb'_append_eq_right]

/-- The stack pointer moved twice. -/
theorem State.spAdd_gprWithSp (s : State) (a b : BitVec 32) :
    (s.setGpr (s.gprWithSp (s.spAdd a))).spAdd b = s.spAdd (a + b) := by
  have moved : (s.setGpr (s.gprWithSp (s.spAdd a))).spAdd b =
      spTrunc s.stack32 ((s.setGpr (s.gprWithSp (s.spAdd a))).sp + b) := rfl
  rw [moved, State.sp_gprWithSp, spTrunc_add_spTrunc]
  unfold State.spAdd
  rw [spTrunc_add_spTrunc, BitVec.add_assoc]

/-! Pops. -/

theorem State.poppedTimes_frame (s : State) (w : Width) (n : Nat) :
    s.poppedTimes w n = s.setGpr (s.poppedTimes w n).gpr := by
  induction n with
  | zero => rfl
  | succ n ih =>
    have last : s.poppedTimes w (n + 1) = (s.poppedTimes w n).setGpr (s.poppedTimes w (n + 1)).gpr := rfl
    rw [last, ih]
    rfl

theorem State.poppedTimes_gprWithSp (s : State) (w : Width) (n : Nat) (v : BitVec 32) :
    (s.poppedTimes w n).gprWithSp v = s.gprWithSp v := by
  induction n with
  | zero => rfl
  | succ n ih => exact ((s.poppedTimes w n).gprWithSp_again _ v).trans ih

/-- After some pops the stack pointer stands so many items higher. -/
theorem State.poppedTimes_spAdd (s : State) (w : Width) (n : Nat) (k : BitVec 32) :
    (s.poppedTimes w n).spAdd k = s.spAdd (BitVec.ofNat 32 (n * w.bytes) + k) := by
  induction n generalizing k with
  | zero => simp [State.poppedTimes]
  | succ n ih =>
    calc (s.poppedTimes w (n + 1)).spAdd k
        = (s.poppedTimes w n).spAdd (BitVec.ofNat 32 w.bytes + k) := (s.poppedTimes w n).spAdd_gprWithSp _ k
      _ = s.spAdd (BitVec.ofNat 32 ((n + 1) * w.bytes) + k) := by
        rw [ih, ← BitVec.add_assoc, ← BitVec.ofNat_add, Nat.succ_mul]

theorem State.poppedTimes_sp (s : State) (w : Width) (n : Nat) :
    (s.poppedTimes w n).sp = s.spAdd (BitVec.ofNat 32 (n * w.bytes)) := by
  rw [← State.spAdd_zero, State.poppedTimes_spAdd, BitVec.add_zero]

theorem sameAccess_poppedTimes (s : State) (w : Width) (n : Nat) : SameAccess s (s.poppedTimes w n) := by
  rw [s.poppedTimes_frame]
  exact sameAccess_gpr s _

/-- What is read depends on memory and the parameters alone. -/
theorem State.bytesAt_congr {s t : State} (mem : t.mem = s.mem) (cfg : t.cfg = s.cfg) (lin : BitVec 32) (n : Nat) :
    t.bytesAt lin n = s.bytesAt lin n := by
  induction n generalizing lin with
  | zero => rfl
  | succ n ih => simp only [State.bytesAt, State.flat, mem, cfg, ih]

theorem State.memVal_setGpr (s : State) (g : Oct (BitVec 32)) (w : Width) (k : SReg) (off : BitVec 32) :
    (s.setGpr g).memVal w k off = s.memVal w k off := by
  have lin : (s.setGpr g).linOf k off = s.linOf k off := rfl
  rw [State.memVal, State.memVal, lin, State.bytesAt_congr (s := s) (t := s.setGpr g) rfl rfl]

/-- The value of the k-th pop stands so many items above the top. -/
theorem State.popVals_eq (s : State) (w : Width) (k : Nat) :
    s.popVals w k = s.memVal w .ss (s.spAdd (BitVec.ofNat 32 (k * w.bytes))) := by
  unfold State.popVals State.popVal
  rw [State.poppedTimes_sp, State.poppedTimes_frame, State.memVal_setGpr]

/-- The item a pop would take is read without popping. -/
theorem peek_popVals {s : State} {w : Width} {n k : Nat} (h : s.popsTimes w n = true) (hk : k < n) :
    peek w (k * w.bytes) s = .ok (s.popVals w k) s := by
  have reads := popsTimes_pops h hk
  rw [State.pops, State.poppedTimes_sp, (sameAccess_poppedTimes s w k).reaches] at reads
  rw [peek_ok reads, State.popVals_eq]

/-! Pushes. -/

section
variable (s : State) (w : Width) (v : Val w)

@[simp] theorem State.pushed_cfg : (s.pushed w v).cfg = s.cfg := by simp [State.pushed, State.memPut]
@[simp] theorem State.pushed_eip : (s.pushed w v).eip = s.eip := by simp [State.pushed, State.memPut]
@[simp] theorem State.pushed_segs : (s.pushed w v).segs = s.segs := by simp [State.pushed, State.memPut]
@[simp] theorem State.pushed_flags : (s.pushed w v).flags = s.flags := by simp [State.pushed, State.memPut]
@[simp] theorem State.pushed_sys : (s.pushed w v).sys = s.sys := by simp [State.pushed, State.memPut]
@[simp] theorem State.pushed_ctl : (s.pushed w v).ctl = s.ctl := by simp [State.pushed, State.memPut]
@[simp] theorem State.pushed_draws : (s.pushed w v).draws = s.draws := by simp [State.pushed, State.memPut]

theorem sameAccess_pushed : SameAccess s (s.pushed w v) := by constructor <;> simp

theorem State.pushed_setDraws (n : Nat) : (s.setDraws n).pushed w v = (s.pushed w v).setDraws n := by
  unfold State.pushed State.memPut
  rw [s.putBytes_comm (·.setDraws n) (fun _ _ _ => rfl) fun _ => rfl]
  rfl

end

theorem sameAccess_pushedAll {w : Width} (vs : List (Val w)) (s : State) : SameAccess s (s.pushedAll w vs) := by
  induction vs generalizing s with
  | nil => exact ⟨rfl, rfl, rfl, rfl, rfl⟩
  | cons v vs ih => exact (sameAccess_pushed s w v).trans (ih _)

/-- A selector is pushed (R210, R612). -/
theorem pushSel_ok {s : State} {w : Width} (sel : BitVec 16) (h : s.pushes w = true) :
    pushSel w sel s = .ok () (s.pushedSel w sel) := by
  cases w with
  | w8 => exact push_ok (w := .w8) (sel.extractLsb' 0 8) h
  | w16 => exact push_ok (w := .w16) sel h
  | w32 =>
    have draws : (s.setDraws (s.draws + 1)).pushes .w32 = true := by
      rwa [(sameAccess_draws s (s.draws + 1)).pushes rfl]
    unfold pushSel
    simp only [M.bind_run, selItem_32]
    rw [push_ok (w := .w32) (Config.freeWord s.draws ++ sel) draws, State.pushed_setDraws]
    rfl

end Sys2Proof.Machine
end

section
/-! Far transfers in protected mode (R380, R383, R413): what passes the tests loads CS, and to an outer level SS and the
stack pointer. -/

namespace Sys2Proof.Machine

/-! CS and its level. -/

/-- A selector whose low two bits are replaced by a level (R380). -/
theorem selErr_or_level (sel : BitVec 16) (level : BitVec 2) :
    selErr sel ||| level.setWidth 16 = sel.extractLsb' 2 14 ++ level := by
  apply BitVec.eq_of_getLsbD_eq
  intro i hi
  simp only [selErr, BitVec.getLsbD_or, BitVec.getLsbD_and, BitVec.getLsbD_append, BitVec.getLsbD_extractLsb',
    BitVec.getLsbD_setWidth]
  interval_cases i <;> simp

/-- A selector is its upper bits and its requested level. -/
theorem sel_append_rpl (sel : BitVec 16) : sel.extractLsb' 2 14 ++ selRpl sel = sel := by
  apply BitVec.eq_of_getLsbD_eq
  intro i hi
  simp only [selRpl, BitVec.getLsbD_append, BitVec.getLsbD_extractLsb']
  interval_cases i <;> simp

/-- The state after CS is loaded from a code descriptor at a level (R380, R91). -/
def State.intoCode (s : State) (d : Desc) (sel : BitVec 16) (level : BitVec 2) : State :=
  (s.marked d).setSegs (s.segs.put .cs (d.asSeg (sel.extractLsb' 2 14 ++ level)))

@[simp] theorem State.intoCode_cfg (s : State) (d : Desc) (sel : BitVec 16) (level : BitVec 2) :
    (s.intoCode d sel level).cfg = s.cfg := s.marked_cfg d
@[simp] theorem State.intoCode_sys (s : State) (d : Desc) (sel : BitVec 16) (level : BitVec 2) :
    (s.intoCode d sel level).sys = s.sys := s.marked_sys d

theorem loadCs_ok {s : State} {d : Desc} (sel : BitVec 16) (level : BitVec 2)
    (h : s.plain (d.addr + 5#32) 1 = true) : loadCs d sel level s = .ok () (s.intoCode d sel level) := by
  unfold loadCs State.intoCode
  simp only [M.bind_run, setAccessed_plain h, putSeg_run, selErr_or_level, State.marked_segs]
  rfl

/-- A descriptor named before some changes has its access byte in plain memory after them. -/
theorem State.plain_access_after {s u : State} {sel : BitVec 16} {d : Desc} (named : s.names sel d = true)
    (cfg : u.cfg = s.cfg) (cr0 : u.sys.cr0 = s.sys.cr0) : u.plain (d.addr + 5#32) 1 = true := by
  rw [State.plain_congr cfg cr0]
  exact State.plain_access named

/-! JMP and CALL (R380). -/

/-- What a far transfer saves before it loads CS. -/
def FarKind.save (kind : FarKind) (os : Size) : M Unit :=
  match kind with
  | .jmp => pure ()
  | .call => do
    requireRoom os.width 2
    pushReturn os

theorem requireRoom_ok {s : State} {w : Width} {k : Nat} (h : s.holds w k = true) :
    requireRoom w k s = .ok () s := by
  unfold State.holds at h
  simp [requireRoom, h]

/-- The level rules of a far transfer to a code segment without a gate (R380). -/
def Desc.allows (d : Desc) (sel : BitVec 16) (cpl : BitVec 2) : Prop :=
  if arConforming d.access then (arDpl d.access).toNat ≤ cpl.toNat
  else (selRpl sel).toNat ≤ cpl.toNat ∧ arDpl d.access = cpl

/-- A far transfer to a code segment that passes the tests of R380. -/
theorem farProt_ok {s u : State} {sel : BitVec 16} {off : BitVec 32} {d : Desc} {kind : FarKind}
    (named : s.names sel d = true) (code : arCode d.access = true) (present : arPresent d.access = true)
    (within : (ipMask s.os off).toNat ≤ d.limit.toNat) (allowed : d.allows sel s.cpl)
    (saved : kind.save s.os s = .ok () u) (same : SameAccess s u) :
    farProt sel off kind s = .ok () ((u.intoCode d sel s.cpl).jumped (ipMask s.os off)) := by
  have conforming : ¬ (arConforming d.access = true ∧ s.cpl.toNat < (arDpl d.access).toNat) := by
    rintro ⟨c, below⟩
    rw [Desc.allows, if_pos c] at allowed
    omega
  have level : ¬ (arConforming d.access = false ∧
      (s.cpl.toNat < (selRpl sel).toNat ∨ arDpl d.access ≠ s.cpl)) := by
    rintro ⟨c, below | ne⟩ <;> rw [Desc.allows, if_neg (by simp [c])] at allowed
    · omega
    · exact ne allowed.2
  have load := loadCs_ok sel s.cpl (State.plain_access_after named same.cfg (by rw [same.sys]))
  unfold farProt
  rw [if_neg (by simp [State.not_null_of_names named])]
  simp only [M.bind_run, getS_run, readDesc_names _ named, if_pos code, if_neg conforming, if_neg level,
    if_neg (show ¬ arPresent d.access = false by simp [present]), if_neg (Nat.not_lt.2 within)]
  cases kind with
  | jmp =>
    cases saved
    simp only [M.bind_run, load, jumpTo_run]
    rfl
  | call =>
    simp only [FarKind.save, M.bind_run] at saved
    cases room : requireRoom s.os.width 2 s with
    | error x t => rw [room] at saved; cases saved
    | ok a t =>
      rw [room] at saved
      simp only [M.bind_run, room, saved, load, jumpTo_run]
      rfl

theorem farTransfer_prot {s : State} (prot : s.protMode = true) (sel : BitVec 16) (off : BitVec 32) (kind : FarKind) :
    farTransfer sel off kind s = farProt sel off kind s := by
  unfold farTransfer
  simp only [M.bind_run, getS_run, prot, if_true]

/-- Two items pushed are a list of two pushed. -/
theorem push_push_ok {s : State} {w : Width} {a b : Val w} (h : s.pushesAll w [a, b] = true) :
    (push w a >>= fun _ => push w b) s = .ok () (s.pushedAll w [a, b]) := by
  simp only [State.pushesAll, Bool.and_eq_true] at h
  simp only [M.bind_run, push_ok a h.1, push_ok b h.2.1]
  rfl

/-- A far call of 16 bits saves CS and the next offset. -/
theorem save_call16 {s : State} (os : s.os = .s16) (room : s.holds s.os.width 2 = true)
    (h : s.pushesAll .w16 [s.segs.cs.sel, s.nextIP.setWidth 16] = true) :
    FarKind.call.save s.os s = .ok () (s.pushedAll .w16 [s.segs.cs.sel, s.nextIP.setWidth 16]) := by
  have two : pushReturn .s16 s = (push .w16 s.segs.cs.sel >>= fun _ => push .w16 (s.nextIP.setWidth 16)) s := rfl
  unfold FarKind.save
  simp only [M.bind_run, requireRoom_ok room]
  rw [os, two, push_push_ok h]

/-- One of 32 bits saves CS under an undefined half. -/
theorem save_call32 {s : State} (os : s.os = .s32) (room : s.holds s.os.width 2 = true)
    (h : (s.setDraws (s.draws + 1)).pushesAll .w32 [Config.freeWord s.draws ++ s.segs.cs.sel, s.nextIP] = true) :
    FarKind.call.save s.os s = .ok ()
      ((s.setDraws (s.draws + 1)).pushedAll .w32 [Config.freeWord s.draws ++ s.segs.cs.sel, s.nextIP]) := by
  have two : pushReturn .s32 s = (push .w32 (Config.freeWord s.draws ++ s.segs.cs.sel) >>= fun _ =>
      push .w32 (s.nextIP.setWidth 32)) (s.setDraws (s.draws + 1)) := rfl
  unfold FarKind.save
  simp only [M.bind_run, requireRoom_ok room]
  rw [os, two, BitVec.setWidth_eq, push_push_ok h]

/-! RET (R383). -/

/-- The tests on the code descriptor of a return (R383). -/
def Desc.allowsReturn (d : Desc) (sel : BitVec 16) (o : BitVec 32) : Prop :=
  arCode d.access = true ∧ arPresent d.access = true ∧ o.toNat ≤ d.limit.toNat ∧
    if arConforming d.access then (arDpl d.access).toNat ≤ (selRpl sel).toNat else arDpl d.access = selRpl sel

theorem checkReturnCode_ok {d : Desc} {sel : BitVec 16} {o : BitVec 32} (h : d.allowsReturn sel o) :
    checkReturnCode sel d o = pure () := by
  obtain ⟨code, present, within, level⟩ := h
  unfold checkReturnCode
  rw [if_neg (by simp [code])]
  cases conforming : arConforming d.access with
  | true =>
    rw [conforming, if_pos rfl] at level
    rw [if_neg (by omega), if_neg (by simp), if_neg (by simp [present]), if_neg (by omega)]
  | false =>
    rw [conforming, if_neg (by simp)] at level
    rw [if_neg (by simp), if_neg (by simp [level]), if_neg (by simp [present]), if_neg (by omega)]

/-- The state after a return to the same level (R383). -/
def State.returnedSame (s : State) (d : Desc) (sel : BitVec 16) (o above : BitVec 32) : State :=
  ((s.setGpr (s.gprWithSp (s.spAdd above))).intoCode d sel (selRpl sel)).jumped o

/-- The state after a return to an outer level, whose stack is that of descriptor `n` (R383). -/
def State.returnedOuter (s : State) (d n : Desc) (sel nss : BitVec 16) (o nsp : BitVec 32) : State :=
  let t := (s.marked d).marked n
  let g := ((s.segs.put .cs (d.asSeg sel)).put .ss (n.asSeg nss)).dropFor (selRpl sel)
  (((t.setSegs g).setSys { s.sys with cpl := selRpl sel }).setGpr
    (if n.db then regWrite s.gpr .w32 rSP nsp else regWrite s.gpr .w16 rSP (nsp.extractLsb' 0 16))).jumped o

section
variable {s : State} {w : Width} {o k : BitVec 32} {sel : BitVec 16} {items : Nat} {d : Desc}
  (named : s.names sel d = true) (rights : d.allowsReturn sel o)
include named rights

theorem returnProt_same (level : selRpl sel = s.cpl) : returnProt w o sel items k s =
    .ok () (s.returnedSame d sel o (BitVec.ofNat 32 (items * w.bytes) + k)) := by
  have load := loadCs_ok sel (selRpl sel) (State.plain_access named)
  unfold returnProt
  simp only [M.bind_run, getS_run, State.not_null_of_names named, Bool.false_eq_true, if_false,
    if_neg (show ¬ (selRpl sel).toNat < s.cpl.toNat by rw [level]; omega), readDesc_names _ named,
    checkReturnCode_ok rights, M.pure_run, if_pos level, load, setSp, updS_run, jumpTo_run]
  unfold State.returnedSame State.intoCode
  rw [State.marked_setGpr]
  unfold State.gprWithSp State.stack32
  simp only [State.setSegs_segs, State.setSegs_gpr, State.marked_gpr]
  rfl

theorem returnProt_outer {n : Desc} {nss : BitVec 16} (outer : s.cpl.toNat < (selRpl sel).toNat)
    (spReads : s.reaches .ss (s.spAdd (BitVec.ofNat 32 (items * w.bytes) + k)) w.bytes false w.bytes = true)
    (ssReads : s.reaches .ss (s.spAdd (BitVec.ofNat 32 (items * w.bytes) + k + BitVec.ofNat 32 w.bytes)) w.bytes false
      w.bytes = true)
    (hnss : itemSel (s.memVal w .ss
      (s.spAdd (BitVec.ofNat 32 (items * w.bytes) + k + BitVec.ofNat 32 w.bytes))) = nss)
    (stack : s.names nss n = true) (fits : n.fitsStack nss (selRpl sel)) :
    returnProt w o sel items k s = .ok () (s.returnedOuter d n sel nss o
      ((s.memVal w .ss (s.spAdd (BitVec.ofNat 32 (items * w.bytes) + k))).setWidth 32 + k)) := by
  have load := loadCs_ok (s := s.setSys { s.sys with cpl := selRpl sel }) sel (selRpl sel)
    (State.plain_access_after named rfl rfl)
  have mark := setAccessed_plain (d := n) (s := (s.setSys { s.sys with cpl := selRpl sel }).intoCode d sel (selRpl sel))
    (State.plain_access_after stack (by simp) (by simp))
  unfold returnProt
  simp only [M.bind_run, getS_run, State.not_null_of_names named, Bool.false_eq_true, if_false,
    if_neg (show ¬ (selRpl sel).toNat < s.cpl.toNat by omega), readDesc_names _ named,
    checkReturnCode_ok rights, M.pure_run, if_neg (show ¬ selRpl sel = s.cpl by intro e; rw [e] at outer; omega),
    segReadV_ok spReads, segReadV_ok ssReads, hnss, State.not_null_of_names stack, readDesc_names _ stack,
    checkStackDesc_of_fits _ _ fits, updSys_run, load, mark, putSeg_run, setSp, updS_run, jumpTo_run]
  unfold State.returnedOuter State.intoCode State.gprWithSp State.stack32
  simp only [State.marked_setSegs, State.marked_setSys, State.setSys_segs, State.setSegs_segs, State.setGpr_segs,
    State.setSegs_gpr, State.setSys_gpr, State.marked_gpr, sel_append_rpl]
  rfl

end

/-- A data segment register that a return to an outer level drops (R383), where the usable ones are those of code or
data. -/
theorem SegReg.dropFor_eq {r : SegReg} (h : r.usable = true → arSegment r.access = true) (level : BitVec 2) :
    r.dropFor level = if r.usable = true ∧ arConforming r.access = false ∧ (arDpl r.access).toNat < level.toNat ∧
        (arData r.access = true ∨ arCode r.access = true) then { r with sel := 0#16, usable := false } else r := by
  unfold SegReg.dropFor
  cases usable : r.usable with
  | false => simp
  | true =>
    have segment : bitOf r.access 4 = true := h usable
    cases code : bitOf r.access 3 <;> simp [arData, arConforming, arCode, segment, code]

/-- RET in protected mode is what R383 makes of the two items on top of the stack. -/
theorem farReturn_prot {s : State} (prot : s.protMode = true) (k : BitVec 16)
    (h : s.popsTimes s.os.width 2 = true) : farReturn k s = returnProt s.os.width
      ((s.popVals s.os.width 0).setWidth 32) ((s.popVals s.os.width 1).setWidth 16) 2 (k.setWidth 32) s := by
  have top := peek_popVals h (k := 0) (by decide)
  have next := peek_popVals h (k := 1) (by decide)
  rw [Nat.zero_mul] at top
  rw [Nat.one_mul] at next
  unfold farReturn
  simp only [M.bind_run, getS_run, top, next, prot, if_true]
  rfl

/-- The two ways of writing the offset of the outer stack segment's item. -/
theorem item_above (items bytes : Nat) (k : BitVec 32) : BitVec.ofNat 32 ((items + 1) * bytes) + k =
    BitVec.ofNat 32 (items * bytes) + k + BitVec.ofNat 32 bytes := by
  rw [Nat.succ_mul, BitVec.ofNat_add, BitVec.add_assoc, BitVec.add_assoc, BitVec.add_comm k]

/-! IRET (R413). -/

/-- The flags IRET loads in protected mode, bit by bit. -/
theorem irFlags_prot {s : State} (prot : s.protMode = true) (v : BitVec 32) : s.irFlags v s.os =
    { cf := v.getLsbD 0, pf := v.getLsbD 2, af := v.getLsbD 4, zf := v.getLsbD 6, sf := v.getLsbD 7
      tf := v.getLsbD 8, df := v.getLsbD 10, ovf := v.getLsbD 11, nt := v.getLsbD 14
      ie := if s.cpl.toNat ≤ s.flags.iopl.toNat then v.getLsbD 9 else s.flags.ie
      iopl := if s.cpl = 0#2 then v.extractLsb' 12 2 else s.flags.iopl
      rf := if s.os = .s32 then v.getLsbD 16 else s.flags.rf
      vm := s.flags.vm
      ac := if s.os = .s32 ∧ s.cfg.cpu = .p486 then v.getLsbD 18 else s.flags.ac } := by
  have pe : s.sys.cr0.pe = true := (Bool.and_eq_true_iff.1 prot).1
  unfold State.irFlags
  cases os : s.os <;>
    simp [Flags.load16, Flags.ofWord, State.flagRights, pe, bitOf, State.has486]

/-- The flags of an image that returns to virtual-8086 mode, bit by bit. -/
theorem ofWord_v86 {s : State} {v : BitVec 32} (vm : v.getLsbD 17 = true) :
    { Flags.ofWord v with ac := (Flags.ofWord v).ac && s.has486 } =
    ({ cf := v.getLsbD 0, pf := v.getLsbD 2, af := v.getLsbD 4, zf := v.getLsbD 6, sf := v.getLsbD 7
       tf := v.getLsbD 8, ie := v.getLsbD 9, df := v.getLsbD 10, ovf := v.getLsbD 11, iopl := v.extractLsb' 12 2
       nt := v.getLsbD 14, rf := v.getLsbD 16, vm := true, ac := v.getLsbD 18 && s.cfg.cpu == .p486 } : Flags) := by
  simp only [Flags.ofWord, bitOf, vm]
  rfl

section
variable {s t : State} (prot : s.protMode = true) (nt : s.flags.nt = false)
include prot nt

/-- IRET that stays out of virtual-8086 mode: what R383 makes of the three items, then the flags. -/
theorem iret_prot (h : s.popsTimes s.os.width 3 = true)
    (stays : s.os = .s16 ∨ ((s.popVals s.os.width 2).setWidth 32).getLsbD 17 = false ∨ s.cpl ≠ 0#2)
    (back : returnProt s.os.width ((s.popVals s.os.width 0).setWidth 32) ((s.popVals s.os.width 1).setWidth 16) 3 0#32 s
      = .ok () t) :
    exec .iret s = .next ((t.setFlags (s.irFlags ((s.popVals s.os.width 2).setWidth 32) s.os)).setCtl
      t.ctl.afterIret) := by
  have o := peek_popVals h (k := 0) (by decide)
  have sel := peek_popVals h (k := 1) (by decide)
  have fl := peek_popVals h (k := 2) (by decide)
  rw [Nat.zero_mul] at o
  rw [Nat.one_mul] at sel
  have outside : ¬ (s.os = .s32 ∧ bitOf ((s.popVals s.os.width 2).setWidth 32) 17 = true ∧ s.cpl = 0#2) := by
    rintro ⟨os, vm, level⟩
    obtain os' | vm' | level' := stays
    · rw [os'] at os; cases os
    · exact absurd (vm.symm.trans vm') (by decide)
    · exact level' level
  refine finish_ok (m := interruptReturn) ?_
  unfold interruptReturn iretProt
  simp only [M.bind_run, getS_run, prot, if_true, nt, Bool.false_eq_true, if_false, o, sel, fl, if_neg outside]
  rw [show itemSel (s.popVals s.os.width 1) = (s.popVals s.os.width 1).setWidth 16 from rfl, back]
  rfl

/-- IRET to virtual-8086 mode (R413): nine items, of which the flags, the segment registers and ESP are loaded. -/
theorem iret_v86 (os : s.os = .s32) (level : s.cpl = 0#2) (h : s.popsTimes .w32 9 = true)
    (vm : (s.popVals .w32 2).getLsbD 17 = true) :
    let item (j : Nat) : BitVec 16 := (s.popVals .w32 j).extractLsb' 0 16
    let f := Flags.ofWord (s.popVals .w32 2)
    exec .iret s = .next ((((((s.setFlags { f with ac := f.ac && s.has486 }).setSegs
      { cs := SegReg.v86 (item 1) 0x9B#8, ss := SegReg.v86 (item 4) 0x93#8, es := SegReg.v86 (item 5) 0x93#8
        ds := SegReg.v86 (item 6) 0x93#8, fs := SegReg.v86 (item 7) 0x93#8, gs := SegReg.v86 (item 8) 0x93#8 }).setSys
      { s.sys with cpl := 3#2 }).setGpr (regWrite s.gpr .w32 rSP (s.popVals .w32 3))).setCtl
      s.ctl.afterIret).jumped (s.popVals .w32 0 &&& 0xFFFF#32)) := by
  intro item f
  have o : peek s.os.width 0 s = .ok (s.popVals s.os.width 0) s := by
    rw [os]; exact peek_popVals h (k := 0) (by decide)
  have sel : peek s.os.width s.os.width.bytes s = .ok (s.popVals s.os.width 1) s := by
    rw [os]; exact peek_popVals h (k := 1) (by decide)
  have fl : peek s.os.width (2 * s.os.width.bytes) s = .ok (s.popVals s.os.width 2) s := by
    rw [os]; exact peek_popVals h (k := 2) (by decide)
  have p3 : peek .w32 12 s = .ok (s.popVals .w32 3) s := peek_popVals h (k := 3) (by decide)
  have p4 : peek .w32 16 s = .ok (s.popVals .w32 4) s := peek_popVals h (k := 4) (by decide)
  have p5 : peek .w32 20 s = .ok (s.popVals .w32 5) s := peek_popVals h (k := 5) (by decide)
  have p6 : peek .w32 24 s = .ok (s.popVals .w32 6) s := peek_popVals h (k := 6) (by decide)
  have p7 : peek .w32 28 s = .ok (s.popVals .w32 7) s := peek_popVals h (k := 7) (by decide)
  have p8 : peek .w32 32 s = .ok (s.popVals .w32 8) s := peek_popVals h (k := 8) (by decide)
  have full (k : Nat) : (s.popVals s.os.width k).setWidth 32 = s.popVals .w32 k := by
    rw [os]; exact BitVec.setWidth_eq _
  have half : itemSel (s.popVals s.os.width 1) = item 1 := by
    unfold itemSel
    rw [os]
    exact BitVec.setWidth_eq_extractLsb' (by decide)
  have low (j : Nat) : itemSel (w := .w32) (s.popVals .w32 j) = item j := BitVec.setWidth_eq_extractLsb' (by decide)
  have virtual : s.os = .s32 ∧ bitOf (s.popVals .w32 2) 17 = true ∧ s.cpl = 0#2 := ⟨os, vm, level⟩
  refine finish_ok (m := interruptReturn) ?_
  unfold interruptReturn iretProt iretToV86
  simp only [M.bind_run, getS_run, prot, if_true, nt, Bool.false_eq_true, if_false, o, sel, fl, full, half,
    if_pos virtual, p3, p4, p5, p6, p7, p8, low, updS_run, unblockNmi_run, jumpTo_run]
  rfl

end

end Sys2Proof.Machine
end

section
/-! Far jumps, calls, returns and IRET in protected mode, assembled from the rules of the transfers. -/

namespace Sys2Proof.Machine

/-- The pointer moved item by item and then by an immediate is moved once (R383). -/
theorem returnedSame_popped {s : State} {d : Desc} {sel : BitVec 16} {o k : BitVec 32} {w : Width} (items : Nat)
    (level : selRpl sel = s.cpl) :
    let t := s.poppedTimes w items
    ((t.setGpr (t.gprWithSp (t.spAdd k))).intoCode d sel s.cpl).jumped o =
      s.returnedSame d sel o (BitVec.ofNat 32 (items * w.bytes) + k) := by
  intro t
  have gpr : t.gprWithSp (t.spAdd k) = s.gprWithSp (s.spAdd (BitVec.ofNat 32 (items * w.bytes) + k)) := by
    rw [s.poppedTimes_spAdd, s.poppedTimes_gprWithSp]
  rw [gpr, show t = s.setGpr t.gpr from s.poppedTimes_frame w items, State.setGpr_setGpr, State.returnedSame, level]

theorem State.returnedSame_ctl (s : State) (d : Desc) (sel : BitVec 16) (o above : BitVec 32) :
    (s.returnedSame d sel o above).ctl = s.ctl := by
  show (State.marked _ d).ctl = _
  simp

/-- The outcome of a computation depends on what it does from the state alone. -/
theorem finish_congr {m m' : M Unit} {s : State} (h : m s = m' s) : finish m s = finish m' s := by
  unfold finish
  rw [h]

section
variable {s : State} {m : MemOp}
  (off : s.reaches (s.memSeg m) (s.ea m) s.os.width.bytes false s.os.width.bytes = true)
  (sel : s.reaches (s.memSeg m) (s.ea m + BitVec.ofNat 32 s.os.width.bytes) 2 false 2 = true)
include off sel

/-- JMP through a pointer in memory (R379). -/
theorem jmpMemFar_eq : exec (.jmpMemFar m) s = finish (farTransfer
    (s.memVal .w16 (s.memSeg m) (s.ea m + BitVec.ofNat 32 s.os.width.bytes))
    ((s.memVal s.os.width (s.memSeg m) (s.ea m)).setWidth 32) .jmp) s :=
  finish_congr (by simp only [M.bind_run, readFarPtr_ok off sel])

/-- CALL through a pointer in memory (R374). -/
theorem callMemFar_eq : exec (.callMemFar m) s = finish (farTransfer
    (s.memVal .w16 (s.memSeg m) (s.ea m + BitVec.ofNat 32 s.os.width.bytes))
    ((s.memVal s.os.width (s.memSeg m) (s.ea m)).setWidth 32) .call) s :=
  finish_congr (by simp only [M.bind_run, readFarPtr_ok off sel])

end

/-- Settles O52: each instruction is one of the transfers of R380, R383 and R413, whose tests the hypotheses pass. -/
theorem protectedFarTransfers : Obligations.ProtectedFarTransfers := by
  intro s off sel m k d n w code into allowed jumps calls moff msel o psel fl level rights drop same spAt ssAt nss
    outward outer afterIret loaded returned item v86 f86 prot
  have jump {sel : BitVec 16} {o : BitVec 32} : jumps sel o (finish (farTransfer sel o .jmp) s) := by
    intro ⟨named, isCode, present, within⟩ ok
    refine finish_ok ?_
    rw [farTransfer_prot prot]
    exact farProt_ok named isCode present within ok rfl ⟨rfl, rfl, rfl, rfl, rfl⟩
  have call {sel : BitVec 16} {o : BitVec 32} : calls sel o (finish (farTransfer sel o .call) s) := by
    intro ⟨named, isCode, present, within⟩ ok room
    refine ⟨fun os pushes => finish_ok ?_, fun os pushes => finish_ok ?_⟩ <;> rw [farTransfer_prot prot]
    · exact farProt_ok named isCode present within ok (save_call16 os room pushes) (sameAccess_pushedAll _ s)
    · exact farProt_ok named isCode present within ok (save_call32 os room pushes)
        ((sameAccess_draws s _).trans (sameAccess_pushedAll _ _))
  have back {sel : BitVec 16} {o : BitVec 32} (ok : code sel o) (level : if arConforming d.access then
      (arDpl d.access).toNat ≤ (selRpl sel).toNat else arDpl d.access = selRpl sel) : d.allowsReturn sel o := by
    obtain ⟨-, isCode, present, within⟩ := ok
    exact ⟨isCode, present, within, level⟩
  have inner {items : Nat} {k : BitVec 32} (ok : code psel o) (right : rights) (here : level = s.cpl) :
      returnProt w o psel items k s = .ok () (same items k) := by
    rw [returnProt_same ok.1 (back ok right) here]
    exact congrArg _ (returnedSame_popped items here).symm
  have outside {items : Nat} {k : BitVec 32} (ok : code psel o) (right : rights) (above : s.cpl.toNat < level.toNat)
      (out : outward items k) : returnProt w o psel items k s = .ok () (outer items k) := by
    obtain ⟨segments, spReads, ssReads, stack, rpl, writable, dpl, present⟩ := out
    have at' : ssAt items k = s.spAdd (BitVec.ofNat 32 (items * w.bytes) + k + BitVec.ofNat 32 w.bytes) :=
      congrArg s.spAdd (item_above items w.bytes k)
    rw [at'] at ssReads
    rw [returnProt_outer ok.1 (back ok right) above spReads ssReads (nss := nss items k)
      (by show _ = (s.memVal w .ss (ssAt items k)).setWidth 16; rw [at']; rfl) stack ⟨rpl, writable, dpl, present⟩]
    have dropped (q : SReg) (hq : q ∈ [SReg.ds, .es, .fs, .gs]) :
        drop (s.segs.get q) = (s.segs.get q).dropFor level :=
      (SegReg.dropFor_eq (segments q hq) level).symm
    have segs : ((s.segs.put .cs (d.asSeg psel)).put .ss (n.asSeg (nss items k))).dropFor level =
        { s.segs with
          cs := d.asSeg psel, ss := n.asSeg (nss items k)
          ds := drop s.segs.ds, es := drop s.segs.es, fs := drop s.segs.fs, gs := drop s.segs.gs } := by
      rw [show drop s.segs.ds = _ from dropped .ds (by decide), show drop s.segs.es = _ from dropped .es (by decide),
        show drop s.segs.fs = _ from dropped .fs (by decide), show drop s.segs.gs = _ from dropped .gs (by decide)]
      rfl
    unfold State.returnedOuter
    rw [segs]
  have sameCtl {items : Nat} {k : BitVec 32} (here : level = s.cpl) : (same items k).ctl = s.ctl := by
    have e : same items k = s.returnedSame d psel o _ := returnedSame_popped items here
    rw [e, State.returnedSame_ctl]
  have outerCtl {items : Nat} {k : BitVec 32} : (outer items k).ctl = s.ctl := by
    show ((s.marked d).marked n).ctl = _
    simp
  have ret {k : BitVec 16} {t : State} (pops : s.popsTimes w 2 = true)
      (h : returnProt w o psel 2 (k.setWidth 32) s = .ok () t) : finish (farReturn k) s = .next t :=
    finish_ok ((farReturn_prot prot k pops).trans h)
  have iret {t : State} (nt : s.flags.nt = false) (pops : s.popsTimes w 3 = true)
      (stays : s.os = .s16 ∨ fl.getLsbD 17 = false ∨ s.cpl ≠ 0#2) (ctl : t.ctl = s.ctl)
      (h : returnProt w o psel 3 0#32 s = .ok () t) : exec .iret s = .next (returned t) := by
    rw [iret_prot prot nt pops stays h, irFlags_prot prot, ctl]
    rfl
  refine ⟨jump, call, fun offReads selReads => ⟨?_, ?_⟩, fun pops ok right => ⟨fun here => ⟨?_, ?_⟩,
    fun above => ⟨fun out => ?_, fun out => ?_⟩⟩,
    fun nt pops ok right stays => ⟨fun here => ?_, fun above out => ?_⟩,
    fun nt os level0 pops vm => ?_⟩
  · rw [jmpMemFar_eq offReads selReads]
    exact jump
  · rw [callMemFar_eq offReads selReads]
    exact call
  · exact ret pops (inner ok right here)
  · exact ret pops (inner ok right here)
  · exact ret pops (outside ok right above out)
  · exact ret pops (outside ok right above out)
  · exact iret nt pops stays (sameCtl here) (inner ok right here)
  · exact iret nt pops stays outerCtl (outside ok right above out)
  · have image : fl = s.popVals .w32 2 := by
      show (s.popVals s.os.width 2).setWidth 32 = _
      rw [os]
      exact BitVec.setWidth_eq _
    have done := iret_v86 prot nt os level0 pops vm
    rw [← image] at vm done
    have flags : f86 = { Flags.ofWord fl with ac := (Flags.ofWord fl).ac && s.has486 } := (ofWord_v86 vm).symm
    rw [flags]
    exact done

end Sys2Proof.Machine
end

section
/-! Taking an interrupt or exception in protected mode (R612), stage by stage: the gate, the code descriptor, the stack
of an inner level, the frame. Each stage is named, and tied to the one before it. -/

namespace Sys2Proof.Machine

/-! Exceptions by name. -/

@[simp] theorem raiseTS_run {α : Type} (c : BitVec 16) (s : State) :
    (raiseTS c : M α) s = .error (.exc ⟨10#8, some c⟩) s := rfl
@[simp] theorem raiseNP_run {α : Type} (c : BitVec 16) (s : State) :
    (raiseNP c : M α) s = .error (.exc ⟨11#8, some c⟩) s := rfl
@[simp] theorem raiseSS_run {α : Type} (c : BitVec 16) (s : State) :
    (raiseSS c : M α) s = .error (.exc ⟨12#8, some c⟩) s := rfl
@[simp] theorem raiseGP_run {α : Type} (c : BitVec 16) (s : State) :
    (raiseGP c : M α) s = .error (.exc ⟨13#8, some c⟩) s := rfl

/-! What fails while an event is entered (R604). -/

/-- One of the exceptions that the tests of R612 raise. -/
def testVector (x : BitVec 8) : Prop := x = 10#8 ∨ x = 11#8 ∨ x = 12#8 ∨ x = 13#8

/-- The exception that follows one raised by a test of R612: the double fault, where R604 pairs the two. -/
theorem nextEvent_test (e : Event) {x : BitVec 8} (h : testVector x) (c : BitVec 16) (eip : BitVec 32) :
    nextEvent e ⟨x, some c⟩ eip =
      if e.isException = true ∧ e.vector ∈ [0#8, 10#8, 11#8, 12#8, 13#8, 14#8] then ⟨8#8, .abort, eip, some 0#16⟩
      else ⟨x, .fault, eip, some c⟩ := by
  have pairs : contributory x = true := by obtain rfl | rfl | rfl | rfl := h <;> decide
  have single : excEvent ⟨x, some c⟩ eip = ⟨x, .fault, eip, some c⟩ := by
    obtain rfl | rfl | rfl | rfl := h <;> rfl
  unfold nextEvent
  simp only [single, pairs, Bool.and_true, Bool.true_or]
  simp only [contributory, Bool.and_eq_true, Bool.or_eq_true, beq_iff_eq, List.mem_cons, List.not_mem_nil, or_false,
    or_assoc]

/-- A test of R612 that fails in the unchanged state: the double fault's delivery ends in shutdown, else the exception
is delivered and the event recurs (R604). -/
theorem deliver_test {e : Event} {s : State} {x : BitVec 8} {c : BitVec 16} (hx : testVector x)
    (h : enter e s = .error (.exc ⟨x, some c⟩) s) :
    deliver e s = if e.isException = true ∧ e.vector = 8#8 then .next s.toShutdown
      else deliverWithin 7 (if e.isException = true ∧ e.vector ∈ [0#8, 10#8, 11#8, 12#8, 13#8, 14#8] then
        ⟨8#8, .abort, s.eip, some 0#16⟩ else ⟨x, .fault, s.eip, some c⟩) (s.recurring e) := by
  rw [← nextEvent_test e hx]
  unfold deliver
  by_cases df : e.isException = true ∧ e.vector = 8#8
  · rw [if_pos df]
    unfold deliverWithin
    rw [h]
    simp only [df.1, df.2]
    rfl
  · rw [if_neg df, deliverWithin_exc h (by simpa using df)]
    rfl

theorem enter_error {e : Event} {s t : State} {x : Stop} (pe : s.sys.cr0.pe = true)
    (h : enterProt e s = .error x t) : enter e s = .error x t := by
  unfold enter
  simp only [M.bind_run, getS_run, pe, if_true, h]

/-- The bookkeeping at the end of an entry (R420, R117). -/
theorem enter_ok {e : Event} {s t : State} (pe : s.sys.cr0.pe = true) (h : enterProt e s = .ok () t) :
    enter e s = .ok () (((t.setStored []).setCur Cur.start).setCtl
      { t.ctl with activity := .running, shadow := .none, prevShadow := .none, dbPending := false }) := by
  unfold enter
  simp only [M.bind_run, getS_run, pe, if_true, h, flushQueue_run, updS_run]
  rfl

/-! Error codes. -/

theorem Event.ext_eq (e : Event) : e.ext = if e.kind == .software then 0#16 else 1#16 := by
  unfold Event.ext
  cases e.kind <;> rfl

/-- The low two bits of a selector in an error code are free for EXT. -/
theorem selExt_eq (sel : BitVec 16) (e : Event) : selExt sel e = (sel &&& 0xFFFC#16) + e.ext := by
  have low : (sel &&& 0xFFFC#16) &&& e.ext = 0#16 := by
    rw [e.ext_eq]
    apply BitVec.eq_of_getLsbD_eq
    intro i hi
    split <;> simp only [BitVec.getLsbD_and] <;> interval_cases i <;> simp
  rw [BitVec.add_eq_or_of_and_eq_zero _ _ low]
  rfl

theorem idtCode_eq (e : Event) : e.idtCode = BitVec.ofNat 16 (8 * e.vector.toNat + 2) + e.ext := by
  unfold Event.idtCode
  congr 1
  apply BitVec.eq_of_toNat_eq
  simp [BitVec.toNat_add, BitVec.toNat_mul]
  omega

/-- The image of the flags that is saved (R606). -/
theorem savedFlags_eq (s : State) (e : Event) :
    s.savedFlags e = { s.flags with rf := e.kind == EventKind.fault && (s.flags.rf || s.has386) }.word := by
  unfold State.savedFlags
  cases e.kind <;> rfl

/-! The stages of an entry (R612). -/

/-- From virtual-8086 mode the data segment registers are pushed and become null. -/
def pushData (r : SegRegs) : M Unit := do
  pushSel .w32 r.gs.sel
  pushSel .w32 r.fs.sel
  pushSel .w32 r.ds.sel
  pushSel .w32 r.es.sel
  updS (fun t => t.setSegs { t.segs with
    gs := t.segs.gs.toNull 0#16, fs := t.segs.fs.toNull 0#16
    ds := t.segs.ds.toNull 0#16, es := t.segs.es.toNull 0#16 })

/-- Past the tests on the stack of an inner level: the switch to it, and what is pushed there. -/
def enterLevel (s : State) (e : Event) (g : Gate) (d n : Desc) (nss : BitVec 16) (nsp : BitVec 32) (wide : Bool) :
    M Unit := do
  updFlags (fun f => { f with vm := false })
  updSys (fun y => { y with cpl := arDpl d.access })
  setAccessed n
  putSeg .ss (n.toSeg nss)
  updS (fun t => t.setGpr
    (if wide || (n.toSeg nss).db then regWrite t.gpr .w32 rSP nsp
      else regWrite t.gpr .w16 rSP (nsp.extractLsb' 0 16)))
  (if s.v86 then pushData s.segs else pure ())
  pushSel g.width s.segs.ss.sel
  push g.width (s.reg g.width rSP)
  pushFrame g.width s e
  loadCs d g.sel (arDpl d.access)
  updS (fun t => t.setEip g.off)

/-- With the descriptor of an inner level's stack: the tests on it. -/
def enterStack (s : State) (e : Event) (g : Gate) (d n : Desc) (nss : BitVec 16) (nsp : BitVec 32) (wide : Bool) :
    M Unit := do
  checkStackDesc nss n (arDpl d.access) (raiseTS (selExt nss e)) (raiseSS (selExt nss e))
  if !stackHolds (n.toSeg nss) (spTrunc (n.toSeg nss).db nsp) g.width.bytes
      (entryItems (if s.v86 then 9 else 5) e.code) then raiseSS 0#16
  else if d.limit.toNat < g.off.toNat then raiseGP 0#16
  else enterLevel s e g d n nss nsp wide

/-- With the stack pointer of an inner level: the selector of its stack. -/
def enterOn (s : State) (e : Event) (g : Gate) (d : Desc) (nss : BitVec 16) (nsp : BitVec 32) (wide : Bool) :
    M Unit := do
  if selNull nss then raiseTS (selExt nss e)
  else
    let n ← readDesc nss (raiseTS (selExt nss e))
    enterStack s e g d n nss nsp wide

/-- With the code descriptor of a gate: the tests on it. -/
def enterCode (s : State) (e : Event) (g : Gate) (d : Desc) : M Unit :=
  if arCode d.access = false ∨ s.cpl.toNat < (arDpl d.access).toNat then raiseGP (selExt g.sel e)
  else if !arPresent d.access then raiseNP (selExt g.sel e)
  else do
    (if arConforming d.access = false ∧ (arDpl d.access).toNat < s.cpl.toNat then enterInner e g d
      else enterSame e g d)
    updFlags (fun f => f.entered g.clearsIf)

/-- With the gate of a vector: the tests on it. -/
def enterGate (s : State) (e : Event) (g : Gate) : M Unit :=
  if !g.known s.has386 then raiseGP e.idtCode
  else if e.kind = .software ∧ (arDpl g.access).toNat < s.cpl.toNat then raiseGP e.idtCode
  else if !arPresent g.access then raiseNP e.idtCode
  else if arType g.access = 5 then refuse .taskGate
  else if selNull g.sel then raiseGP e.ext
  else do
    let d ← readDesc g.sel (raiseGP (selExt g.sel e))
    enterCode s e g d

/-- Where the entry of a vector stands (R611). -/
def State.gateAt (s : State) (v : BitVec 8) : BitVec 32 := s.sys.idtr.base + BitVec.ofNat 32 (v.toNat * 8)

/-- The gate of a vector. -/
def State.gate (s : State) (v : BitVec 8) : Gate :=
  Gate.ofWords (leVal 32 (s.bytesAt (s.gateAt v) 4)) (leVal 32 (s.bytesAt (s.gateAt v + 4#32) 4))

section
variable {s : State} {e : Event} {g : Gate} {d n : Desc} {nss : BitVec 16} {nsp : BitVec 32} {wide : Bool}

theorem enterProt_beyond (h : s.sys.idtr.limit.toNat < e.vector.toNat * 8 + 7) :
    enterProt e s = .error (.exc ⟨13#8, some e.idtCode⟩) s := by
  unfold enterProt
  simp only [M.bind_run, getS_run, if_pos h, raiseGP_run]

theorem enterProt_eq (within : e.vector.toNat * 8 + 7 ≤ s.sys.idtr.limit.toNat)
    (lo : s.plain (s.gateAt e.vector) 4 = true) (hi : s.plain (s.gateAt e.vector + 4#32) 4 = true) :
    enterProt e s = enterGate s e (s.gate e.vector) s := by
  have next : s.sys.idtr.base + BitVec.ofNat 32 (e.vector.toNat * 8 + 4) = s.gateAt e.vector + 4#32 := by
    rw [State.gateAt, BitVec.ofNat_add, BitVec.add_assoc]
  have first : s.sys.idtr.base + BitVec.ofNat 32 (e.vector.toNat * 8) = s.gateAt e.vector := rfl
  unfold enterProt
  simp only [M.bind_run, getS_run, if_neg (Nat.not_lt.2 within), first, next, sysRead_plain lo, sysRead_plain hi]
  rfl

theorem enterInner_eq (h : s.v86 = true → arDpl d.access = 0#2 ∧ g.width = .w32) : enterInner e g d s =
    (innerStack (arDpl d.access) e >>= fun x => enterOn s e g d x.1 x.2.1 x.2.2) s := by
  have level : (s.v86 && arDpl d.access != 0#2) = false := by
    cases v : s.v86 with
    | false => rfl
    | true => simp [(h v).1]
  have size : (s.v86 && g.width == .w16) = false := by
    cases v : s.v86 with
    | false => rfl
    | true => simp [(h v).2]
  unfold enterInner
  simp only [M.bind_run, getS_run, level, size, Bool.false_eq_true, if_false]
  rfl

end

end Sys2Proof.Machine
end

section
/-! What an entry that passes its tests does (R612): the stack of an inner level, the frame, CS and the flags. -/

namespace Sys2Proof.Machine

/-! Pushes of selectors, and of a frame. -/

section
variable (s : State) (w : Width) (sel : BitVec 16)

@[simp] theorem State.pushedSel_cfg : (s.pushedSel w sel).cfg = s.cfg := by cases w <;> simp [State.pushedSel]
@[simp] theorem State.pushedSel_segs : (s.pushedSel w sel).segs = s.segs := by cases w <;> simp [State.pushedSel]
@[simp] theorem State.pushedSel_flags : (s.pushedSel w sel).flags = s.flags := by cases w <;> simp [State.pushedSel]
@[simp] theorem State.pushedSel_sys : (s.pushedSel w sel).sys = s.sys := by cases w <;> simp [State.pushedSel]
@[simp] theorem State.pushedSel_ctl : (s.pushedSel w sel).ctl = s.ctl := by cases w <;> simp [State.pushedSel]

end

/-- The state after an error code, if there is one, is pushed (R602, R612). -/
def State.pushedCode (s : State) (w : Width) (c : Option (BitVec 16)) : State :=
  match c with
  | none => s
  | some v => s.pushed w (v.setWidth w.bits)

/-- The state after the frame of an entry is pushed. -/
def State.pushedFrame (s : State) (w : Width) (flags : BitVec 32) (cs : BitVec 16) (e : Event) : State :=
  (s.framed w flags cs e.ret).pushedCode w e.code

/-- The frame can be pushed. -/
def State.fitsFrame (s : State) (w : Width) (flags : BitVec 32) (cs : BitVec 16) (e : Event) : Prop :=
  s.frames w flags cs = true ∧ (e.code.isSome = true → (s.framed w flags cs e.ret).pushes w = true)

theorem pushFrame_ok {s u : State} {w : Width} {e : Event}
    (h : u.fitsFrame w (s.savedFlags e) s.segs.cs.sel e) :
    pushFrame w s e u = .ok () (u.pushedFrame w (s.savedFlags e) s.segs.cs.sel e) := by
  obtain ⟨frames, code⟩ := h
  simp only [State.frames, Bool.and_eq_true] at frames
  obtain ⟨⟨flags, cs⟩, ret⟩ := frames
  unfold pushFrame
  simp only [M.bind_run, push_ok _ flags, pushSel_ok _ cs, push_ok _ ret]
  unfold State.pushedFrame State.framed pushCode State.pushedCode
  cases hc : e.code with
  | none => rfl
  | some c => exact push_ok _ (code (by rw [hc]; rfl))

/-- What a frame changes: memory, the stack pointer and the draws. -/
theorem State.pushedFrame_keeps (s : State) (w : Width) (flags : BitVec 32) (cs : BitVec 16) (e : Event) :
    let t := s.pushedFrame w flags cs e
    t.cfg = s.cfg ∧ t.sys = s.sys ∧ t.flags = s.flags ∧ t.ctl = s.ctl := by
  unfold State.pushedFrame State.framed State.pushedCode
  cases e.code <;> simp

/-! The stack of an inner level. -/

/-- The state after the switch to the stack of an inner level (R612). -/
def State.switched (s : State) (level : BitVec 2) (n : Desc) (nss : BitVec 16) (nsp : BitVec 32) (wide : Bool) :
    State :=
  ((((s.setFlags { s.flags with vm := false }).marked n).setSys { s.sys with cpl := level }).setSegs
    (s.segs.put .ss (n.asSeg nss))).setGpr
      (if wide || n.db then regWrite s.gpr .w32 rSP nsp else regWrite s.gpr .w16 rSP (nsp.extractLsb' 0 16))

/-- The state after the four data segment registers of virtual-8086 mode are pushed and made null (R612). -/
def State.nulled (s : State) (r : SegRegs) : State :=
  let t := (((s.pushedSel .w32 r.gs.sel).pushedSel .w32 r.fs.sel).pushedSel .w32 r.ds.sel).pushedSel .w32 r.es.sel
  t.setSegs { t.segs with
    gs := t.segs.gs.toNull 0#16, fs := t.segs.fs.toNull 0#16, ds := t.segs.ds.toNull 0#16, es := t.segs.es.toNull 0#16 }

/-- These four pushes go through. -/
def State.pushesData (s : State) (r : SegRegs) : Prop :=
  let t1 := s.pushedSel .w32 r.gs.sel
  let t2 := t1.pushedSel .w32 r.fs.sel
  let t3 := t2.pushedSel .w32 r.ds.sel
  s.pushes .w32 = true ∧ t1.pushes .w32 = true ∧ t2.pushes .w32 = true ∧ t3.pushes .w32 = true

theorem pushData_ok {r : SegRegs} {u : State} (h : u.pushesData r) : pushData r u = .ok () (u.nulled r) := by
  obtain ⟨gs, fs, ds, es⟩ := h
  unfold pushData
  simp only [M.bind_run, pushSel_ok _ gs, pushSel_ok _ fs, pushSel_ok _ ds, pushSel_ok _ es, updS_run]
  rfl

/-- The state after what stood in SS and the stack pointer is pushed, from virtual-8086 mode with the data segment
registers. -/
def State.onInner (s u : State) (w : Width) : State :=
  ((if s.v86 then u.nulled s.segs else u).pushedSel w s.segs.ss.sel).pushed w (s.reg w rSP)

/-- An entry's state before the flags and the bookkeeping: CS and the offset of the gate. -/
def State.atGate (s : State) (g : Gate) (d : Desc) (level : BitVec 2) : State :=
  (s.intoCode d g.sel level).setEip g.off

/-- Neither the stack's switch nor what is pushed there changes the parameters, CR0 or the boundary's state. -/
theorem State.onInner_keeps (s : State) (w : Width) (level : BitVec 2) (n : Desc) (nss : BitVec 16) (nsp : BitVec 32)
    (wide : Bool) :
    let t := s.onInner (s.switched level n nss nsp wide) w
    t.cfg = s.cfg ∧ t.sys = { s.sys with cpl := level } ∧ t.flags = { s.flags with vm := false } ∧ t.ctl = s.ctl := by
  unfold State.onInner State.nulled State.switched
  split <;> simp

section
variable {s : State} {e : Event} {g : Gate} {d n : Desc} {nss : BitVec 16} {nsp : BitVec 32} {wide : Bool}

/-- What is pushed on the stack of an inner level fits there. -/
structure State.FitsInner (s : State) (e : Event) (g : Gate) (level : BitVec 2) (u : State) : Prop where
  data : s.v86 = true → u.pushesData s.segs
  ss : (if s.v86 then u.nulled s.segs else u).pushes g.width = true
  sp : ((if s.v86 then u.nulled s.segs else u).pushedSel g.width s.segs.ss.sel).pushes g.width = true
  frame : (s.onInner u g.width).fitsFrame g.width (s.savedFlags e) s.segs.cs.sel e

theorem enterLevel_ok (named : s.names g.sel d = true) (stack : s.names nss n = true)
    (fits : s.FitsInner e g (arDpl d.access) (s.switched (arDpl d.access) n nss nsp wide)) :
    enterLevel s e g d n nss nsp wide s = .ok () (((s.onInner (s.switched (arDpl d.access) n nss nsp wide)
      g.width).pushedFrame g.width (s.savedFlags e) s.segs.cs.sel e).atGate g d (arDpl d.access)) := by
  obtain ⟨data, ss, sp, frame⟩ := fits
  have mark := setAccessed_plain (s := (s.setFlags { s.flags with vm := false }).setSys
    { s.sys with cpl := arDpl d.access }) (State.plain_access_after stack rfl rfl)
  have switched : ((((s.setFlags { s.flags with vm := false }).setSys { s.sys with cpl := arDpl d.access }).marked
      n).setSegs (s.segs.put .ss (n.toSeg nss))).setGpr (if wide || (n.toSeg nss).db then regWrite s.gpr .w32 rSP nsp
        else regWrite s.gpr .w16 rSP (nsp.extractLsb' 0 16)) = s.switched (arDpl d.access) n nss nsp wide := by
    rw [State.marked_setSys]
    rfl
  have load (u : State) (h : u.cfg = s.cfg ∧ u.sys.cr0 = s.sys.cr0) :
      loadCs d g.sel (arDpl d.access) u = .ok () (u.intoCode d g.sel (arDpl d.access)) :=
    loadCs_ok _ _ (State.plain_access_after named h.1 h.2)
  have pushed (u : State) (data : s.v86 = true → u.pushesData s.segs) :
      (if s.v86 then pushData s.segs else pure ()) u = .ok () (if s.v86 then u.nulled s.segs else u) := by
    cases v : s.v86 with
    | false => rfl
    | true => exact pushData_ok (data v)
  unfold enterLevel
  simp only [M.bind_run, updFlags_run, updSys_run, State.setFlags_sys, mark, putSeg_run, updS_run, State.marked_segs,
    State.setSys_segs, State.setFlags_segs, State.setSegs_gpr, State.marked_gpr, State.setSys_gpr, State.setFlags_gpr,
    switched, pushed _ data, pushSel_ok _ ss, push_ok _ sp]
  have framed := pushFrame_ok frame
  obtain ⟨cfg, sys, -, -⟩ := s.onInner_keeps g.width (arDpl d.access) n nss nsp wide
  obtain ⟨cfg', sys', -, -⟩ := (s.onInner (s.switched (arDpl d.access) n nss nsp wide) g.width).pushedFrame_keeps
    g.width (s.savedFlags e) s.segs.cs.sel e
  have loaded := load _ ⟨cfg'.trans cfg, by rw [sys', sys]⟩
  simp only [State.onInner] at framed loaded ⊢
  simp only [framed, loaded]
  rfl

/-- Past its tests an entry to the same level pushes the frame and goes to the gate's offset. -/
theorem enterSame_ok (v86 : s.v86 = false) (named : s.names g.sel d = true)
    (room : s.holds g.width (entryItems 3 e.code) = true) (within : g.off.toNat ≤ d.limit.toNat)
    (fits : s.fitsFrame g.width (s.savedFlags e) s.segs.cs.sel e) :
    enterSame e g d s = .ok () ((s.pushedFrame g.width (s.savedFlags e) s.segs.cs.sel e).atGate g d s.cpl) := by
  obtain ⟨cfg, sys, -, -⟩ := s.pushedFrame_keeps g.width (s.savedFlags e) s.segs.cs.sel e
  have load := loadCs_ok g.sel s.cpl (State.plain_access_after named cfg (by rw [sys]))
  unfold enterSame
  simp only [M.bind_run, getS_run, v86, Bool.false_eq_true, if_false, requireRoom_ok room, if_neg (Nat.not_lt.2 within),
    pushFrame_ok fits, load, updS_run]
  rfl

end

/-! The stack pointer of an inner level in the task state segment (R612). -/

/-- TR holds an 80386 task state segment. -/
def State.tss32 (s : State) : Bool := arType s.sys.tr.access == 9 || arType s.sys.tr.access == 11

/-- Where the pointer of a level stands in the task state segment. -/
def State.stackSlot (s : State) (level : BitVec 2) : Nat := if s.tss32 then 4 + 8 * level.toNat else 2 + 4 * level.toNat

/-- TR holds no task state segment, or one too short for the pointer of a level. -/
def State.noStack (s : State) (level : BitVec 2) : Bool :=
  !s.sys.tr.usable || !(s.tss32 || arType s.sys.tr.access == 1 || arType s.sys.tr.access == 3) ||
    decide (s.sys.tr.limit.toNat < s.stackSlot level + (if s.tss32 then 5 else 3))

section
variable {s : State} {level : BitVec 2} {e : Event}

theorem State.tss32_iff (s : State) :
    s.tss32 = true ↔ arType s.sys.tr.access = 9 ∨ arType s.sys.tr.access = 11 := by
  simp [State.tss32]

theorem innerStack_none (h : s.noStack level = true) :
    innerStack level e s = .error (.exc ⟨10#8, some (selExt s.sys.tr.sel e)⟩) s := by
  unfold innerStack
  simp only [M.bind_run, getS_run]
  cases usable : s.sys.tr.usable with
  | false => rfl
  | true =>
    have wide := s.tss32_iff
    cases t32 : s.tss32 with
    | true =>
      have tss := wide.1 t32
      have other : ¬ (arType s.sys.tr.access = 1 ∨ arType s.sys.tr.access = 3) := by omega
      have short : s.sys.tr.limit.toNat < 4 + 8 * level.toNat + 5 := by
        simpa [State.noStack, State.stackSlot, usable, t32] using h
      simp only [Bool.not_true, Bool.false_eq_true, if_false, if_neg other, if_pos tss, if_pos short, raiseTS_run]
    | false =>
      have other : ¬ (arType s.sys.tr.access = 9 ∨ arType s.sys.tr.access = 11) := fun c => by simp [wide.2 c] at t32
      by_cases tss : arType s.sys.tr.access = 1 ∨ arType s.sys.tr.access = 3
      · have short : s.sys.tr.limit.toNat < 2 + 4 * level.toNat + 3 := by
          simp only [State.noStack, State.stackSlot, usable, t32, Bool.not_true, Bool.false_or, Bool.or_eq_true,
            Bool.not_eq_true', Bool.or_eq_false_iff, beq_eq_false_iff_ne, decide_eq_true_eq, Bool.false_eq_true,
            if_false] at h
          omega
        simp only [Bool.not_true, Bool.false_eq_true, if_false, if_pos tss, if_pos short, raiseTS_run]
      · simp only [Bool.not_true, Bool.false_eq_true, if_false, if_neg tss, if_neg other, raiseTS_run]

/-- Where the selector of a level's stack stands in the task state segment: after the pointer. -/
def State.stackSelSlot (s : State) (level : BitVec 2) : Nat := s.stackSlot level + (if s.tss32 then 4 else 2)

theorem innerStack_ok (h : s.noStack level = false)
    (sp : s.plain (s.sys.tr.base + BitVec.ofNat 32 (s.stackSlot level)) (if s.tss32 then 4 else 2) = true)
    (ss : s.plain (s.sys.tr.base + BitVec.ofNat 32 (s.stackSelSlot level)) 2 = true) :
    innerStack level e s = .ok
      (leVal 16 (s.bytesAt (s.sys.tr.base + BitVec.ofNat 32 (s.stackSelSlot level)) 2),
       leVal 32 (s.bytesAt (s.sys.tr.base + BitVec.ofNat 32 (s.stackSlot level)) (if s.tss32 then 4 else 2)),
       s.tss32) s := by
  have wide := s.tss32_iff
  unfold innerStack
  simp only [State.stackSelSlot, State.stackSlot] at sp ss ⊢
  simp only [M.bind_run, getS_run]
  cases t32 : s.tss32 with
  | true =>
    have tss := wide.1 t32
    have other : ¬ (arType s.sys.tr.access = 1 ∨ arType s.sys.tr.access = 3) := by omega
    simp only [State.noStack, State.stackSlot, t32, Bool.true_or, Bool.not_true, Bool.or_false, Bool.or_eq_false_iff,
      Bool.not_eq_false', if_true, decide_eq_false_iff_not] at h
    simp only [t32, if_true] at sp ss
    simp only [h.1, Bool.not_true, Bool.false_eq_true, if_false, if_neg other, if_pos tss, if_neg h.2, M.bind_run,
      sysRead_plain sp, sysRead_plain ss, M.pure_run, if_true]
  | false =>
    simp only [State.noStack, State.stackSlot, t32, Bool.false_or, Bool.or_eq_false_iff, Bool.not_eq_false',
      Bool.false_eq_true, if_false, decide_eq_false_iff_not, Bool.or_eq_true, beq_iff_eq] at h
    obtain ⟨⟨usable, tss⟩, long⟩ := h
    simp only [t32, Bool.false_eq_true, if_false] at sp ss
    simp only [usable, Bool.not_true, Bool.false_eq_true, if_false, if_pos tss, if_neg long, M.bind_run,
      sysRead_plain sp, sysRead_plain ss, M.pure_run]

end

/-! The outcome of an entry. -/

theorem State.atGate_flags (s : State) (g : Gate) (d : Desc) (level : BitVec 2) :
    (s.atGate g d level).flags = s.flags :=
  s.marked_flags d

theorem State.atGate_ctl (s : State) (g : Gate) (d : Desc) (level : BitVec 2) :
    (s.atGate g d level).ctl = s.ctl :=
  s.marked_ctl d

/-- The flags after an entry do not depend on whether VM was cleared before. -/
theorem entered_of_vm {f f' : Flags} (h : f = { f' with vm := f.vm }) (c : Bool) : f.entered c = f'.entered c := by
  rw [h]
  rfl

/-- The state after an entry from `s` whose pushes led to `u`: CS and the offset of the gate, the flags, and the
bookkeeping of the boundary (R612, R420, R117). -/
def State.entered (s : State) (g : Gate) (d : Desc) (u : State) (level : BitVec 2) : State :=
  ((((u.atGate g d level).setFlags (s.flags.entered g.clearsIf)).setStored []).setCur Cur.start).setCtl
    { s.ctl with activity := .running, shadow := .none, prevShadow := .none, dbPending := false }

theorem deliver_entered {s u : State} {e : Event} {g : Gate} {d : Desc} {level : BitVec 2} (pe : s.sys.cr0.pe = true)
    (hf : u.flags = { s.flags with vm := u.flags.vm }) (hc : u.ctl = s.ctl)
    (h : enterProt e s = .ok () ((u.atGate g d level).setFlags (u.flags.entered g.clearsIf))) :
    deliver e s = .next (s.entered g d u level) := by
  have taken := enter_ok pe h
  rw [State.setFlags_ctl, State.atGate_ctl, entered_of_vm hf, hc] at taken
  exact deliverWithin_ok taken

end Sys2Proof.Machine
end

section
/-! The tests of an entry in protected mode in their order (R612), and what each answers when it fails. -/

namespace Sys2Proof.Machine

section
variable {s : State} {e : Event} {g : Gate} {d n : Desc} {nss : BitVec 16} {nsp : BitVec 32} {wide : Bool}

/-! The gate. -/

section
variable (known : g.known s.has386 = true) (allowed : ¬ (e.kind = .software ∧ (arDpl g.access).toNat < s.cpl.toNat))
  (present : arPresent g.access = true)

theorem enterGate_unknown (h : g.known s.has386 = false) :
    enterGate s e g s = .error (.exc ⟨13#8, some e.idtCode⟩) s := by
  rw [enterGate, if_pos (by simp [h])]; rfl

include known in
theorem enterGate_level (h : e.kind = .software ∧ (arDpl g.access).toNat < s.cpl.toNat) :
    enterGate s e g s = .error (.exc ⟨13#8, some e.idtCode⟩) s := by
  rw [enterGate, if_neg (by simp [known]), if_pos h]; rfl

include known allowed in
theorem enterGate_absent (h : arPresent g.access = false) :
    enterGate s e g s = .error (.exc ⟨11#8, some e.idtCode⟩) s := by
  rw [enterGate, if_neg (by simp [known]), if_neg allowed, if_pos (by simp [h])]; rfl

include known allowed present

theorem enterGate_task (h : arType g.access = 5) : enterGate s e g s = .error (.refuse .taskGate) s := by
  rw [enterGate, if_neg (by simp [known]), if_neg allowed, if_neg (by simp [present]), if_pos h]; rfl

theorem enterGate_null (noTask : arType g.access ≠ 5) (h : selNull g.sel = true) :
    enterGate s e g s = .error (.exc ⟨13#8, some e.ext⟩) s := by
  rw [enterGate, if_neg (by simp [known]), if_neg allowed, if_neg (by simp [present]), if_neg noTask, if_pos h]; rfl

theorem enterGate_eq (noTask : arType g.access ≠ 5) (notNull : selNull g.sel = false) :
    enterGate s e g = readDesc g.sel (raiseGP (selExt g.sel e)) >>= fun d => enterCode s e g d := by
  rw [enterGate, if_neg (by simp [known]), if_neg allowed, if_neg (by simp [present]), if_neg noTask,
    if_neg (by simp [notNull])]

end

/-! The code descriptor. -/

theorem enterCode_wrong (h : arCode d.access = false ∨ s.cpl.toNat < (arDpl d.access).toNat) :
    enterCode s e g d s = .error (.exc ⟨13#8, some (selExt g.sel e)⟩) s := by
  rw [enterCode, if_pos h]; rfl

section
variable (right : ¬ (arCode d.access = false ∨ s.cpl.toNat < (arDpl d.access).toNat))
include right

theorem enterCode_absent (h : arPresent d.access = false) :
    enterCode s e g d s = .error (.exc ⟨11#8, some (selExt g.sel e)⟩) s := by
  rw [enterCode, if_neg right, if_pos (by simp [h])]; rfl

theorem enterCode_eq (present : arPresent d.access = true) : enterCode s e g d =
    (if arConforming d.access = false ∧ (arDpl d.access).toNat < s.cpl.toNat then enterInner e g d
      else enterSame e g d) >>= fun _ => updFlags (fun f => f.entered g.clearsIf) := by
  rw [enterCode, if_neg right, if_neg (by simp [present])]

end

/-! The same level. -/

theorem enterSame_v86 (h : s.v86 = true) :
    enterSame e g d s = .error (.exc ⟨13#8, some (selExt g.sel e)⟩) s := by
  unfold enterSame
  simp only [M.bind_run, getS_run, h, if_true, raiseGP_run]

theorem enterSame_full (v86 : s.v86 = false) (h : s.holds g.width (entryItems 3 e.code) = false) :
    enterSame e g d s = .error (.exc ⟨12#8, some 0#16⟩) s := by
  have room : requireRoom g.width (entryItems 3 e.code) s = .error (.exc ⟨12#8, some 0#16⟩) s := by
    unfold State.holds at h
    simp [requireRoom, h]
  unfold enterSame
  simp only [M.bind_run, getS_run, v86, Bool.false_eq_true, if_false, room]

theorem enterSame_beyond (v86 : s.v86 = false) (room : s.holds g.width (entryItems 3 e.code) = true)
    (h : d.limit.toNat < g.off.toNat) : enterSame e g d s = .error (.exc ⟨13#8, some 0#16⟩) s := by
  unfold enterSame
  simp only [M.bind_run, getS_run, v86, Bool.false_eq_true, if_false, requireRoom_ok room, if_pos h, raiseGP_run]

/-! An inner level. -/

theorem enterInner_v86_level (v86 : s.v86 = true) (h : arDpl d.access ≠ 0#2) :
    enterInner e g d s = .error (.exc ⟨13#8, some (selExt g.sel e)⟩) s := by
  have level : (s.v86 && arDpl d.access != 0#2) = true := by simp [v86, h]
  unfold enterInner
  simp only [M.bind_run, getS_run, level, if_true, raiseGP_run]

theorem enterInner_v86_16 (v86 : s.v86 = true) (level : arDpl d.access = 0#2) (h : g.width = .w16) :
    enterInner e g d s = .error (.refuse .gate16FromV86) s := by
  have outer : (s.v86 && arDpl d.access != 0#2) = false := by simp [level]
  have size : (s.v86 && g.width == .w16) = true := by simp [v86, h]
  unfold enterInner
  simp only [M.bind_run, getS_run, outer, size, Bool.false_eq_true, if_false, if_true, refuse_run]

theorem enterOn_null (h : selNull nss = true) :
    enterOn s e g d nss nsp wide s = .error (.exc ⟨10#8, some (selExt nss e)⟩) s := by
  rw [enterOn, if_pos h]; rfl

theorem enterOn_beyond (notNull : selNull nss = false) (h : s.descAddr nss = none) :
    enterOn s e g d nss nsp wide s = .error (.exc ⟨10#8, some (selExt nss e)⟩) s := by
  rw [enterOn, if_neg (by simp [notNull])]
  simp only [M.bind_run, readDesc_beyond _ h, raiseTS_run]

theorem enterOn_eq (h : s.names nss n = true) :
    enterOn s e g d nss nsp wide s = enterStack s e g d n nss nsp wide s := by
  rw [enterOn, if_neg (by simp [State.not_null_of_names h])]
  simp only [M.bind_run, readDesc_names _ h]

theorem enterStack_wrong
    (h : selRpl nss ≠ arDpl d.access ∨ arWritable n.access = false ∨ arDpl n.access ≠ arDpl d.access) :
    enterStack s e g d n nss nsp wide s = .error (.exc ⟨10#8, some (selExt nss e)⟩) s := by
  unfold enterStack checkStackDesc
  simp only [M.bind_run, if_pos h, raiseTS_run]

section
variable (right : ¬ (selRpl nss ≠ arDpl d.access ∨ arWritable n.access = false ∨ arDpl n.access ≠ arDpl d.access))
include right

theorem enterStack_absent (h : arPresent n.access = false) :
    enterStack s e g d n nss nsp wide s = .error (.exc ⟨12#8, some (selExt nss e)⟩) s := by
  unfold enterStack checkStackDesc
  simp only [M.bind_run, if_neg right, if_pos h, raiseSS_run]

variable (present : arPresent n.access = true)
include present

theorem checkStackDesc_passes (wrong absent : M Unit) :
    checkStackDesc nss n (arDpl d.access) wrong absent = pure () := by
  rw [checkStackDesc, if_neg right, if_neg (by simp [present])]

theorem enterStack_full (h : stackHolds (n.toSeg nss) (spTrunc (n.toSeg nss).db nsp) g.width.bytes
      (entryItems (if s.v86 then 9 else 5) e.code) = false) :
    enterStack s e g d n nss nsp wide s = .error (.exc ⟨12#8, some 0#16⟩) s := by
  unfold enterStack
  simp only [M.bind_run, checkStackDesc_passes right present, M.pure_run, h, Bool.not_false, if_true, raiseSS_run]

variable (room : stackHolds (n.toSeg nss) (spTrunc (n.toSeg nss).db nsp) g.width.bytes
      (entryItems (if s.v86 then 9 else 5) e.code) = true)
include room

theorem enterStack_beyond (h : d.limit.toNat < g.off.toNat) :
    enterStack s e g d n nss nsp wide s = .error (.exc ⟨13#8, some 0#16⟩) s := by
  unfold enterStack
  simp only [M.bind_run, checkStackDesc_passes right present, M.pure_run, room, Bool.not_true, Bool.false_eq_true,
    if_false, if_pos h, raiseGP_run]

theorem enterStack_eq (within : ¬ d.limit.toNat < g.off.toNat) :
    enterStack s e g d n nss nsp wide s = enterLevel s e g d n nss nsp wide s := by
  unfold enterStack
  simp only [M.bind_run, checkStackDesc_passes right present, M.pure_run, room, Bool.not_true, Bool.false_eq_true,
    if_false, if_neg within]

end
end

end Sys2Proof.Machine
end

section
/-! Taking an interrupt or exception in protected mode and from virtual-8086 mode, assembled from the stages of the
entry. -/

namespace Sys2Proof.Machine

/-! What an entry answers, said of its outcome as `Obligations.ProtectedEntry` does, in the model's own names. -/

/-- The delivery of an event answers an exception raised by a test of R612: shutdown while the double fault is
delivered, else the delivery of what follows (R604). -/
def Event.fails (e : Event) (s : State) (x : BitVec 8) (c : BitVec 16) : Prop :=
  deliver e s = if e.isException = true ∧ e.vector = 8#8 then .next s.toShutdown
    else deliverWithin 7 (if e.isException = true ∧ e.vector ∈ [0#8, 10#8, 11#8, 12#8, 13#8, 14#8] then
      ⟨8#8, .abort, s.eip, some 0#16⟩ else ⟨x, .fault, s.eip, some c⟩) (s.recurring e)

/-- What an entry to the same level answers (R612). -/
def Event.entersSame (e : Event) (s : State) (g : Gate) (d : Desc) : Prop :=
  if s.v86 then e.fails s 13#8 (selExt g.sel e)
  else if s.holds g.width (entryItems 3 e.code) = false then e.fails s 12#8 0#16
  else if d.limit.toNat < g.off.toNat then e.fails s 13#8 0#16
  else s.fitsFrame g.width (s.savedFlags e) s.segs.cs.sel e →
    deliver e s = .next (s.entered g d (s.pushedFrame g.width (s.savedFlags e) s.segs.cs.sel e) s.cpl)

/-- What an entry to an inner level answers once its stack's selector and pointer are read (R612). -/
def Event.entersOn (e : Event) (s : State) (g : Gate) (d n : Desc) (nss : BitVec 16) (nsp : BitVec 32) (wide : Bool) :
    Prop :=
  if selNull nss then e.fails s 10#8 (selExt nss e)
  else (s.descAddr nss = none → e.fails s 10#8 (selExt nss e)) ∧ (s.names nss n = true →
    if selRpl nss ≠ arDpl d.access ∨ arWritable n.access = false ∨ arDpl n.access ≠ arDpl d.access then
      e.fails s 10#8 (selExt nss e)
    else if arPresent n.access = false then e.fails s 12#8 (selExt nss e)
    else if stackHolds (n.asSeg nss) (if n.db then nsp else nsp &&& 0xFFFF#32) g.width.bytes
        (entryItems (if s.v86 then 9 else 5) e.code) = false then e.fails s 12#8 0#16
    else if d.limit.toNat < g.off.toNat then e.fails s 13#8 0#16
    else
      let u := s.switched (arDpl d.access) n nss nsp wide
      (s.v86 = true → u.pushesData s.segs) →
      (if s.v86 then u.nulled s.segs else u).pushes g.width = true →
      ((if s.v86 then u.nulled s.segs else u).pushedSel g.width s.segs.ss.sel).pushes g.width = true →
      (s.onInner u g.width).fitsFrame g.width (s.savedFlags e) s.segs.cs.sel e →
      deliver e s = .next (s.entered g d
        ((s.onInner u g.width).pushedFrame g.width (s.savedFlags e) s.segs.cs.sel e) (arDpl d.access)))

/-- What an entry to an inner level answers (R612). -/
def Event.entersInner (e : Event) (s : State) (g : Gate) (d n : Desc) : Prop :=
  let level := arDpl d.access
  let spAt := s.sys.tr.base + BitVec.ofNat 32 (s.stackSlot level)
  let ssAt := s.sys.tr.base + BitVec.ofNat 32 (s.stackSelSlot level)
  if s.v86 = true ∧ level ≠ 0#2 then e.fails s 13#8 (selExt g.sel e)
  else if s.v86 = true ∧ (arType g.access == 14 || arType g.access == 15) = false then
    deliver e s = .refused .gate16FromV86
  else if s.noStack level then e.fails s 10#8 (selExt s.sys.tr.sel e)
  else s.plain spAt (if s.tss32 then 4 else 2) = true → s.plain ssAt 2 = true →
    e.entersOn s g d n (leVal 16 (s.bytesAt ssAt 2)) (leVal 32 (s.bytesAt spAt (if s.tss32 then 4 else 2))) s.tss32

/-- What an entry answers once the code descriptor of its gate is read (R612). -/
def Event.entersCode (e : Event) (s : State) (g : Gate) (d n : Desc) : Prop :=
  if arCode d.access = false ∨ s.cpl.toNat < (arDpl d.access).toNat then e.fails s 13#8 (selExt g.sel e)
  else if arPresent d.access = false then e.fails s 11#8 (selExt g.sel e)
  else if arConforming d.access = false ∧ (arDpl d.access).toNat < s.cpl.toNat then e.entersInner s g d n
  else e.entersSame s g d

/-- What an entry answers once its gate is read (R612). -/
def Event.entersGate (e : Event) (s : State) (g : Gate) (d n : Desc) : Prop :=
  if g.known s.has386 = false then e.fails s 13#8 e.idtCode
  else if (e.kind == .software) = true ∧ (arDpl g.access).toNat < s.cpl.toNat then e.fails s 13#8 e.idtCode
  else if arPresent g.access = false then e.fails s 11#8 e.idtCode
  else if arType g.access = 5 then deliver e s = .refused .taskGate
  else if selNull g.sel then e.fails s 13#8 e.ext
  else (s.descAddr g.sel = none → e.fails s 13#8 (selExt g.sel e)) ∧
    (s.names g.sel d = true → e.entersCode s g d n)

theorem entryItems_eq (k : Nat) (c : Option (BitVec 16)) : entryItems k c = if c.isSome then k + 1 else k := by
  cases c <;> rfl

theorem spTrunc_eq (wide : Bool) (v : BitVec 32) : spTrunc wide v = if wide then v else v &&& 0xFFFF#32 := by
  unfold spTrunc
  congr 1
  apply BitVec.eq_of_toNat_eq
  simp [BitVec.toNat_and, Nat.and_two_pow_sub_one_eq_mod _ 16]
  omega

/-- IF is cleared through an interrupt gate, of type 14 or 6. -/
theorem entered_eq (f : Flags) (g : Gate) : f.entered g.clearsIf = { f with
    tf := false, nt := false, rf := false, vm := false
    ie := f.ie && arType g.access != 14 && arType g.access != 6 } := by
  have ie : (f.ie && !g.clearsIf) = (f.ie && arType g.access != 14 && arType g.access != 6) := by
    rw [Gate.clearsIf, Bool.not_or, Bool.and_comm (!_), Bool.and_assoc]
    rfl
  unfold Flags.entered
  rw [ie]

theorem Gate.width_eq_w16 {g : Gate} (h : (arType g.access == 14 || arType g.access == 15) = false) : g.width = .w16 :=
  if_neg (by simp [h])

theorem Gate.width_eq_w32 {g : Gate} (h : (arType g.access == 14 || arType g.access == 15) ≠ false) : g.width = .w32 :=
  if_pos (eq_true_of_ne_false h)

section
variable {s : State} {e : Event} {g : Gate} {d n : Desc} {nss : BitVec 16} {nsp : BitVec 32} {wide : Bool}

/-- The change of the flags is not reached after a stage that stops. -/
theorem bind_error {m : M Unit} {x : Stop} {k : Unit → M Unit} (h : m s = .error x s) : (m >>= k) s = .error x s := by
  rw [M.bind_run, h]

theorem bind_atGate {m : M Unit} {u : State} {level : BitVec 2} (h : m s = .ok () (u.atGate g d level)) :
    (m >>= fun _ => updFlags fun f => f.entered g.clearsIf) s =
      .ok () ((u.atGate g d level).setFlags (u.flags.entered g.clearsIf)) := by
  simp only [M.bind_run, h, updFlags_run, State.atGate_flags]

variable (pe : s.sys.cr0.pe = true)
include pe

theorem fails_of {x : BitVec 8} {c : BitVec 16} (h : enterProt e s = .error (.exc ⟨x, some c⟩) s)
    (hx : testVector x := by simp [testVector]) : e.fails s x c :=
  deliver_test hx (enter_error pe h)

theorem deliver_refused {r : Refusal} (h : enterProt e s = .error (.refuse r) s) : deliver e s = .refused r := by
  unfold deliver deliverWithin
  rw [enter_error pe h]

section
variable (named : s.names g.sel d = true)
include named

theorem entersSame_of (h : enterProt e s = (enterSame e g d >>= fun _ => updFlags fun f => f.entered g.clearsIf) s) :
    e.entersSame s g d := by
  unfold Event.entersSame
  split
  · next virtual => exact fails_of pe (h.trans (bind_error (enterSame_v86 virtual)))
  next plain =>
  rw [Bool.not_eq_true] at plain
  split
  · next full => exact fails_of pe (h.trans (bind_error (enterSame_full plain full)))
  next space =>
  rw [Bool.not_eq_false] at space
  split
  · next beyond => exact fails_of pe (h.trans (bind_error (enterSame_beyond plain space beyond)))
  next within =>
  intro fit
  obtain ⟨-, -, flags, ctl⟩ := s.pushedFrame_keeps g.width (s.savedFlags e) s.segs.cs.sel e
  exact deliver_entered pe (by rw [flags]) ctl
    (h.trans (bind_atGate (enterSame_ok plain named space (Nat.not_lt.1 within) fit)))

theorem entersOn_of (h : enterProt e s =
    (enterOn s e g d nss nsp wide >>= fun _ => updFlags fun f => f.entered g.clearsIf) s) :
    e.entersOn s g d n nss nsp wide := by
  unfold Event.entersOn
  split
  · next null => exact fails_of pe (h.trans (bind_error (enterOn_null null)))
  next notNull =>
  rw [Bool.not_eq_true] at notNull
  refine ⟨fun beyond => fails_of pe (h.trans (bind_error (enterOn_beyond notNull beyond))), fun stack => ?_⟩
  rw [M.bind_run, enterOn_eq stack, ← M.bind_run] at h
  rw [← spTrunc_eq]
  split
  · next wrong => exact fails_of pe (h.trans (bind_error (enterStack_wrong wrong)))
  next right =>
  split
  · next absent => exact fails_of pe (h.trans (bind_error (enterStack_absent right absent)))
  next present =>
  rw [Bool.not_eq_false] at present
  by_cases full : stackHolds (n.asSeg nss) (spTrunc n.db nsp) g.width.bytes
      (entryItems (if s.v86 then 9 else 5) e.code) = false
  · rw [if_pos full]
    exact fails_of pe (h.trans (bind_error (enterStack_full right present full)))
  rw [if_neg full]
  rw [Bool.not_eq_false] at full
  split
  · next beyond => exact fails_of pe (h.trans (bind_error (enterStack_beyond right present full beyond)))
  next within =>
  rw [M.bind_run, enterStack_eq right present full within, ← M.bind_run] at h
  intro u data ss sp frame
  obtain ⟨-, -, flags, ctl⟩ := s.onInner_keeps g.width (arDpl d.access) n nss nsp wide
  obtain ⟨-, -, flags', ctl'⟩ := (s.onInner u g.width).pushedFrame_keeps g.width (s.savedFlags e) s.segs.cs.sel e
  exact deliver_entered pe (by rw [flags', flags]) (ctl'.trans ctl)
    (h.trans (bind_atGate (enterLevel_ok named stack ⟨data, ss, sp, frame⟩)))

theorem entersInner_of (h : enterProt e s = (enterInner e g d >>= fun _ => updFlags fun f => f.entered g.clearsIf) s) :
    e.entersInner s g d n := by
  unfold Event.entersInner
  intro level spAt ssAt
  split
  · next outer => exact fails_of pe (h.trans (bind_error (enterInner_v86_level outer.1 outer.2)))
  next inner =>
  have level0 (virtual : s.v86 = true) : arDpl d.access = 0#2 := by_contra fun c => inner ⟨virtual, c⟩
  split
  · next short =>
    exact deliver_refused pe
      (h.trans (bind_error (enterInner_v86_16 short.1 (level0 short.1) (Gate.width_eq_w16 short.2))))
  next long =>
  have start := enterInner_eq (e := e) (s := s) fun virtual =>
    ⟨level0 virtual, Gate.width_eq_w32 fun c => long ⟨virtual, c⟩⟩
  split
  · next none =>
    exact fails_of pe (h.trans (bind_error (start.trans (by rw [M.bind_run, innerStack_none none]))))
  next stack =>
  rw [Bool.not_eq_true] at stack
  intro spPlain ssPlain
  apply entersOn_of pe named
  rw [h, M.bind_run, start, M.bind_run, innerStack_ok stack spPlain ssPlain, M.bind_run]

theorem entersCode_of (h : enterProt e s = enterCode s e g d s) : e.entersCode s g d n := by
  unfold Event.entersCode
  split
  · next wrong => exact fails_of pe (h.trans (enterCode_wrong wrong))
  next right =>
  split
  · next absent => exact fails_of pe (h.trans (enterCode_absent right absent))
  next present =>
  rw [Bool.not_eq_false] at present
  rw [enterCode_eq right present] at h
  split
  · next outer =>
    rw [if_pos outer] at h
    exact entersInner_of pe named h
  · next outer =>
    rw [if_neg outer] at h
    exact entersSame_of pe named h

end

theorem entersGate_of (h : enterProt e s = enterGate s e g s) : e.entersGate s g d n := by
  unfold Event.entersGate
  split
  · next unknown => exact fails_of pe (h.trans (enterGate_unknown unknown))
  next known =>
  rw [Bool.not_eq_false] at known
  split
  · next outer => exact fails_of pe (h.trans (enterGate_level known ⟨by simpa using outer.1, outer.2⟩))
  next inner =>
  have allowed : ¬ (e.kind = .software ∧ (arDpl g.access).toNat < s.cpl.toNat) := fun c => inner ⟨by simp [c.1], c.2⟩
  split
  · next absent => exact fails_of pe (h.trans (enterGate_absent known allowed absent))
  next present =>
  rw [Bool.not_eq_false] at present
  split
  · next task => exact deliver_refused pe (h.trans (enterGate_task known allowed present task))
  next noTask =>
  split
  · next null => exact fails_of pe (h.trans (enterGate_null known allowed present noTask null))
  next notNull =>
  rw [Bool.not_eq_true] at notNull
  rw [enterGate_eq known allowed present noTask notNull, M.bind_run] at h
  refine ⟨fun beyond => fails_of pe (h.trans (by rw [readDesc_beyond _ beyond]; rfl)), fun named => ?_⟩
  rw [readDesc_names _ named] at h
  exact entersCode_of pe named h

end

/-- INT n, INT 3 and a taken INTO deliver their vector (R409 to R411). -/
theorem exec_software {s : State} {i : Instr} {v : BitVec 8} (h : (i = .intN v ∧ (s.v86 = false ∨ s.flags.iopl = 3#2)) ∨
    (i = .int3 ∧ v = 3#8) ∨ (i = .into ∧ v = 4#8 ∧ s.flags.ovf = true)) :
    exec i s = deliver ⟨v, .software, s.nextIP, none⟩ s := by
  obtain ⟨rfl, allowed⟩ | ⟨rfl, rfl⟩ | ⟨rfl, rfl, overflow⟩ := h
  · have denied : ¬ (s.v86 && s.flags.iopl != 3#2) = true := by
      simpa [or_iff_not_imp_left] using allowed
    exact if_neg denied
  · rfl
  · exact if_pos overflow

/-- Settles O51: the tests of R612 one by one, then the frame. -/
theorem protectedEntry : Obligations.ProtectedEntry := by
  intro s e i d n v o software exception ext idt code second fails a lo hi gate wide known w sel off flags level coded
    room framed fits entered tr t32 slot noStack spAt ssAt nsp nss n1 n2 g1 g2 g3 g4 null v86 n2' n3 n4 inner same pe
  obtain ⟨g, read, hknown, haccess, hsel, hoff, hw⟩ : ∃ g : Gate,
      (v.toNat * 8 + 7 ≤ s.sys.idtr.limit.toNat → s.plain a 4 = true → s.plain (a + 4#32) 4 = true →
        enterProt e s = enterGate s e g s) ∧
      known = g.known s.has386 ∧ gate = g.access ∧ sel = g.sel ∧ off = g.off ∧ w = g.width :=
    ⟨s.gate v, enterProt_eq, rfl, rfl, rfl, rfl, rfl⟩
  have hwide : wide = (arType g.access == 14 || arType g.access == 15) := by rw [← haccess]
  have hext : ext = e.ext := e.ext_eq.symm
  have hidt : idt = e.idtCode := by rw [idtCode_eq, ← hext]
  have hcode : code = fun sel => selExt sel e := funext fun sel => by rw [selExt_eq, ← hext]
  have hflags : flags = s.savedFlags e := (savedFlags_eq s e).symm
  have hroom : room = fun k => entryItems k e.code := funext fun k => (entryItems_eq k e.code).symm
  have hentered : entered = s.entered g d := by
    funext u level
    simp only [entered, State.entered, entered_eq, State.marked_segs, hsel, hoff, haccess]
    rfl
  clear_value entered idt code ext flags room known sel off w wide
  clear_value gate
  subst hidt hcode hext hflags hroom hentered hknown hwide hsel hoff hw haccess
  refine ⟨fun instr event => ?_, fun short => fails_of pe (enterProt_beyond short), fun within loPlain hiPlain => ?_⟩
  · rw [exec_software instr, ← event]
  · exact entersGate_of pe (read within loPlain hiPlain)

end Sys2Proof.Machine
end

section
/-! What the decoder reads back: given the bytes of a value, a parser answers the value and leaves what follows them.
One rule for each way of building a parser, then the fields of an encoding (R140 to R158). -/

namespace Sys2Proof

variable {α β : Type}

/-- Whatever follows the bytes `bs`, the parser `p` takes them, and nothing behind them, for the value `a`. -/
def Parse.Reads (p : Parse α) (bs : List Byte) (a : α) : Prop := ∀ rest : List Byte, p (bs ++ rest) = .ok a rest

namespace Parse.Reads

/-! The ways of building a parser. -/

theorem pure (a : α) : Reads (pure a) [] a := fun _ => rfl

theorem bind {p : Parse α} {f : α → Parse β} {bs cs : List Byte} {a : α} {b : β} (hp : Reads p bs a)
    (hf : Reads (f a) cs b) : Reads (p >>= f) (bs ++ cs) b := by
  intro rest
  change EStateM.bind p f _ = _
  rw [List.append_assoc, EStateM.bind, hp]
  exact hf rest

/-- What stands after the last byte only builds the answer. -/
theorem yield {p : Parse α} {f : α → Parse β} {bs : List Byte} {a : α} {b : β} (hp : Reads p bs a)
    (hf : Reads (f a) [] b) : Reads (p >>= f) bs b := by
  simpa using hp.bind hf

theorem map {p : Parse α} {bs : List Byte} {a : α} (f : α → β) (hp : Reads p bs a) : Reads (f <$> p) bs (f a) :=
  hp.yield (pure _)

theorem pure_of {a b : α} (h : a = b) : Reads (Pure.pure a) [] b := h ▸ pure a

theorem ite_pos {k : Prop} [Decidable k] {p q : Parse α} {bs : List Byte} {a : α} (h : k) (hp : Reads p bs a) :
    Reads (if k then p else q) bs a := by
  rwa [if_pos h]

theorem ite_neg {k : Prop} [Decidable k] {p q : Parse α} {bs : List Byte} {a : α} (h : ¬ k) (hq : Reads q bs a) :
    Reads (if k then p else q) bs a := by
  rwa [if_neg h]

theorem since386 {c : Ctx} {p : Parse Instr} {bs : List Byte} {i : Instr} (h : c.has386 = true) (hp : Reads p bs i) :
    Reads (since386 c p) bs i := ite_pos h hp

theorem since486 {c : Ctx} {p : Parse Instr} {bs : List Byte} {i : Instr} (h : c.has486 = true) (hp : Reads p bs i) :
    Reads (since486 c p) bs i := ite_pos h hp

/-! Data (R131, R158). -/

theorem nextByte (b : Byte) : Reads nextByte [b] b := fun _ => rfl

/-- A parser that begins with a byte goes on as that byte says. -/
theorem byte {f : Byte → Parse β} {b : Byte} {bs : List Byte} {a : β} (h : Reads (f b) bs a) :
    Reads (Sys2Proof.nextByte >>= f) (b :: bs) a := (nextByte b).bind h

theorem nextWord (v : BitVec 16) : Reads nextWord (encWord v) v := by
  have halves : v.extractLsb' 8 8 ++ v.extractLsb' 0 8 = v :=
    (BitVec.extractLsb'_append_extractLsb'_eq_extractLsb' rfl).trans BitVec.extractLsb'_eq_self
  have h : Reads Sys2Proof.nextWord (encWord v) (v.extractLsb' 8 8 ++ v.extractLsb' 0 8) :=
    (nextByte _).bind ((nextByte _).yield (pure _))
  rwa [halves] at h

theorem nextDword (v : BitVec 32) : Reads nextDword (encDword v) v := by
  have h : Reads Sys2Proof.nextDword (encDword v) (v.extractLsb' 16 16 ++ v.extractLsb' 0 16) :=
    (nextWord _).bind ((nextWord _).yield (pure _))
  rwa [Machine.bv_halves] at h

theorem parseImm {os : Size} {w : Bool} {imm : Imm} (h : immOk os w imm = true) :
    Reads (parseImm os w) (encImm imm) imm := by
  cases imm with
  | i8 v =>
    obtain rfl : w = false := by simpa [immOk] using h
    exact (nextByte v).map Imm.i8
  | i16 v =>
    obtain ⟨rfl, rfl⟩ : w = true ∧ os = .s16 := by simpa [immOk] using h
    exact (nextWord v).map Imm.i16
  | i32 v =>
    obtain ⟨rfl, rfl⟩ : w = true ∧ os = .s32 := by simpa [immOk] using h
    exact (nextDword v).map Imm.i32

theorem parseOff {sz : Size} {off : Off} (h : offOk sz off = true) : Reads (parseOff sz) (encOff off) off := by
  cases off with
  | o16 v =>
    obtain rfl : sz = .s16 := by simpa [offOk] using h
    exact (nextWord v).map Off.o16
  | o32 v =>
    obtain rfl : sz = .s32 := by simpa [offOk] using h
    exact (nextDword v).map Off.o32

/-! Operands (R140 to R145). -/

theorem parseDisp16 {d : Disp} (h : disp16Ok d = true) : Reads (parseDisp16 (dispMod d)) (encDisp d) d := by
  cases d with
  | none => exact pure _
  | d8 v => exact (nextByte v).map Disp.d8
  | d16 v => exact (nextWord v).map Disp.d16
  | d32 v => cases h

theorem parseDisp32 {d : Disp} (h : disp32Ok d = true) : Reads (parseDisp32 (dispMod d)) (encDisp d) d := by
  cases d with
  | none => exact pure _
  | d8 v => exact (nextByte v).map Disp.d8
  | d16 v => cases h
  | d32 v => exact (nextDword v).map Disp.d32

end Parse.Reads

/-- The fields of a byte of two, three and three bits: mod, the middle field and r/m (R140), or ss, index and base
(R144). -/
theorem fields_append (md : BitVec 2) (mid rm : BitVec 3) :
    (md ++ mid ++ rm).extractLsb' 6 2 = md ∧ (md ++ mid ++ rm).extractLsb' 3 3 = mid ∧
      (md ++ mid ++ rm).extractLsb' 0 3 = rm := by
  refine ⟨?_, ?_, BitVec.extractLsb'_append_eq_right⟩
  · rw [BitVec.extractLsb'_append_eq_of_le (by decide)]; exact BitVec.extractLsb'_append_eq_left
  · rw [BitVec.extractLsb'_append_eq_of_le (by decide)]; exact BitVec.extractLsb'_append_eq_right

/-- The mod field of a displacement is 00 exactly when there is none, and never 11 (R142, R143). -/
theorem dispMod_eq_zero (d : Disp) : dispMod d = 0#2 ↔ d = .none := by cases d <;> simp [dispMod]

theorem dispMod_ne_three (d : Disp) : dispMod d ≠ 3#2 := by cases d <;> simp [dispMod]

namespace Parse.Reads

theorem parseSib {ss : BitVec 2} {index base : BitVec 3} {d : Disp} (hd : disp32Ok d = true)
    (based : ¬ (base = 5#3 ∧ d = .none)) :
    Reads (parseSib (dispMod d)) ((ss ++ index ++ base) :: encDisp d) (.sib ss index base d) := by
  obtain ⟨hss, hindex, hbase⟩ := fields_append ss index base
  refine byte ?_
  rw [hss, hindex, hbase, if_neg (by rwa [dispMod_eq_zero])]
  exact (parseDisp32 hd).map _

theorem parseSib_noBase (ss : BitVec 2) (index : BitVec 3) (d : BitVec 32) :
    Reads (Sys2Proof.parseSib 0#2) ((ss ++ index ++ 5#3) :: encDword d) (MemOp.sibNoBase ss index d) := by
  obtain ⟨hss, hindex, hbase⟩ := fields_append ss index 5#3
  refine byte ?_
  rw [hss, hindex, hbase, if_pos ⟨rfl, rfl⟩]
  exact (nextDword d).map _

/-- The mod r/m byte of a memory operand, and what follows it. -/
theorem parseModRM_byte {c : Ctx} {md : BitVec 2} {mid rm : BitVec 3} {bs : List Byte} {m : MemOp} (hmd : md ≠ 3#2)
    (hm : Reads (parseMem c.adr md rm) bs m) : Reads (parseModRM c) ((md ++ mid ++ rm) :: bs) (mid, .mem m) := by
  obtain ⟨hmod, hmid, hrm⟩ := fields_append md mid rm
  refine byte ?_
  rw [hmod, hmid, hrm, if_neg hmd]
  exact hm.yield (pure _)

theorem parseModRM_reg (c : Ctx) (mid : BitVec 3) (r : RegNum) :
    Reads (parseModRM c) (encRM mid (.reg r)) (mid, .reg r) := by
  obtain ⟨hmod, hmid, hrm⟩ := fields_append 3#2 mid r
  refine byte ?_
  rw [hmod, hmid, hrm, if_pos rfl]
  exact pure _

/-- A mod r/m byte written as five bits, mod = 11 and the middle field, and the register (R141, R163). -/
theorem parseModRM_st (c : Ctx) {k : BitVec 5} (r : RegNum) (h : k.extractLsb' 3 2 = 3#2 := by rfl) :
    Reads (Sys2Proof.parseModRM c) [k ++ r] (k.extractLsb' 0 3, .reg r) := by
  have split : 3#2 ++ k.extractLsb' 0 3 = k := by
    rw [← h]
    exact (BitVec.extractLsb'_append_extractLsb'_eq_extractLsb' rfl).trans (BitVec.extractLsb'_eq_self (w := 5))
  have reads := parseModRM_reg c (k.extractLsb' 0 3) r
  rwa [encRM, split] at reads

theorem parseModRM_mem {c : Ctx} (mid : BitVec 3) {m : MemOp} (h : memOk c.adr m = true) :
    Reads (parseModRM c) (encMem mid m) (mid, .mem m) := by
  cases m with
  | a16 rm d =>
    simp only [memOk, Bool.and_eq_true, beq_iff_eq, Bool.not_eq_true', ← Bool.not_eq_true] at h
    obtain ⟨⟨adr, hd⟩, direct⟩ := h
    refine parseModRM_byte (dispMod_ne_three d) ?_
    rw [adr, parseMem, if_neg (by rw [dispMod_eq_zero]; tauto)]
    exact (parseDisp16 hd).map _
  | direct16 a =>
    have adr : c.adr = .s16 := by simpa [memOk] using h
    refine parseModRM_byte (by decide) ?_
    rw [adr]
    exact (nextWord a).map _
  | a32 base d =>
    simp only [memOk, Bool.and_eq_true, beq_iff_eq, bne_iff_ne, Bool.not_eq_true', ← Bool.not_eq_true] at h
    obtain ⟨⟨⟨adr, hd⟩, sib⟩, direct⟩ := h
    refine parseModRM_byte (dispMod_ne_three d) ?_
    rw [adr, parseMem, if_neg sib, if_neg (by rw [dispMod_eq_zero]; tauto)]
    exact (parseDisp32 hd).map _
  | direct32 a =>
    have adr : c.adr = .s32 := by simpa [memOk] using h
    refine parseModRM_byte (by decide) ?_
    rw [adr]
    exact (nextDword a).map _
  | sib ss index base d =>
    simp only [memOk, Bool.and_eq_true, beq_iff_eq, Bool.not_eq_true', ← Bool.not_eq_true] at h
    obtain ⟨⟨adr, hd⟩, noBase⟩ := h
    refine parseModRM_byte (dispMod_ne_three d) ?_
    rw [adr]
    exact parseSib hd (by tauto)
  | sibNoBase ss index d =>
    have adr : c.adr = .s32 := by simpa [memOk] using h
    refine parseModRM_byte (by decide) ?_
    rw [adr]
    exact parseSib_noBase ss index d

theorem parseModRM {c : Ctx} (mid : BitVec 3) {rm : RM} (h : rmOk c.adr rm = true) :
    Reads (parseModRM c) (encRM mid rm) (mid, rm) := by
  cases rm with
  | reg r => exact parseModRM_reg c mid r
  | mem m => exact parseModRM_mem mid h

theorem regRM {c : Ctx} (f : RegNum → RM → Instr) (reg : RegNum) {rm : RM} (h : rmOk c.adr rm = true) :
    Reads (regRM c f) (encRM reg rm) (f reg rm) := (parseModRM reg h).yield (pure _)

theorem regMem {c : Ctx} (f : RegNum → MemOp → Instr) (reg : RegNum) {m : MemOp} (h : memOk c.adr m = true) :
    Reads (regMem c f) (encMem reg m) (f reg m) := (parseModRM_mem reg h).yield (pure _)

/-- The numbers of the segment registers a processor has (R152): the 80286 has those below 100. -/
theorem parseSreg3 {c : Ctx} {sreg : SReg} (h : sregStoreOk c sreg = true) :
    Reads (parseSreg3 c (sreg3Code sreg)) [] sreg := by
  by_cases old : c.cpu = .p286
  · have noFsGs : c.has386 = false := by simp [Ctx.has386, old]
    cases sreg with
    | fs | gs => exact absurd h (by simp [sregStoreOk, noFsGs])
    | es | cs | ss | ds => rw [Sys2Proof.parseSreg3, if_pos old]; exact pure _
  · rw [Sys2Proof.parseSreg3, if_neg old]
    cases sreg <;> exact pure _

/-- A move to or from a special register, from the number of that register (R168). -/
theorem parseSpecial {num : BitVec 3 → Parse α} {n : BitVec 3} {a : α} (f : α → RegNum → Instr) (reg : RegNum)
    (h : Reads (num n) [] a) : Reads (parseSpecial num f) [3#2 ++ n ++ reg] (f a reg) := by
  obtain ⟨-, hnum, hreg⟩ := fields_append 3#2 n reg
  refine byte ?_
  rw [hnum, hreg]
  exact h.yield (pure _)

theorem parseCr (cr : CrNum) : Reads (parseCr (crCode cr)) [] cr := by cases cr <;> exact pure _
theorem parseDr (dr : DrNum) : Reads (parseDr (drCode dr)) [] dr := by cases dr <;> exact pure _
theorem parseTr (tr : TrNum) : Reads (parseTr (trCode tr)) [] tr := by cases tr <;> exact pure _

end Parse.Reads

end Sys2Proof
end

section
/-! Every row of the opcode table read back from its encoding (R160 to R163). -/

namespace Sys2Proof

/-- The eight values of a 3-bit field, for a case split over one that is part of an opcode byte. -/
theorem regNum_cases {motive : BitVec 3 → Prop} (r0 : motive 0#3) (r1 : motive 1#3) (r2 : motive 2#3)
    (r3 : motive 3#3) (r4 : motive 4#3) (r5 : motive 5#3) (r6 : motive 6#3) (r7 : motive 7#3) (r : BitVec 3) :
    motive r := by
  have eight : r = 0#3 ∨ r = 1#3 ∨ r = 2#3 ∨ r = 3#3 ∨ r = 4#3 ∨ r = 5#3 ∨ r = 6#3 ∨ r = 7#3 := by decide +revert
  obtain rfl | rfl | rfl | rfl | rfl | rfl | rfl | rfl := eight <;> assumption

/-- The row ESC is what no other row of a memory form is (R424, R552). -/
theorem escMem_unassigned {ttt lll : BitVec 3} (m : MemOp) (h : escMemAssigned ttt lll = false) :
    escMem ttt lll m = .esc ttt lll (.mem m) := by
  have listed : (ttt, lll) ∈ [(1#3, 1#3), (3#3, 1#3), (3#3, 4#3), (3#3, 6#3), (5#3, 1#3), (5#3, 5#3), (7#3, 1#3)] := by
    decide +revert
  simp only [List.mem_cons, Prod.mk.injEq, List.not_mem_nil, or_false] at listed
  obtain ⟨rfl, rfl⟩ | ⟨rfl, rfl⟩ | ⟨rfl, rfl⟩ | ⟨rfl, rfl⟩ | ⟨rfl, rfl⟩ | ⟨rfl, rfl⟩ | ⟨rfl, rfl⟩ := listed <;> rfl

theorem escD9_unassigned {c : Ctx} {lll r : BitVec 3} (h : escRegAssigned c 1#3 lll r = false) :
    escD9 c lll r = .esc 1#3 lll (.reg r) := by
  cases lll using regNum_cases <;> cases r using regNum_cases <;> simp_all [escD9, escRegAssigned]

/-- The row ESC is what no other row of a register form is (R424, R552). -/
theorem escReg_unassigned {c : Ctx} {ttt lll r : BitVec 3} (h : escRegAssigned c ttt lll r = false) :
    escReg c ttt lll r = .esc ttt lll (.reg r) := by
  cases ttt using regNum_cases with
  | r1 =>
    cases lll using regNum_cases with
    | r4 | r5 | r6 | r7 => exact escD9_unassigned h
    | r0 | r1 | r2 | r3 => simp_all [escReg, escRegAssigned]
  | r2 =>
    cases lll using regNum_cases with
    | r5 => exact if_neg fun hit => by simp_all [escRegAssigned]
    | _ => rfl
  | _ => cases lll using regNum_cases <;> simp_all [escReg, escRegAssigned]

/-- MOV loads the segment registers it stores but CS (R167). -/
theorem sregLoadOk_iff {c : Ctx} {sreg : SReg} :
    sregLoadOk c sreg = true ↔ sreg ≠ .cs ∧ sregStoreOk c sreg = true := by
  cases sreg <;> simp [sregLoadOk, sregStoreOk]

theorem Ctx.has386_of_has486 {c : Ctx} (h : c.has486 = true) : c.has386 = true := by
  simp_all [Ctx.has386, Ctx.has486]

namespace Parse.Reads

/-- Every row but the bare repeat forms, which need the byte behind them, is read back from its encoding. The rows are
grouped by the form of their encoding; bits of an opcode byte that an operand fills are split into their values. -/
theorem parseInstr {c : Ctx} {i : Instr} (h : Instr.wf c i = true) (notRep : i ≠ .repPrefix ∧ i ≠ .repnePrefix) :
    Reads (Sys2Proof.parseInstr c) (encode i) i := by
  cases i with
  | repPrefix => exact absurd rfl notRep.1
  | repnePrefix => exact absurd rfl notRep.2
  -- Rows without a field.
  | lockPrefix | esPrefix | csPrefix | ssPrefix | dsPrefix | pusha | popEs | popSs | popDs | popa | clc | cld | cli
  | clts | cmc | lahf | popf | pushf | sahf | stc | std | sti | aaa | aas | daa | das | aad | aam | cbw | cwd | xlat
  | retNear | retFar | leave | int3 | into | iret | hlt | nop | wait
  | fcompp | ftst | fxam | fldz | fld1 | fldpi | fldl2t | fldl2e | fldlg2 | fldln2 | fsqrt | fscale | fprem | frndint
  | fxtract | fabs | fchs | fptan | fpatan | f2xm1 | fyl2x | fyl2xp1 | finit | fstswAx | fclex | fincstp | fdecstp
  | fnop => exact fun _ => rfl
  | fsPrefix | gsPrefix | opSizePrefix | addrSizePrefix => exact .byte (.since386 h (.pure _))
  | pushFs | pushGs | popFs | popGs => exact .byte (.byte (.since386 h (.pure _)))
  | invd | wbinvd => exact .byte (.byte (.since486 h (.pure _)))
  -- Fields in the opcode byte, and bytes of data as they stand.
  | jmpShort d | jcxz d | loop d | loopz d | loopnz d | intN d => exact fun _ => rfl
  | inPort w port | outPort w port => cases w <;> exact fun _ => rfl
  | inDx w | outDx w => cases w <;> exact fun _ => rfl
  | repeCmps w | repneCmps w | repIns w | repLods w | repMovs w | repOuts w | repeScas w | repneScas w | repStos w =>
    cases w <;> exact fun _ => rfl
  | cmps w | ins w | lods w | movs w | outs w | scas w | stos w =>
    have alone : c.rep = none := eq_of_beq h
    obtain ⟨cpu, npx, os, adr, rep⟩ := c
    obtain rfl : rep = none := alone
    cases w <;> exact fun _ => rfl
  | pushReg reg | popReg reg | incReg reg | decReg reg => cases reg using regNum_cases <;> exact fun _ => rfl
  | xchgAcc reg =>
    cases reg using regNum_cases with
    | r0 => cases h
    | r1 | r2 | r3 | r4 | r5 | r6 | r7 => exact fun _ => rfl
  | bswap reg => cases reg using regNum_cases <;> exact .byte (.byte (.since486 h (.pure _)))
  | pushSreg sreg =>
    cases sreg with
    | fs | gs => cases h
    | es | cs | ss | ds => exact fun _ => rfl
  -- Immediates, displacements and offsets (R158).
  | addAccImm w imm | orAccImm w imm | adcAccImm w imm | sbbAccImm w imm | andAccImm w imm | subAccImm w imm
  | xorAccImm w imm | cmpAccImm w imm | testAccImm w imm => cases w <;> exact .byte ((parseImm h).map _)
  | pushImm s imm => cases s <;> exact .byte ((parseImm h).map _)
  | movRegImm w reg imm => cases w <;> cases reg using regNum_cases <;> exact .byte ((parseImm h).map _)
  | callNear disp | jmpNear disp => exact .byte ((parseImm h).map _)
  | movAccMem w addr | movMemAcc w addr => cases w <;> exact .byte ((parseOff h).map _)
  | callFar off sel | jmpFar off sel => exact .byte ((parseOff h).bind ((nextWord sel).yield (.pure _)))
  | enter frame level => exact .byte ((nextWord frame).bind ((nextByte level).yield (.pure _)))
  | retNearImm count | retFarImm count => exact .byte ((nextWord count).map _)
  | jO disp | jNo disp | jB disp | jNb disp | jE disp | jNe disp | jBe disp | jNbe disp | jS disp | jNs disp | jP disp
  | jNp disp | jL disp | jNl disp | jLe disp | jNle disp =>
    cases disp with
    | i8 v => exact fun _ => rfl
    | i16 v =>
      obtain ⟨h386, hos⟩ := Bool.and_eq_true_iff.mp h
      exact .byte (.byte (.since386 h386 ((parseImm (w := true) (imm := .i16 v) hos).yield (.pure _))))
    | i32 v =>
      obtain ⟨h386, hos⟩ := Bool.and_eq_true_iff.mp h
      exact .byte (.byte (.since386 h386 ((parseImm (w := true) (imm := .i32 v) hos).yield (.pure _))))
  -- A register and an r/m operand (R140).
  | movRmReg w reg rm | movRegRm w reg rm | xchgRmReg w reg rm | testRmReg w reg rm =>
    cases w <;> exact .byte (.regRM _ reg h)
  | addRmReg d w reg rm | orRmReg d w reg rm | adcRmReg d w reg rm | sbbRmReg d w reg rm | andRmReg d w reg rm
  | subRmReg d w reg rm | xorRmReg d w reg rm | cmpRmReg d w reg rm =>
    cases d <;> cases w <;> exact .byte (.regRM _ reg h)
  | arpl reg rm => exact .byte (.regRM _ reg h)
  | lar reg rm | lsl reg rm => exact .byte (.byte (.regRM _ reg h))
  | movsx w reg rm | movzx w reg rm =>
    obtain ⟨h386, hrm⟩ := Bool.and_eq_true_iff.mp h
    cases w <;> exact .byte (.byte (.since386 h386 (.regRM _ reg hrm)))
  | imulRegRm reg rm | shldCl reg rm | shrdCl reg rm | bsf reg rm | bsr reg rm | btReg reg rm | btcReg reg rm
  | btrReg reg rm | btsReg reg rm =>
    obtain ⟨h386, hrm⟩ := Bool.and_eq_true_iff.mp h
    exact .byte (.byte (.since386 h386 (.regRM _ reg hrm)))
  | cmpxchg w reg rm =>
    obtain ⟨h486, hrm⟩ := Bool.and_eq_true_iff.mp h
    cases w <;> exact .byte (.byte (.since386 (Ctx.has386_of_has486 h486) (.since486 h486 (.regRM _ reg hrm))))
  | xadd w reg rm =>
    obtain ⟨h486, hrm⟩ := Bool.and_eq_true_iff.mp h
    cases w <;> exact .byte (.byte (.since486 h486 (.regRM _ reg hrm)))
  | lea reg m | lds reg m | les reg m | bound reg m => exact .byte (.regMem _ reg h)
  | lfs reg m | lgs reg m | lss reg m =>
    obtain ⟨h386, hm⟩ := Bool.and_eq_true_iff.mp h
    exact .byte (.byte (.since386 h386 (.regMem _ reg hm)))
  | movRmSreg sreg rm =>
    obtain ⟨hrm, known⟩ := Bool.and_eq_true_iff.mp h
    exact .byte ((parseModRM _ hrm).yield ((parseSreg3 known).yield (.pure _)))
  | movSregRm sreg rm =>
    obtain ⟨hrm, loads⟩ := Bool.and_eq_true_iff.mp h
    obtain ⟨notCs, known⟩ := sregLoadOk_iff.mp loads
    exact .byte ((parseModRM _ hrm).yield ((parseSreg3 known).yield (.ite_neg notCs (.pure _))))
  | movToCr cr reg | movFromCr cr reg => exact .byte (.byte (.since386 h (.parseSpecial _ reg (.parseCr cr))))
  | movToDr dr reg | movFromDr dr reg => exact .byte (.byte (.since386 h (.parseSpecial _ reg (.parseDr dr))))
  | movToTr tr reg | movFromTr tr reg => exact .byte (.byte (.since386 h (.parseSpecial _ reg (.parseTr tr))))
  -- Groups, by the middle field (R160 to R162).
  | incRm w rm | decRm w rm | neg w rm | mul w rm | imulAcc w rm | div w rm | idiv w rm | notRm w rm =>
    cases w <;> exact .byte ((parseModRM _ h).yield (.pure _))
  | pushRm rm | popRm rm | callRm rm | jmpRm rm => exact .byte ((parseModRM _ h).yield (.pure _))
  | callMemFar m | jmpMemFar m => exact .byte ((parseModRM_mem _ h).yield (.pure _))
  | rol w rm count | ror w rm count | rcl w rm count | rcr w rm count | shl w rm count | shr w rm count
  | sar w rm count =>
    cases count with
    | one | cl => cases w <;> exact .byte ((parseModRM _ h).yield ((Reads.pure _).yield (.pure _)))
    | imm v => cases w <;> exact .byte ((parseModRM _ h).bind (((nextByte v).map _).yield (.pure _)))
  | addRmImm s w rm imm | adcRmImm s w rm imm | sbbRmImm s w rm imm | subRmImm s w rm imm | cmpRmImm s w rm imm =>
    obtain ⟨hrm, himm⟩ := Bool.and_eq_true_iff.mp h
    cases s <;> cases w <;> exact .byte ((parseModRM _ hrm).bind ((parseImm himm).yield (.pure _)))
  | orRmImm s w rm imm | andRmImm s w rm imm | xorRmImm s w rm imm =>
    obtain ⟨operands, row⟩ := Bool.and_eq_true_iff.mp h
    obtain ⟨hrm, himm⟩ := Bool.and_eq_true_iff.mp operands
    cases s <;> cases w <;>
      exact .byte ((parseModRM _ hrm).bind ((parseImm himm).yield (.ite_pos row (.pure _))))
  | movRmImm w rm imm | testRmImm w rm imm =>
    obtain ⟨hrm, himm⟩ := Bool.and_eq_true_iff.mp h
    cases w <;> exact .byte ((parseModRM _ hrm).bind ((parseImm himm).map _))
  | imulRegRmImm s reg rm imm =>
    obtain ⟨hrm, himm⟩ := Bool.and_eq_true_iff.mp h
    cases s <;> exact .byte ((parseModRM _ hrm).bind ((parseImm himm).map _))
  | lldt rm | lmsw rm | ltr rm | sldt rm | smsw rm | str rm | verr rm | verw rm =>
    exact .byte (.byte ((parseModRM _ h).yield (.pure _)))
  | lgdt m | lidt m | sgdt m | sidt m => exact .byte (.byte ((parseModRM_mem _ h).yield (.pure _)))
  | invlpg m =>
    obtain ⟨h486, hm⟩ := Bool.and_eq_true_iff.mp h
    exact .byte (.byte ((parseModRM_mem _ hm).yield (.since486 h486 (.pure _))))
  | btImm rm k | btcImm rm k | btrImm rm k | btsImm rm k | shldImm reg rm k | shrdImm reg rm k =>
    obtain ⟨h386, hrm⟩ := Bool.and_eq_true_iff.mp h
    exact .byte (.byte (.since386 h386 ((parseModRM _ hrm).bind ((nextByte k).map _))))
  | setO mid rm | setNo mid rm | setB mid rm | setNb mid rm | setE mid rm | setNe mid rm | setBe mid rm | setNbe mid rm
  | setS mid rm | setNs mid rm | setP mid rm | setNp mid rm | setL mid rm | setNl mid rm | setLe mid rm
  | setNle mid rm =>
    obtain ⟨h386, hrm⟩ := Bool.and_eq_true_iff.mp h
    exact .byte (.byte (.since386 h386 ((parseModRM mid hrm).yield (.pure _))))
  -- The coprocessor (R163).
  | fildM64 m | fldM80 m | fbld m | fistpM64 m | fstpM80 m | fbstp m | fldcw m | fstcw m | fstsw m | fstenv m
  | fldenv m | fsave m | frstor m => exact .byte ((parseModRM_mem _ h).yield (.pure _))
  | fldMem mf m | fstMem mf m | fstpMem mf m | fcomMem mf m | fcompMem mf m | faddMem mf m | fsubMem mf m
  | fsubrMem mf m | fmulMem mf m | fdivMem mf m | fdivrMem mf m | fild mf m | fist mf m | fistp mf m | ficom mf m
  | ficomp mf m | fiadd mf m | fisub mf m | fisubr mf m | fimul mf m | fidiv mf m | fidivr mf m =>
    cases mf <;> exact .byte ((parseModRM_mem _ h).yield (.pure _))
  | fldSt r | fstSt r | fstpSt r | fxch r | fcomSt r | fcompSt r | faddp r | fsubrp r | fsubp r | fmulp r | fdivrp r
  | fdivp r | ffree r => exact .byte ((parseModRM_st c r).yield (.pure _))
  | faddSt d r | fsubSt d r | fsubrSt d r | fmulSt d r | fdivSt d r | fdivrSt d r =>
    cases d <;> exact .byte ((parseModRM_st c r).yield (.pure _))
  | fucom r | fucomp r => exact .byte ((parseModRM_st c r).yield (.pure_of (if_pos h)))
  | fprem1 => exact .byte ((parseModRM_st c (k := 30#5) 5#3).yield (.pure_of (if_pos h)))
  | fsin => exact .byte ((parseModRM_st c (k := 31#5) 6#3).yield (.pure_of (if_pos h)))
  | fcos => exact .byte ((parseModRM_st c (k := 31#5) 7#3).yield (.pure_of (if_pos h)))
  | fsincos => exact .byte ((parseModRM_st c (k := 31#5) 3#3).yield (.pure_of (if_pos h)))
  | fucompp =>
    have h386 : c.has386 = true := h
    exact .byte ((parseModRM_st c (k := 29#5) 1#3).yield (.pure_of (if_pos (by rw [h386]; rfl))))
  | fsetpm =>
    have old : (!c.has386) = true := h
    exact .byte ((parseModRM_st c (k := 28#5) 4#3).yield (.pure_of (by simp [escReg, old])))
  | esc ttt lll rm =>
    cases rm with
    | reg r =>
      have other := escReg_unassigned ((Bool.not_eq_true' _).mp h)
      cases ttt using regNum_cases <;> exact .byte ((parseModRM_reg c lll r).yield (.pure_of other))
    | mem m =>
      obtain ⟨hm, unassigned⟩ := Bool.and_eq_true_iff.mp h
      have other := escMem_unassigned m ((Bool.not_eq_true' _).mp unassigned)
      cases ttt using regNum_cases <;> exact .byte ((parseModRM_mem lll hm).yield (.pure_of other))

end Parse.Reads

end Sys2Proof
end

section
/-! Decoding undoes encoding, and the words of the field s (R130 to R171). -/

namespace Sys2Proof.Machine

/-- What a parser reads back is what decoding gives, whatever follows. -/
theorem decode_of_reads {c : Ctx} {bs : List Byte} {i : Instr} (h : Parse.Reads (parseInstr c) bs i)
    (rest : List Byte) : decode c (bs ++ rest) = .instr i bs.length := by
  unfold decode
  rw [h]
  simp

/-- Whether a byte is a string opcode does not depend on the repeat form it would take (R133). -/
theorem stringOp_eq_none {b : Byte} (h : stringOp none b = none) (rep : Option Bool) : stringOp rep b = none := by
  unfold stringOp at h ⊢
  split at h <;> simp_all

/-- A bare repeat form stands for itself before a byte that is no string opcode (R133). -/
theorem parseRep_alone {z : Bool} {b : Byte} (h : stringOp none b = none) (rest : List Byte) :
    parseRep z (b :: rest) = .ok (if z then .repPrefix else .repnePrefix) (b :: rest) := by
  simp only [parseRep, stringOp_eq_none h]

/-- Settles O55: a bare repeat form by the byte behind it, every other row by reading back its bytes. -/
theorem decodeEncode : Obligations.DecodeEncode := by
  intro c i rest _ wf alone
  by_cases bare : i = .repPrefix ∨ i = .repnePrefix
  · obtain ⟨b, behind, rfl, notString⟩ := alone bare
    have reads : parseInstr c (encode i ++ b :: behind) = .ok i (b :: behind) := by
      obtain rfl | rfl := bare
      · exact parseRep_alone (z := true) notString behind
      · exact parseRep_alone (z := false) notString behind
    unfold decode
    rw [reads]
    simp
  · exact decode_of_reads (.parseInstr wf (not_or.mp bare)) rest

/-- Which words of the immediate group are rows: on the 80286 not those of AND, OR and XOR with s = 1 (R162). -/
theorem AluOp.rmImm_wf_iff {c : Ctx} (op : AluOp) {s w : Bool} {rm : RM} {imm : Imm} :
    Instr.wf c (op.rmImm s w rm imm) = true ↔ rmOk c.adr rm = true ∧ immSOk c.os s w imm = true ∧
      (c.cpu = .p286 → s = true → op.logic = false) := by
  cases op <;> cases s <;> simp [AluOp.rmImm, AluOp.logic, Instr.wf, Ctx.has386, and_assoc]

/-- A word that ends with a mod r/m byte and an immediate decodes to the instruction it encodes. -/
theorem decode_word {c : Ctx} {i : Instr} {b : Byte} {mrm : List Byte} {imm : Imm}
    (word : encode i = b :: (mrm ++ encImm imm)) (wf : Instr.wf c i = true)
    (notRep : i ≠ .repPrefix ∧ i ≠ .repnePrefix) (rest : List Byte) :
    decode c (b :: (mrm ++ encImm imm ++ rest)) = .instr i (1 + mrm.length + (encImm imm).length) := by
  have h := decode_of_reads (.parseInstr wf notRep) rest
  rw [word] at h
  rw [← List.cons_append, h, List.length_cons, List.length_append]
  congr 1
  omega

/-- 8 bits of data where s = 1 or w = 0, and else the bits of the operand (R154). -/
theorem immSOk_data (os : Size) (s w : Bool) (x : BitVec 8) (y : BitVec 16) (z : BitVec 32) :
    immSOk os s w (if s || !w then .i8 x else if os = .s16 then .i16 y else .i32 z) = true := by
  cases s <;> cases w <;> cases os <;> rfl

/-- Settles O56: the words written out by evaluation, the words of the field s as encodings that are read back. -/
theorem decodeWords : Obligations.DecodeWords := by
  refine ⟨rfl, rfl, rfl, rfl, rfl, rfl, rfl, rfl, rfl, rfl, rfl, ?_⟩
  intro c op s w reg rm x y z rest bit mid full data reads _ hrm
  have dataOk (s w : Bool) : immSOk c.os s w (data (s || !w)) = true := immSOk_data c.os s w x y z
  have shortOk (s : Bool) : immSOk c.os s true (data s) = true := by simpa using dataOk s true
  refine ⟨fun row => ?_, ?_, ?_, ?_, rfl, rfl, ?_, ?_⟩
  · refine decode_word ?_ (op.rmImm_wf_iff.mpr ⟨hrm, dataOk s w, row⟩) ?_ rest
    · cases op <;> cases s <;> cases w <;> rfl
    · cases op <;> exact ⟨nofun, nofun⟩
  · refine decode_word (i := .pushImm s (data s)) ?_ (shortOk s) ⟨nofun, nofun⟩ rest
    cases s <;> rfl
  · refine decode_word (i := .imulRegRmImm s reg rm (data s)) ?_ (Bool.and_eq_true_iff.mpr ⟨hrm, shortOk s⟩)
      ⟨nofun, nofun⟩ rest
    cases s <;> rfl
  · exact BitVec.signExtend_eq x
  · exact BitVec.signExtend_eq y
  · exact BitVec.signExtend_eq z

end Sys2Proof.Machine
end

section
/-! Conditional jumps and byte sets (R386 to R402, R700 to R716): their meanings
from the condition, whatever the row. -/

namespace Sys2Proof.Machine

/-- What a fault restores when nothing was done: the state before (R606). -/
theorem restore_self (s : State) : restore s s = s := rfl

theorem checkTarget_inside {s : State} {t : BitVec 32} (h : t.toNat ≤ s.segs.cs.limit.toNat) :
    checkTarget t s = .ok () s := by
  simp [checkTarget, Nat.not_lt.mpr h]

theorem checkTarget_beyond {s : State} {t : BitVec 32} (h : s.segs.cs.limit.toNat < t.toNat) :
    checkTarget t s = .error (.exc ⟨13#8, some 0#16⟩) s := by
  simp [checkTarget, h, raiseGP]

/-- A near relative jump within the CS limit (R370). -/
theorem jumpRel_inside {s : State} {d : BitVec 32}
    (h : (ipMask s.os (s.nextIP + d)).toNat ≤ s.segs.cs.limit.toNat) :
    jumpRel d s = .ok () (s.jumped (ipMask s.os (s.nextIP + d))) := by
  simp only [jumpRel, nearTransfer, State.relTarget, M.bind_run, getS_run, checkTarget_inside h, jumpTo_run]
  rfl

/-- A near relative jump beyond the CS limit: #GP(0) before anything is changed (R370). -/
theorem jumpRel_beyond {s : State} {d : BitVec 32}
    (h : s.segs.cs.limit.toNat < (ipMask s.os (s.nextIP + d)).toNat) :
    jumpRel d s = .error (.exc ⟨13#8, some 0#16⟩) s := by
  simp only [jumpRel, nearTransfer, State.relTarget, M.bind_run, getS_run, checkTarget_beyond h]

/-- The meaning of every conditional jump is that of its condition (R386). -/
theorem exec_jump (c : Cond) (disp : Imm) (s : State) :
    exec (Cond.jump c disp) s = finish (jumpIf (s.flags.cond c) (Imm.disp disp)) s := by cases c <;> rfl

theorem exec_jump_notTaken {c : Cond} {s : State} (disp : Imm) (h : s.flags.cond c = false) :
    exec (Cond.jump c disp) s = .next s.advance := by
  rw [exec_jump, h]
  exact finish_ok rfl

theorem exec_jump_taken {c : Cond} {s : State} {disp : Imm} (h : s.flags.cond c = true)
    (inside : (ipMask s.os (s.nextIP + Imm.disp disp)).toNat ≤ s.segs.cs.limit.toNat) :
    exec (Cond.jump c disp) s = .next (s.jumped (ipMask s.os (s.nextIP + Imm.disp disp))) := by
  rw [exec_jump, h]
  exact finish_ok (jumpRel_inside inside)

theorem exec_jump_beyond {c : Cond} {s : State} {disp : Imm} (h : s.flags.cond c = true)
    (beyond : s.segs.cs.limit.toNat < (ipMask s.os (s.nextIP + Imm.disp disp)).toNat) :
    exec (Cond.jump c disp) s = deliver ⟨13#8, .fault, s.eip, some 0#16⟩ s := by
  have gp : jumpIf true (Imm.disp disp) s = .error (.exc ⟨13#8, some 0#16⟩) s := jumpRel_beyond beyond
  rw [exec_jump, h, finish_exc gp, restore_self]
  rfl

/-- The meaning of every conditional byte set is that of its condition (R700). -/
theorem exec_set (c : Cond) (mid : BitVec 3) (rm : RM) (s : State) :
    exec (Cond.set c mid rm) s = complete (setByte rm (s.flags.cond c)) s := by cases c <;> rfl

theorem exec_set_writes {s : State} {rm : RM} (c : Cond) (mid : BitVec 3) (h : s.rmWrites .w8 rm = true) :
    exec (Cond.set c mid rm) s = .next (s.rmPut .w8 rm (if s.flags.cond c then 1#8 else 0#8)).advance := by
  rw [exec_set]
  exact complete_ok (writeRM_ok _ h)

/-- The number of a condition in the field tttn (R155). -/
def Cond.code : Cond → BitVec 4
  | .o => 0#4
  | .no => 1#4
  | .b => 2#4
  | .nb => 3#4
  | .e => 4#4
  | .ne => 5#4
  | .be => 6#4
  | .nbe => 7#4
  | .s => 8#4
  | .ns => 9#4
  | .p => 10#4
  | .np => 11#4
  | .l => 12#4
  | .nl => 13#4
  | .le => 14#4
  | .nle => 15#4

theorem encode_jump_i8 (c : Cond) (v : BitVec 8) : encode (Cond.jump c (.i8 v)) = [7#4 ++ Cond.code c, v] := by
  cases c <;> rfl

theorem encode_jump_i16 (c : Cond) (v : BitVec 16) :
    encode (Cond.jump c (.i16 v)) = 0x0F#8 :: (8#4 ++ Cond.code c) :: encWord v := by cases c <;> rfl

theorem encode_jump_i32 (c : Cond) (v : BitVec 32) :
    encode (Cond.jump c (.i32 v)) = 0x0F#8 :: (8#4 ++ Cond.code c) :: encDword v := by cases c <;> rfl

theorem encode_set (c : Cond) (mid : BitVec 3) (rm : RM) :
    encode (Cond.set c mid rm) = 0x0F#8 :: (9#4 ++ Cond.code c) :: encRM mid rm := by
  cases c <;> rfl

/-- A field of a field. -/
theorem extractLsb'_within {n start len len' : Nat} (x : BitVec n) (h : start + len ≤ len') {base : Nat} :
    (x.extractLsb' base len').extractLsb' start len = x.extractLsb' (base + start) len := by
  ext i hi
  simp only [BitVec.getElem_extractLsb', BitVec.getLsbD_extractLsb', Nat.add_assoc]
  simp [show start + i < len' by omega]

/-- The four bytes of a 32-bit value in instruction order (R76). -/
theorem encDword_bytes (v : BitVec 32) :
    encDword v = [v.extractLsb' 0 8, v.extractLsb' 8 8, v.extractLsb' 16 8, v.extractLsb' 24 8] := by
  simp only [encDword, encWord, List.cons_append, List.nil_append,
    extractLsb'_within v (show 0 + 8 ≤ 16 by decide), extractLsb'_within v (show 8 + 8 ≤ 16 by decide)]

/-- Settles O28: every row's encoding and meaning from its condition. -/
theorem conditionalJumps : Obligations.ConditionalJumps := by
  intro c s d8 d16 d32 disp f row t
  have hrow : row = (Cond.code c, s.flags.cond c) := by cases c <;> rfl
  rw [hrow]
  exact ⟨encode_jump_i8 c d8, encode_jump_i16 c d16, by rw [encode_jump_i32, encDword_bytes],
    exec_jump_notTaken disp, exec_jump_taken, exec_jump_beyond⟩

/-- Settles O29: every row's encoding and meaning from its condition. -/
theorem conditionalSets : Obligations.ConditionalSets := by
  intro c s mid r rm f row
  have hrow : row = (Cond.code c, s.flags.cond c) := by cases c <;> simp [row, f, Cond.code, Flags.cond]
  rw [hrow]
  exact ⟨encode_set c _ _, encode_set c _ _, exec_set_writes c mid⟩

end Sys2Proof.Machine
end

section
/-! The operand forms that the data transfer instructions share: what they make of the state where their accesses go
through. -/

namespace Sys2Proof.Machine

/-- A register is written. -/
theorem setReg_regPut (w : Width) (r : RegNum) (v : Val w) (s : State) : setReg w r v s = .ok () (s.regPut w r v) := rfl

/-- `Write_n(rm, R_n[reg])` (R200). -/
theorem moveToRM_ok {s : State} {w : Bool} {rm : RM} (reg : RegNum) (h : s.rmWrites (s.opW w) rm = true) :
    moveToRM w reg rm s = .ok () (s.rmPut (s.opW w) rm (s.reg (s.opW w) reg)) := by
  simp only [moveToRM, M.bind_run, getS_run, getReg_run, writeRM_ok _ h]

/-- `R_n[reg] <- Read_n(rm)` (R200). -/
theorem moveFromRM_ok {s : State} {w : Bool} {rm : RM} (reg : RegNum) (h : s.rmReads (s.opW w) rm = true) :
    moveFromRM w reg rm s = .ok () (s.regPut (s.opW w) reg (s.rmVal (s.opW w) rm)) := by
  simp only [moveFromRM, M.bind_run, getS_run, readRM_ok h, setReg_regPut]

/-- A value computed from an operand goes to a register. -/
theorem readRM_setReg_ok {s : State} {w v : Width} {rm : RM} (reg : RegNum) (f : Val w → Val v)
    (h : s.rmReads w rm = true) :
    (readRM w rm >>= fun a => setReg v reg (f a)) s = .ok () (s.regPut v reg (f (s.rmVal w rm))) := by
  simp only [M.bind_run, readRM_ok h, setReg_regPut]

/-- A value in memory goes to a register. -/
theorem segReadV_setReg_ok {s : State} {w : Width} {k : SReg} {off : BitVec 32} (reg : RegNum)
    (h : s.reaches k off w.bytes false w.bytes = true) :
    (segReadV w k off >>= setReg w reg) s = .ok () (s.regPut w reg (s.memVal w k off)) := by
  simp only [M.bind_run, segReadV_ok h, setReg_regPut]

/-- Settles O1: each form is a read, or a write, of its operand that goes through. -/
theorem movCompletes : Obligations.MovCompletes := by
  intro s w reg rm imm addr
  exact ⟨fun writes => complete_ok (moveToRM_ok reg writes), fun reads => complete_ok (moveFromRM_ok reg reads),
    fun writes => complete_ok (writeRM_ok _ writes), complete_ok (setReg_regPut _ _ _ s),
    fun reads => complete_ok (segReadV_setReg_ok rAX reads), fun writes => complete_ok (segWriteV_ok _ writes)⟩

/-- Settles O8: the exchange reads the operand, writes the register's old value there and the operand's to the register;
XLAT is a load of a byte. -/
theorem exchangeCompletes : Obligations.ExchangeCompletes := by
  intro s w reg rm
  refine ⟨fun both => complete_ok ?_, complete_ok rfl, fun reads => complete_ok (segReadV_setReg_ok rAL reads)⟩
  obtain ⟨reads, writes⟩ := Bool.and_eq_true_iff.1 both
  simp only [M.bind_run, readRM_ok reads, writeRM_ok _ writes, setReg_regPut]

end Sys2Proof.Machine
end

section
/-! Moves of a segment register and pointer loads outside protected mode (R204, R205, R230 to R234). -/

namespace Sys2Proof.Machine

/-- The interrupt shadow after a load of SS (R620), in the boundary state. -/
theorem State.shadowed_ss (s : State) : s.shadowed .ss =
    s.setCtl (if s.ctl.prevShadow = .none then { s.ctl with shadow := .ss, dbPending := false } else s.ctl) := by
  unfold State.shadowed
  by_cases h : s.ctl.prevShadow = .none
  · simp only [h, and_self, if_true]
  · simp only [h, and_false, if_false]
    rfl

/-- A load of another register than SS opens no shadow. -/
theorem State.shadowed_ne {s : State} {k : SReg} (h : k ≠ .ss) : s.shadowed k = s := if_neg fun both => h both.1

/-- MOV from a segment register to a general one (R205), at the operand width. -/
theorem movRmSreg_reg {s : State} {w : Width} (k : SReg) (r : RegNum) (h : s.os.width = w) :
    exec (.movRmSreg k (.reg r)) s = complete (selItem w (s.segs.get k).sel >>= setReg w r) s := by
  subst h; rfl

/-- Settles O3: the load in these modes, with what MOV and the pointer loads do around it. -/
theorem segmentMovesComplete : Obligations.SegmentMovesComplete := by
  intro s k reg rm m real far off sel loaded
  refine ⟨fun mode reads notSs _ => ?_, fun mode reads => ?_, fun os => ?_, fun os => ?_, fun writes => ?_,
    fun mode reads => ?_⟩
  · have h := movSregRm_ok reads (loadSeg_real k _ mode)
    rwa [State.shadowed_ne notSs] at h
  · have h := movSregRm_ok reads (loadSeg_real .ss _ mode)
    rwa [State.shadowed_ss] at h
  · rw [movRmSreg_reg k reg (congrArg Size.width os)]
    exact complete_ok rfl
  · rw [movRmSreg_reg k reg (congrArg Size.width os)]
    exact complete_ok rfl
  · exact complete_ok (writeRM_ok (rm := .mem m) _ writes)
  · obtain ⟨offset, selector⟩ := Bool.and_eq_true_iff.1 reads
    have load (k : SReg) : complete (loadPointer k reg m) s = .next (loaded k).advance :=
      complete_ok (loadPointer_real mode offset selector)
    exact ⟨load .ds, load .es, load .fs, load .gs, load .ss⟩

end Sys2Proof.Machine
end

section
/-! The stack instructions (R208 to R216, R246, R247). -/

namespace Sys2Proof.Machine

/-! PUSH and PUSHF. -/

/-- A selector pushed with 16 bits stands there alone (R210). -/
theorem State.pushedSel_os16 {s : State} (os : s.os = .s16) (sel : BitVec 16) :
    s.pushedSel s.os.width sel = s.pushed .w16 sel := by rw [os]; rfl

/-- A selector pushed with 32 bits stands below a half that was drawn before (R210, U4). -/
theorem State.pushedSel_os32 {s : State} (os : s.os = .s32) (sel : BitVec 16) :
    s.pushedSel s.os.width sel = (s.setDraws (s.draws + 1)).pushed .w32 (Config.freeWord s.draws ++ sel) := by
  rw [os, State.pushed_setDraws]; rfl

/-- What virtual-8086 mode allows at IOPL 3 alone (R627). -/
theorem v86Sensitive_ok {s : State} (h : s.v86 = false ∨ s.flags.iopl = 3#2) : v86Sensitive s = .ok () s := by
  have pass : (s.v86 && s.flags.iopl != 3#2) = false := by
    obtain mode | level := h
    · simp [mode]
    · simp [level]
  simp only [v86Sensitive, M.bind_run, getS_run, pass]
  rfl

theorem getLsbD_place {n : Nat} (b : Bool) (i j : Nat) :
    (place n b i).getLsbD j = (decide (j < n) && b && decide (i = j)) := by
  cases b with
  | false => simp [place]
  | true => simp only [place, if_true, BitVec.getLsbD_ofNat, Nat.testBit_two_pow, Bool.and_true]

/-- The image PUSHF pushes (R247, R28), written from bit 31 down. -/
theorem Flags.pushImage_eq (f : Flags) : f.pushImage =
    0#13 ++ BitVec.ofBool f.ac ++ 0#1 ++ 0#1 ++ 0#1 ++ BitVec.ofBool f.nt ++ f.iopl ++ BitVec.ofBool f.ovf ++
    BitVec.ofBool f.df ++ BitVec.ofBool f.ie ++ BitVec.ofBool f.tf ++ BitVec.ofBool f.sf ++ BitVec.ofBool f.zf ++ 0#1 ++
    BitVec.ofBool f.af ++ 0#1 ++ BitVec.ofBool f.pf ++ 1#1 ++ BitVec.ofBool f.cf := by
  apply BitVec.eq_of_getLsbD_eq
  intro i hi
  rw [Flags.pushImage, Flags.word]
  simp only [BitVec.getLsbD_and, BitVec.getLsbD_or, getLsbD_place, BitVec.getLsbD_append, BitVec.getLsbD_shiftLeft,
    BitVec.getLsbD_setWidth]
  interval_cases i <;> simp

/-- Settles O5: each form is one push; that of a selector draws the half above it when it is 32 bits wide. -/
theorem pushCompletes : Obligations.PushCompletes := by
  intro s reg rm sx imm k f bit image pushes
  have value (v : Val s.os.width) : complete (push s.os.width v) s = .next (s.pushed s.os.width v).advance :=
    complete_ok (push_ok v pushes)
  have selector (sel : BitVec 16) : complete (pushSel s.os.width sel) s = .next (s.pushedSel s.os.width sel).advance :=
    complete_ok (pushSel_ok sel pushes)
  refine ⟨fun reads => complete_ok ?_, value _, value _, fun os => ?_, fun os => ?_, fun level => complete_ok ?_⟩
  · simp only [M.bind_run, readRM_ok reads, push_ok _ pushes]
  · simp only [← State.pushedSel_os16 os]
    exact ⟨selector _, selector _, selector _⟩
  · intro t
    simp only [t, ← State.pushedSel_os32 os]
    exact ⟨selector _, selector _, selector _⟩
  · simp only [M.bind_run, v86Sensitive_ok level, push_ok _ pushes, Flags.pushImage_eq]
    rfl

/-! POP and POPF. -/

/-- The flags POPF loads (R246, R627), bit by bit. -/
theorem State.popFlags_eq (s : State) (v : BitVec 32) : s.popFlags v s.os =
    { cf := v.getLsbD 0, pf := v.getLsbD 2, af := v.getLsbD 4, zf := v.getLsbD 6, sf := v.getLsbD 7
      tf := v.getLsbD 8, df := v.getLsbD 10, ovf := v.getLsbD 11
      ie := if s.cpl.toNat ≤ s.flags.iopl.toNat ∨ s.sys.cr0.pe = false then v.getLsbD 9 else s.flags.ie
      iopl := if s.cpl = 0#2 ∧ (s.cfg.cpu == .p286 && !s.sys.cr0.pe) = false then v.extractLsb' 12 2 else s.flags.iopl
      nt := if s.cfg.cpu == .p286 && !s.sys.cr0.pe then s.flags.nt else v.getLsbD 14
      rf := if s.os = .s32 then false else s.flags.rf
      vm := s.flags.vm
      ac := if s.os == .s32 && s.cfg.cpu == .p486 then v.getLsbD 18 else s.flags.ac } := by
  have real286 : (!s.sys.cr0.pe && !s.has386) = (s.cfg.cpu == .p286 && !s.sys.cr0.pe) := by
    rw [Bool.and_comm, State.has386, bne, Bool.not_not]
  unfold State.popFlags State.flagRights
  rw [real286]
  generalize (s.cfg.cpu == .p286 && !s.sys.cr0.pe) = real
  cases s.os <;> cases real <;> simp [Flags.load16, Flags.ofWord, bitOf, State.has486]

/-- POP of a segment register outside protected mode (R215): the load keeps the width of the stack segment, so that the
pointer moves as for any other pop. -/
theorem popSeg_real {s : State} {w : Width} (k : SReg) (mode : s.protMode = false) (pops : s.pops w = true) :
    popSeg w k s = .ok () (((s.setSegs (s.segs.put k ((s.segs.get k).toReal (itemSel (s.popVal w))))).setGpr
      (s.popped w).gpr).shadowed k) := by
  rw [popSeg_ok pops (loadSeg_real k _ mode), ← State.shadowed_popped]
  cases k <;> rfl

/-- Settles O6: each form is one pop and what is done with the item. -/
theorem popCompletes : Obligations.PopCompletes := by
  intro s reg rm pops w t real v real286 wide486 f loaded
  have segment (k : SReg) (mode : s.protMode = false) :
      complete (popSeg w k) s = .next ((real k).shadowed k).advance := complete_ok (popSeg_real k mode pops)
  refine ⟨fun writes => complete_ok ?_, complete_ok ?_, fun level => complete_ok ?_, fun mode => ?_, fun mode => ?_⟩
  · simp only [M.bind_run, pop_ok pops]
    exact writeRM_ok _ writes
  · simp only [M.bind_run, pop_ok pops, setReg_regPut]
    rfl
  · simp only [M.bind_run, v86Sensitive_ok level, pop_ok pops, updS_run, State.popFlags_eq]
    rfl
  · have other {k : SReg} (h : k ≠ .ss) : complete (popSeg w k) s = .next (real k).advance := by
      rw [segment k mode, State.shadowed_ne h]
    exact ⟨other nofun, other nofun, other nofun, other nofun⟩
  · have h := segment .ss mode
    rwa [State.shadowed_ss] at h

/-! PUSHA and POPA. -/

/-- One of several pops, with what follows it. -/
theorem pop_bind_popVals {α : Type} {s : State} {w : Width} {n k : Nat} (h : s.popsTimes w n = true) (hk : k < n)
    (f : Val w → M α) : (pop w >>= f) (s.poppedTimes w k) = f (s.popVals w k) (s.poppedTimes w (k + 1)) := by
  rw [M.bind_run, pop_ok (popsTimes_pops h hk)]; rfl

/-- Settles O7: PUSHA finds room and pushes its items one after another; POPA is eight pops and seven register
writes. -/
theorem pushAllPopAllComplete : Obligations.PushAllPopAllComplete := by
  intro s w items
  refine ⟨fun noWrap room pushes => complete_ok ?_, fun pops => complete_ok ?_⟩
  · have all : (do requireRoom w 8; pushAll w items) s = .ok () (s.pushedAll w items) := by
      rw [M.bind_run, requireRoom_ok room]
      exact pushAll_ok pushes
    simp only [noWrap]
    exact all
  · have item {k : Nat} (hk : k < 8) (f : Val w → M Unit) := pop_bind_popVals pops hk f
    -- The pops in order, then the writes.
    calc _ = _ := item (k := 0) (by decide) _
      _ = _ := item (k := 1) (by decide) _
      _ = _ := item (k := 2) (by decide) _
      _ = _ := item (k := 3) (by decide) _
      _ = _ := item (k := 4) (by decide) _
      _ = _ := item (k := 5) (by decide) _
      _ = _ := item (k := 6) (by decide) _
      _ = _ := item (k := 7) (by decide) _
      _ = _ := rfl

end Sys2Proof.Machine
end

section
/-! Input and output (R72, R219 to R222, R627, R628, R643): what the permission and the accesses do where they go
through. -/

namespace Sys2Proof.Machine

variable {s : State} {port : BitVec 16}

/-- The permission bitmap of an 80386 task state segment allows the ports (R628). -/
theorem ioBitmap_ok {n : Nat} (h : s.ioBits port n = true) : ioBitmap port n s = .ok () s := by
  simp only [State.ioBits, Bool.and_eq_true, decide_eq_true_eq] at h
  obtain ⟨⟨⟨⟨⟨⟨usable, kind⟩, large⟩, offset⟩, within⟩, bitmap⟩, clear⟩ := h
  simp only [ioBitmap, M.bind_run, getS_run, usable, kind, Nat.not_lt.mpr large, sysRead_plain offset,
    Nat.not_lt.mpr within, sysRead_plain bitmap, clear, Bool.not_true, Bool.or_self, Bool.false_eq_true, if_false,
    if_true, M.pure_run]

/-- Input and output are allowed by the mode, by IOPL or by the bitmap (R627, R628). -/
theorem ioPermitted_ok {n : Nat} (h : s.ioAllows port n = true) : ioPermitted port n s = .ok () s := by
  unfold State.ioAllows at h
  simp only [ioPermitted, M.bind_run, getS_run]
  by_cases real : (!s.sys.cr0.pe) = true
  · rw [if_pos real]; rfl
  rw [if_neg real]
  simp only [real, Bool.false_or] at h
  by_cases v86 : s.v86 = true
  · rw [if_pos v86] at h ⊢
    exact ioBitmap_ok h
  rw [if_neg v86] at h ⊢
  by_cases level : s.cpl.toNat ≤ s.flags.iopl.toNat
  · rw [if_pos level]; rfl
  rw [if_neg level]
  simp only [level, decide_false, Bool.false_or, Bool.and_eq_true] at h
  obtain ⟨has386, bits⟩ := h
  rw [if_pos has386]
  exact ioBitmap_ok bits

/-- A port that is none of the coprocessor's is read (R72, D6). -/
theorem ioRead_ok {w : Width} (h : npxPort port w.bytes = false) :
    ioRead port w s = .ok (s.portVal port w) s.portRead := by
  unfold ioRead State.portVal State.portRead
  rw [h]
  cases inputs : s.env.ioIn with
  | nil => simp [inputs]
  | cons v rest => simp [inputs]

/-- The reset of an 80287 or 80387 (R50, R643, R663): that of the 80387 makes its error active, which such a processor
reports by IRQ 13 (R641). -/
theorem State.npxWasReset_eq (s : State) : s.npxWasReset = if s.has486 then s else s.withFpu (Fpu.reset s.cfg) := by
  unfold State.npxWasReset State.withFpu State.nativeErrors
  cases s.has486 with
  | true => rfl
  | false =>
    have error : (Fpu.reset s.cfg).status.es = decide (s.cfg.npx = .n387) := rfl
    by_cases raised : s.cfg.npx = .n387 ∧ s.fpu.status.es = false
    · simp [error, raised]
    · have silent : ((Fpu.reset s.cfg).status.es && !s.fpu.status.es) = false := by simpa [error] using raised
      simp only [silent, raised, if_false, Bool.false_and, Bool.false_eq_true]
      rfl

/-- A port other than F0 and F8 to FF is written (R72, R643): F1 is the coprocessor's reset. -/
theorem ioWrite_ok {w : Width} (v : Val w) (h : npxPort port w.bytes = false) :
    ioWrite port w v s = .ok () (s.portWrote port w v) := by
  have notF0 : port ≠ 0xF0#16 := by
    rintro rfl
    cases w <;> exact absurd h (by decide)
  unfold ioWrite State.portWrote
  by_cases reset : port = 0xF1#16
  · rw [if_pos reset, if_pos reset, State.npxWasReset_eq]; rfl
  · simp only [reset, notF0, h, if_false, false_and, and_false, Bool.false_eq_true]
    rfl

theorem inputTo_ok {w : Width} (allowed : s.ioAllows port w.bytes = true) (free : npxPort port w.bytes = false) :
    inputTo w port s = .ok () (s.portRead.regPut w rAX (s.portVal port w)) := by
  simp only [inputTo, M.bind_run, ioPermitted_ok allowed, ioRead_ok free, setReg_regPut]

theorem outputFrom_ok {w : Width} (allowed : s.ioAllows port w.bytes = true) (free : npxPort port w.bytes = false) :
    outputFrom w port s = .ok () (s.portWrote port w (s.reg w rAX)) := by
  simp only [outputFrom, M.bind_run, ioPermitted_ok allowed, getReg_run, ioWrite_ok _ free]

/-- Settles O9: the port is the immediate or DX, and the access is allowed and goes through. -/
theorem portsComplete : Obligations.PortsComplete := by
  intro s w imm port wd allowed free
  have input := complete_ok (inputTo_ok allowed free)
  have output := complete_ok (outputFrom_ok allowed free)
  constructor
  · rintro rfl
    exact ⟨input, output⟩
  · rintro rfl
    exact ⟨input, output⟩

end Sys2Proof.Machine
end

section
/-! Effective addresses in whole numbers (R82, R142 to R144), MOVSX, MOVZX and LEA (R206, R207, R223). -/

namespace Sys2Proof.Machine

/-! Sums of words as sums of whole numbers, of which the word's bits are kept. -/

theorem eq_ofInt_toNat {n : Nat} (x : BitVec n) : x = BitVec.ofInt n x.toNat := by simp

theorem signExtend_eq_ofInt {n : Nat} (m : Nat) (x : BitVec n) : x.signExtend m = BitVec.ofInt m x.toInt := rfl

theorem add_eq_ofInt {n : Nat} {x y : BitVec n} {a b : Int} (hx : x = BitVec.ofInt n a) (hy : y = BitVec.ofInt n b) :
    x + y = BitVec.ofInt n (a + b) := by rw [hx, hy, BitVec.ofInt_add]

theorem add_zero_eq_ofInt {n : Nat} {x : BitVec n} {a : Int} (hx : x = BitVec.ofInt n a) :
    x + 0#n = BitVec.ofInt n a := by rw [BitVec.add_zero, hx]

theorem shiftLeft_eq_ofInt {n : Nat} (x : BitVec n) (k : Nat) :
    x <<< k = BitVec.ofInt n ((2 ^ k : Nat) * x.toNat) := by
  have power : BitVec.twoPow n k = BitVec.ofNat n (2 ^ k) := by
    apply BitVec.eq_of_toNat_eq
    rw [BitVec.toNat_twoPow, BitVec.toNat_ofNat]
  rw [BitVec.ofInt_mul, ← eq_ofInt_toNat, BitVec.ofInt_natCast, ← power, BitVec.mul_comm,
    BitVec.shiftLeft_eq_mul_twoPow]

/-- A 16-bit address is the sum modulo 2^16 (R82). -/
theorem setWidth_of_sum {x : BitVec 16} {a : BitVec 32} {n : Int} (hx : x = BitVec.ofInt 16 n)
    (ha : some (BitVec.ofInt 32 (n % 65536)) = some a) : x.setWidth 32 = a := by
  rw [← Option.some.inj ha, hx]
  apply BitVec.eq_of_toNat_eq
  simp only [BitVec.toNat_setWidth, BitVec.toNat_ofInt]
  omega

/-- A 32-bit address is the sum modulo 2^32 (R82). -/
theorem eq_of_sum {x a : BitVec 32} {n : Int} (hx : x = BitVec.ofInt 32 n)
    (ha : some (BitVec.ofInt 32 (n % 4294967296)) = some a) : x = a := by
  rw [← Option.some.inj ha, hx]
  apply BitVec.eq_of_toNat_eq
  simp only [BitVec.toNat_ofInt]
  omega

/-- The rows of R142 that have BP in their sum. -/
theorem stackRow_iff (r : BitVec 3) :
    (r = 2#3 ∨ r = 3#3 ∨ r = 6#3) ↔ (r.toNat == 2 || r.toNat == 3 || r.toNat == 6) = true := by decide +revert

theorem scale_cases (ss : BitVec 2) : ss = 0#2 ∨ ss = 1#2 ∨ ss = 2#2 ∨ ss = 3#2 := by decide +revert

theorem noIndexScaled_iff (ss : BitVec 2) (i : BitVec 3) : noIndexScaled ss i = true ↔ i = 4#3 ∧ ss ≠ 0#2 := by
  simp [noIndexScaled]

/-- Where an index is scaled, or there is none, the address is that of the table (R144). -/
theorem State.ea_sib (s : State) {ss : BitVec 2} {i : BitVec 3} (b : RegNum) (d : Disp)
    (h : ¬ (i = 4#3 ∧ ss ≠ 0#2)) : s.ea (.sib ss i b d) = s.reg .w32 b + s.scaled ss i + Disp.val32 d :=
  if_neg (mt (noIndexScaled_iff ss i).1 h)

theorem State.ea_sibNoBase (s : State) {ss : BitVec 2} {i : BitVec 3} (d : BitVec 32) (h : ¬ (i = 4#3 ∧ ss ≠ 0#2)) :
    s.ea (.sibNoBase ss i d) = s.scaled ss i + d := if_neg (mt (noIndexScaled_iff ss i).1 h)

/-- Settles O2: each form's address is the sum of its table, part by part; an index of 100 with ss not 00 has none. -/
theorem extendCompletes : Obligations.ExtendCompletes := by
  intro s w reg rm mem x16 x32 sum16 scaled at16 at32 offset stackBased segment
  have lea : exec (.lea reg mem) s = .next (s.regPut s.os.width reg ((s.ea mem).setWidth s.os.width.bits)).advance :=
    complete_ok (setReg_regPut _ _ _ s)
  have usual : MemOp.defaultSeg mem = if stackBased then .ss else .ds := by
    cases mem with
    | a16 r d => simp only [MemOp.defaultSeg, stackBased, stackRow_iff]
    | direct16 | direct32 | sibNoBase => rfl
    | a32 b d => simp [MemOp.defaultSeg, stackBased]
    | sib ss i b d => simp [MemOp.defaultSeg, stackBased]
  have base (r : BitVec 3) : s.base16 r = BitVec.ofInt 16 (sum16 r) := by
    have one (i : RegNum) := eq_ofInt_toNat (s.reg .w16 i)
    have two (i j : RegNum) := add_eq_ofInt (one i) (one j)
    exact regNum_cases (motive := fun r => s.base16 r = BitVec.ofInt 16 (sum16 r))
      (two _ _) (two _ _) (two _ _) (two _ _) (one _) (one _) (one _) (one _) r
  have index (ss : BitVec 2) (i : BitVec 3) : s.scaled ss i = BitVec.ofInt 32 (scaled ss i) := by
    by_cases none : i = 4#3
    · simp only [State.scaled, scaled, if_pos none]
      rfl
    · simp only [State.scaled, scaled, if_neg none, shiftLeft_eq_ofInt]
      obtain rfl | rfl | rfl | rfl := scale_cases ss <;> simp [x32]
  have address (a : BitVec 32) (ha : offset = some a) : s.ea mem = a := by
    cases mem with
    | a16 r d =>
      cases d with
      | none => exact setWidth_of_sum (add_zero_eq_ofInt (base r)) ha
      | d8 v => exact setWidth_of_sum (add_eq_ofInt (base r) (signExtend_eq_ofInt 16 v)) ha
      | d16 v => exact setWidth_of_sum (add_eq_ofInt (base r) (eq_ofInt_toNat v)) ha
      | d32 v => exact nomatch ha
    | direct16 v => exact setWidth_of_sum (eq_ofInt_toNat v) ha
    | a32 b d =>
      have value := eq_ofInt_toNat (s.reg .w32 b)
      cases d with
      | none => exact eq_of_sum (add_zero_eq_ofInt value) ha
      | d8 v => exact eq_of_sum (add_eq_ofInt value (signExtend_eq_ofInt 32 v)) ha
      | d16 v => exact nomatch ha
      | d32 v => exact eq_of_sum (add_eq_ofInt value (eq_ofInt_toNat v)) ha
    | direct32 v => exact eq_of_sum (eq_ofInt_toNat v) ha
    | sib ss i b d =>
      by_cases undefined : i = 4#3 ∧ ss ≠ 0#2
      · exact nomatch (if_pos undefined).symm.trans ha
      have ha := (if_neg undefined).symm.trans ha
      have sum := add_eq_ofInt (eq_ofInt_toNat (s.reg .w32 b)) (index ss i)
      rw [s.ea_sib b d undefined]
      cases d with
      | none => exact eq_of_sum (add_zero_eq_ofInt sum) ha
      | d8 v => exact eq_of_sum (add_eq_ofInt sum (signExtend_eq_ofInt 32 v)) ha
      | d16 v => exact nomatch ha
      | d32 v => exact eq_of_sum (add_eq_ofInt sum (eq_ofInt_toNat v)) ha
    | sibNoBase ss i v =>
      by_cases undefined : i = 4#3 ∧ ss ≠ 0#2
      · exact nomatch (if_pos undefined).symm.trans ha
      rw [s.ea_sibNoBase v undefined]
      exact eq_of_sum (add_eq_ofInt (index ss i) (eq_ofInt_toNat v)) ((if_neg undefined).symm.trans ha)
  refine ⟨?_, fun a ha => ?_, fun reads => ?_, lea⟩
  · unfold State.memSeg
    rw [usual]
    simp only [segment]
    cases s.cur.seg <;> rfl
  · rw [← address a ha]
    exact ⟨rfl, lea⟩
  · exact ⟨complete_ok (readRM_setReg_ok reg _ reads), complete_ok (readRM_setReg_ok reg _ reads)⟩

end Sys2Proof.Machine
end

section
/-! The flag instructions, LAHF and SAHF (R240 to R242, R244, R245, R248 to R251). -/

namespace Sys2Proof.Machine

/-- The low byte of FLAGS (R28, R245), written from bit 7 down. -/
theorem Flags.word_lowByte (f : Flags) : f.word.extractLsb' 0 8 =
    BitVec.ofBool f.sf ++ BitVec.ofBool f.zf ++ 0#1 ++ BitVec.ofBool f.af ++ 0#1 ++ BitVec.ofBool f.pf ++ 1#1 ++
    BitVec.ofBool f.cf := by
  apply BitVec.eq_of_getLsbD_eq
  intro i hi
  simp only [Flags.word, BitVec.getLsbD_extractLsb', BitVec.getLsbD_or, getLsbD_place, BitVec.getLsbD_append,
    BitVec.getLsbD_shiftLeft]
  interval_cases i <;> simp

/-- Where CLI and STI are allowed (R242, R627). -/
theorem ioplSensitive_ok {s : State} (h : s.sys.cr0.pe = false ∨ s.cpl.toNat ≤ s.flags.iopl.toNat) :
    ioplSensitive s = .ok () s := by
  have pass : (s.sys.cr0.pe && decide (s.flags.iopl.toNat < s.cpl.toNat)) = false := by
    obtain mode | level := h
    · simp [mode]
    · simp [Nat.not_lt.mpr level]
  simp only [ioplSensitive, M.bind_run, getS_run, pass]
  rfl

/-- STI opens no shadow where IF was set, and none behind another shadow (R620). -/
theorem shadowSti_closed {wasSet : Bool} {s : State} (h : wasSet = true ∨ s.ctl.prevShadow ≠ .none) :
    shadowSti wasSet s = .ok () s := by
  have kept : (!wasSet && s.ctl.prevShadow == .none) = false := by
    obtain set | chained := h
    · simp [set]
    · simp [chained]
  rw [shadowSti, updCtl_run, kept]
  rfl

/-- STI opens the shadow where IF was clear and the instruction before opened none (R620). -/
theorem shadowSti_opens {wasSet : Bool} {s : State} (clear : wasSet = false) (first : s.ctl.prevShadow = .none) :
    shadowSti wasSet s = .ok () (s.setCtl { s.ctl with shadow := .sti }) := by
  have opened : (!wasSet && s.ctl.prevShadow == .none) = true := by simp [clear, first]
  rw [shadowSti, updCtl_run, if_pos opened]

/-- Settles O34: each instruction is one change of flags or of AH; those of CLI and STI come behind the test of IOPL,
and the shadow of STI depends on IF and on the shadow before it. -/
theorem flagInstructions : Obligations.FlagInstructions := by
  intro s ah f
  have lahf : exec .lahf s = .next (s.regPut .w8 rAH (s.flags.word.extractLsb' 0 8)).advance :=
    complete_ok (setReg_regPut _ _ _ s)
  rw [Flags.word_lowByte] at lahf
  refine ⟨complete_ok rfl, complete_ok rfl, complete_ok rfl, complete_ok rfl, complete_ok rfl, lahf, complete_ok rfl,
    fun allowed => ⟨complete_ok ?_, fun closed => complete_ok ?_, fun clear first => complete_ok ?_⟩⟩
  · simp only [M.bind_run, ioplSensitive_ok allowed, updFlags_run, f]
  · have shadow : shadowSti f.ie (s.setFlags { f with ie := true }) = .ok () _ := shadowSti_closed closed
    simp only [M.bind_run, ioplSensitive_ok allowed, updFlags_run, shadow, f]
  · have shadow : shadowSti f.ie (s.setFlags { f with ie := true }) = .ok () _ := shadowSti_opens clear first
    simp only [M.bind_run, ioplSensitive_ok allowed, updFlags_run, shadow, f]
    rfl

end Sys2Proof.Machine
end

section
/-! The two-operand operations (R261 to R267, R310 to R313), INC, DEC, NEG, NOT and TEST (R263, R266, R268, R311, R314):
their operands are read, the result is computed with its flags, and it is written where the operation writes one. -/

namespace Sys2Proof.Machine

variable {s : State}

/-! What a write of an operand leaves. -/

@[simp] theorem State.memPut_flags (w : Width) (k : SReg) (off : BitVec 32) (v : Val w) :
    (s.memPut w k off v).flags = s.flags := by simp [State.memPut]

@[simp] theorem State.rmPut_flags (w : Width) (rm : RM) (v : Val w) : (s.rmPut w rm v).flags = s.flags := by
  cases rm with
  | reg r => rfl
  | mem m => exact State.memPut_flags w _ _ v

/-- Of a register and an operand that can be read, each can be read. -/
theorem State.rmReads_ite {w : Width} {reg : RegNum} {rm : RM} (d : Bool) (h : s.rmReads w rm = true) :
    s.rmReads w (if d then .reg reg else rm) = true ∧ s.rmReads w (if d then rm else .reg reg) = true := by
  cases d
  · exact ⟨h, rfl⟩
  · exact ⟨rfl, h⟩

/-! The eight operations. -/

theorem exec_aluRmReg (op : AluOp) (d w : Bool) (reg : RegNum) (rm : RM) (s : State) :
    exec (op.rmReg d w reg rm) s = complete (aluRmReg op d w reg rm) s := by cases op <;> rfl

theorem exec_aluRmImm (op : AluOp) (sx w : Bool) (rm : RM) (imm : Imm) (s : State) :
    exec (op.rmImm sx w rm imm) s = complete (aluRmImm op w rm imm) s := by cases op <;> rfl

theorem exec_aluAccImm (op : AluOp) (w : Bool) (imm : Imm) (s : State) :
    exec (op.accImm w imm) s = complete (aluRmImm op w (.reg rAX) imm) s := by cases op <;> rfl

theorem aluStore_ok {op : AluOp} {w : Width} {dst : RM} (r : Val w)
    (h : op.writes = true → s.rmWrites w dst = true) :
    aluStore op w dst r s = .ok () (if op.writes then s.rmPut w dst r else s) := by
  unfold aluStore
  by_cases writes : op.writes = true
  · rw [if_pos writes, if_pos writes, writeRM_ok r (h writes)]
  · rw [if_neg writes, if_neg writes, M.pure_run]

/-- The state after an operation on `dst` and a second operand `b`: the flags, and the result where there is one. -/
def State.aluDone (s : State) (op : AluOp) (w : Width) (dst : RM) (b : Val w) : State :=
  let o := op.out (s.rmVal w dst) b s.flags.cf (if op.logic then Config.freeBit s.draws else false)
  let t := s.flagged (s.flags.status o) (if op.logic then 1 else 0)
  if op.writes then t.rmPut w dst o.r else t

/-- The status flags decide no access. -/
theorem State.flagged_status_rmWrites (s : State) {n : Nat} (o : AluOut n) (k : Nat) (w : Width) (rm : RM) :
    (s.flagged (s.flags.status o) k).rmWrites w rm = s.rmWrites w rm :=
  (sameAccess_flagged s (s.flags.status o) k rfl rfl).rmWrites rfl rfl w rm

theorem aluCompute_aluStore_ok {op : AluOp} {w : Width} {dst : RM} (b : Val w)
    (h : op.writes = true → s.rmWrites w dst = true) :
    (aluCompute op (s.rmVal w dst) b >>= aluStore op w dst) s = .ok () (s.aluDone op w dst b) := by
  simp only [M.bind_run, aluCompute_run]
  exact aluStore_ok _ fun writes => (s.flagged_status_rmWrites _ _ w dst).trans (h writes)

theorem aluRmReg_ok {op : AluOp} {d w : Bool} {reg : RegNum} {rm : RM} (reads : s.rmReads (s.opW w) rm = true)
    (writes : op.writes = true → d = false → s.rmWrites (s.opW w) rm = true) :
    aluRmReg op d w reg rm s = .ok () (s.aluDone op (s.opW w) (if d then .reg reg else rm)
      (s.rmVal (s.opW w) (if d then rm else .reg reg))) := by
  obtain ⟨dst, src⟩ := State.rmReads_ite (reg := reg) d reads
  have writable : op.writes = true → s.rmWrites (s.opW w) (if d then .reg reg else rm) = true := by
    cases d with
    | false => exact fun h => writes h rfl
    | true => exact fun _ => rfl
  rw [← aluCompute_aluStore_ok _ writable]
  simp only [aluRmReg, M.bind_run, getS_run, readRM_ok dst, readRM_ok src]

theorem aluRmImm_ok {op : AluOp} {w : Bool} {rm : RM} (imm : Imm) (reads : s.rmReads (s.opW w) rm = true)
    (writes : op.writes = true → s.rmWrites (s.opW w) rm = true) :
    aluRmImm op w rm imm s = .ok () (s.aluDone op (s.opW w) rm (Imm.val (s.opW w) imm)) := by
  rw [← aluCompute_aluStore_ok _ writes]
  simp only [aluRmImm, M.bind_run, getS_run, readRM_ok reads]

/-- Settles O11: each row is its operation on the operands that d selects. -/
theorem aluRegisterForms : Obligations.AluRegisterForms := by
  intro op s d w reg rm wd dst src o t reads writes
  rw [exec_aluRmReg]
  exact complete_ok (aluRmReg_ok reads writes)

/-- Settles O12: the accumulator is a register operand. -/
theorem aluImmediateForms : Obligations.AluImmediateForms := by
  intro op s sx w rm imm wd res
  rw [exec_aluRmImm, exec_aluAccImm]
  exact ⟨fun reads writes => complete_ok (aluRmImm_ok imm reads writes),
    complete_ok (aluRmImm_ok (rm := .reg rAX) imm rfl fun _ => rfl)⟩

/-! INC, DEC, NEG, NOT and TEST. -/

/-- An operand takes a value computed from it. -/
theorem readRM_writeRM_ok {w : Width} {rm : RM} (f : Val w → Val w) (h : s.rmBoth w rm = true) :
    (readRM w rm >>= fun a => writeRM w rm (f a)) s = .ok () (s.rmPut w rm (f (s.rmVal w rm))) := by
  obtain ⟨reads, writes⟩ := Bool.and_eq_true_iff.1 h
  simp only [M.bind_run, readRM_ok reads, writeRM_ok _ writes]

/-- An operand takes the result of an operation on it, and the flags follow. -/
theorem readRM_writeRM_updFlags_ok {w : Width} {rm : RM} (f : Val w → AluOut w.bits)
    (g : Flags → AluOut w.bits → Flags) (h : s.rmBoth w rm = true) :
    (do
      let a ← readRM w rm
      writeRM w rm (f a).r
      updFlags (g · (f a))) s =
    .ok () ((s.rmPut w rm (f (s.rmVal w rm)).r).setFlags (g s.flags (f (s.rmVal w rm)))) := by
  obtain ⟨reads, writes⟩ := Bool.and_eq_true_iff.1 h
  simp only [M.bind_run, readRM_ok reads, writeRM_ok _ writes, updFlags_run, State.rmPut_flags]

theorem incDec_ok {w : Width} {rm : RM} (dec : Bool) (h : s.rmBoth w rm = true) :
    let o := if dec then subN (s.rmVal w rm) 1 false else addN (s.rmVal w rm) 1 false
    incDec w dec rm s = .ok () ((s.rmPut w rm o.r).setFlags (s.flags.statusKeepCf o)) :=
  readRM_writeRM_updFlags_ok (fun a => if dec then subN a 1 false else addN a 1 false) Flags.statusKeepCf h

theorem testWith_ok {w : Width} {rm : RM} (b : Val w) (h : s.rmReads w rm = true) :
    testWith w rm b s =
      .ok () (s.flagged (s.flags.status (logicN (s.rmVal w rm &&& b) (Config.freeBit s.draws))) 1) := by
  simp only [testWith, M.bind_run, readRM_ok h, aluCompute_run]
  rfl

/-- Settles O14: INC, DEC, NEG and NOT write what they compute from their operand, TEST only the flags of the AND. -/
theorem unaryFormsComplete : Obligations.UnaryFormsComplete := by
  intro s w reg rm imm wd ow inc test
  refine ⟨fun both => ⟨complete_ok (incDec_ok false both), complete_ok (incDec_ok true both),
      complete_ok (readRM_writeRM_updFlags_ok (subN 0 · false) Flags.status both),
      complete_ok (readRM_writeRM_ok (~~~ ·) both)⟩,
    complete_ok (incDec_ok (rm := .reg reg) false rfl), complete_ok (incDec_ok (rm := .reg reg) true rfl),
    fun reads => ⟨complete_ok (testWith_ok _ reads), complete_ok (testWith_ok _ reads)⟩,
    complete_ok (testWith_ok (rm := .reg rAX) _ rfl)⟩

end Sys2Proof.Machine
end

section
/-! Sums, differences and their flags in whole numbers (R260 to R267, R310 to R313). -/

namespace Sys2Proof.Machine

/-! Zero, sign and parity of a result. -/

theorem zfOf_iff {n : Nat} (r : BitVec n) : zfOf r = true ↔ r.toNat = 0 := by
  rw [zfOf, beq_iff_eq, ← BitVec.toNat_inj, BitVec.toNat_zero]

theorem sfOf_iff {n : Nat} (r : BitVec n) : sfOf r = true ↔ r.toInt < 0 := by
  rw [sfOf, BitVec.msb_eq_toInt, decide_eq_true_iff]

/-- The exclusive or of bits tells whether an even number of them is set. -/
theorem even_filter_length (f : Nat → Bool) (l : List Nat) :
    decide ((l.filter f).length % 2 = 0) = !l.foldl (fun b i => b ^^ f i) false := by
  rw [← List.foldr_reverse, ← List.length_reverse, ← List.filter_reverse]
  induction l.reverse with
  | nil => rfl
  | cons i l ih =>
    cases h : f i
    · rw [List.filter_cons_of_neg (by simp [h]), List.foldr_cons, ih, h, Bool.xor_false]
    · rw [List.filter_cons_of_pos h, List.foldr_cons, h, Bool.xor_true, ← ih, List.length_cons, ← decide_not,
        decide_eq_decide]
      omega

theorem pfOf_iff {n : Nat} (r : BitVec n) :
    pfOf r = true ↔ ((List.range 8).filter (fun i => r.getLsbD i)).length % 2 = 0 := by
  have bits : pfOf r = !(List.range 8).foldl (fun b i => b ^^ r.getLsbD i) false := by
    simp [pfOf, parity8, bitOf, List.range_succ]
  rw [bits, ← even_filter_length, decide_eq_true_iff]

/-- ZF, SF and PF are those of the result (R260). -/
def AluOut.flagsResult {n : Nat} (o : AluOut n) : Prop :=
  (o.zf = true ↔ o.r.toNat = 0) ∧ (o.sf = true ↔ o.r.toInt < 0) ∧
    (o.pf = true ↔ ((List.range 8).filter (fun i => o.r.getLsbD i)).length % 2 = 0)

section

variable {n : Nat} (a b : BitVec n) (c : Bool)

theorem addN_flagsResult : (addN a b c).flagsResult := ⟨zfOf_iff _, sfOf_iff _, pfOf_iff _⟩
theorem subN_flagsResult : (subN a b c).flagsResult := ⟨zfOf_iff _, sfOf_iff _, pfOf_iff _⟩
theorem logicN_flagsResult : (logicN a c).flagsResult := ⟨zfOf_iff _, sfOf_iff _, pfOf_iff _⟩

/-! Sums and differences. -/

theorem carry_le_one : carry c ≤ 1 := by cases c <;> decide

theorem addN_exact : (addN a b c).r.toNat + (if (addN a b c).cf then 2 ^ n else 0) = a.toNat + b.toNat + carry c := by
  have ha := a.isLt
  have hb := b.isLt
  have hc := carry_le_one c
  simp only [addN, BitVec.toNat_ofNat, decide_eq_true_iff]
  split
  · rw [Nat.mod_eq_sub_mod ‹_›, Nat.mod_eq_of_lt (by omega)]
    omega
  · rw [Nat.mod_eq_of_lt (by omega), Nat.add_zero]

/-- A difference and what was taken add up to what it was taken from. -/
theorem addN_subN : (addN (subN a b c).r b c).r = a := by
  have sum : (addN (subN a b c).r b c).r = (subN a b c).r + b + BitVec.ofNat n (carry c) := by
    apply BitVec.eq_of_toNat_eq
    simp [addN]
  rw [sum, subN, sub_right_comm, BitVec.sub_add_cancel, BitVec.sub_add_cancel]

theorem subN_exact : (subN a b c).r.toNat + b.toNat + carry c = a.toNat + (if (subN a b c).cf then 2 ^ n else 0) := by
  have sum := addN_exact (subN a b c).r b c
  have ha := a.isLt
  have hr := (subN a b c).r.isLt
  have hc := carry_le_one c
  have hb := b.isLt
  have hcf : (subN a b c).cf = true ↔ a.toNat < b.toNat + carry c := decide_eq_true_iff
  rw [addN_subN] at sum
  simp only [hcf]
  split at sum <;> split <;> omega

/-! Signed overflow: the sign bit is the half of the range that a value lies in. -/

/-- A word is negative where it lies in the upper half of the range. -/
theorem toInt_eq_half {m : Nat} (x : BitVec (m + 1)) :
    x.toInt = if 2 ^ m ≤ x.toNat then (x.toNat : Int) - 2 * (2 ^ m : Nat) else x.toNat := by
  rw [BitVec.toInt_eq_msb_cond, BitVec.msb_eq_decide, Nat.pow_succ', Nat.add_sub_cancel]
  simp only [decide_eq_true_iff, Nat.cast_mul, Nat.cast_ofNat]

theorem addN_ovf_iff (pos : 0 < n) :
    (addN a b c).ovf = true ↔ a.toInt + b.toInt + carry c ≠ (addN a b c).r.toInt := by
  obtain ⟨m, rfl⟩ := Nat.exists_eq_succ_of_ne_zero pos.ne'
  have sum := addN_exact a b c
  have flag : (addN a b c).ovf = (a.msb == b.msb && (addN a b c).r.msb != a.msb) := rfl
  simp only [flag, toInt_eq_half, BitVec.msb_eq_decide, Bool.and_eq_true, beq_iff_eq, bne_iff_ne, ne_eq,
    decide_eq_decide]
  have ha := a.isLt
  have hb := b.isLt
  have hr := (addN a b c).r.isLt
  have hc := carry_le_one c
  simp only [Nat.succ_sub_one, Nat.pow_succ] at *
  generalize 2 ^ m = half at *
  split at sum <;> omega

/-- Where the difference leaves the range, so does the sum that takes it back: the signs of the three decide. -/
theorem subN_ovf_eq : (subN a b c).ovf = (addN (subN a b c).r b c).ovf := by
  have taken : (subN a b c).ovf = (a.msb != b.msb && (subN a b c).r.msb != a.msb) := rfl
  have back : (addN (subN a b c).r b c).ovf =
      ((subN a b c).r.msb == b.msb && (addN (subN a b c).r b c).r.msb != (subN a b c).r.msb) := rfl
  rw [taken, back, addN_subN]
  cases a.msb <;> cases b.msb <;> cases (subN a b c).r.msb <;> rfl

theorem subN_ovf_iff (pos : 0 < n) :
    (subN a b c).ovf = true ↔ a.toInt - b.toInt - carry c ≠ (subN a b c).r.toInt := by
  rw [subN_ovf_eq, addN_ovf_iff _ _ _ pos, addN_subN]
  omega

theorem carry_cast : (carry c : Int) = if c then 1 else 0 := by cases c <;> rfl

theorem addN_af_iff : (addN a b c).af = true ↔ 16 ≤ a.toNat % 16 + b.toNat % 16 + carry c := decide_eq_true_iff

theorem subN_af_iff : (subN a b c).af = true ↔ a.toNat % 16 < b.toNat % 16 + carry c := decide_eq_true_iff

end

/-- Settles O13: sums, differences and their carries are exact in whole numbers, from which signed overflow follows by
the halves of the range; ZF, SF and PF of every operation are those of its result. -/
theorem addSubFlags : Obligations.AddSubFlags := by
  intro w a b c af s d zsp bitwise
  have pos : 0 < w.bits := by cases w <;> decide
  exact ⟨addN_exact a b c, subN_exact a b c, carry_cast c ▸ addN_ovf_iff a b c pos,
    carry_cast c ▸ subN_ovf_iff a b c pos, addN_flagsResult a b c, subN_flagsResult a b c, addN_af_iff a b c,
    subN_af_iff a b c, rfl, rfl, rfl, rfl, rfl,
    ⟨fun _ _ => BitVec.getLsbD_and, rfl, rfl, rfl, logicN_flagsResult _ af⟩,
    ⟨fun _ _ => BitVec.getLsbD_or, rfl, rfl, rfl, logicN_flagsResult _ af⟩,
    ⟨fun _ _ => BitVec.getLsbD_xor, rfl, rfl, rfl, logicN_flagsResult _ af⟩⟩

end Sys2Proof.Machine
end

section
/-! MUL, IMUL, DIV and IDIV (R273 to R278): a double-width result in the accumulator or in the accumulator and DX, and
flags that are free values. -/

namespace Sys2Proof.Machine

variable {s : State}

/-- The state after a double-width result is written: AX, DX:AX or EDX:EAX (R273). -/
def State.pairPut (s : State) (w : Width) (hi lo : Val w) : State :=
  match w, hi, lo with
  | .w8, hi, lo => s.regPut .w16 rAX (hi ++ lo)
  | .w16, hi, lo => (s.regPut .w16 rDX hi).regPut .w16 rAX lo
  | .w32, hi, lo => (s.regPut .w32 rDX hi).regPut .w32 rAX lo

theorem setPair_run (w : Width) (hi lo : Val w) (s : State) : setPair w hi lo s = .ok () (s.pairPut w hi lo) := by
  cases w <;> rfl

@[simp] theorem State.pairPut_flags (s : State) (w : Width) (hi lo : Val w) : (s.pairPut w hi lo).flags = s.flags := by
  cases w <;> rfl

/-- What is done with an operand that can be read is done with its value. -/
theorem readRM_bind_ok {α : Type} {w : Width} {rm : RM} (f : Val w → M α) (h : s.rmReads w rm = true) :
    (readRM w rm >>= f) s = f (s.rmVal w rm) s := by rw [M.bind_run, readRM_ok h]

/-! Multiplication. -/

/-- An instruction that leaves its registers as in `t`, CF and OF as given, and the other status flags free. -/
theorem complete_mulFlags {m : M Unit} {c : Bool} {t : State} (run : m s = mulFlags c t) (flags : t.flags = s.flags) :
    ∃ f : Flags, f.sameControl s.flags = true ∧ f.cf = c ∧ f.ovf = c ∧
      complete m s = .next (t.flagged f 4).advance := by
  obtain ⟨f, control, cf, ovf, ends⟩ := mulFlags_run c t
  exact ⟨f, flags ▸ control, cf, ovf, complete_ok (run.trans ends)⟩

theorem setPair_mulFlags_run (w : Width) (hi lo : Val w) (c : Bool) (s : State) :
    (setPair w hi lo >>= fun _ => mulFlags c) s = mulFlags c (s.pairPut w hi lo) := by
  rw [M.bind_run, setPair_run]

theorem imulTo_run (w : Width) (reg : RegNum) (a b : Val w) (s : State) : imulTo w reg a b s =
    mulFlags (decide (a.toInt * b.toInt ≠ (BitVec.ofInt w.bits (a.toInt * b.toInt)).toInt))
      (s.regPut w reg (BitVec.ofInt w.bits (a.toInt * b.toInt))) := by
  simp only [imulTo, M.bind_run, setReg_regPut]

/-- Settles O17: each form reads its operand, writes the product and sets CF and OF. -/
theorem multiplyCompletes : Obligations.MultiplyCompletes := by
  intro s w sx reg rm imm wd ow wide ends p q put cut
  have kept (hi lo : Val wd) : (wide hi lo).flags = s.flags := s.pairPut_flags wd hi lo
  refine ⟨fun reads => ⟨complete_mulFlags ?_ (kept _ _), complete_mulFlags ?_ (kept _ _)⟩,
    fun reads => ⟨complete_mulFlags ?_ rfl, complete_mulFlags ?_ rfl⟩⟩
  · exact (readRM_bind_ok _ reads).trans (setPair_mulFlags_run wd _ _ _ s)
  · exact (readRM_bind_ok _ reads).trans (setPair_mulFlags_run wd _ _ _ s)
  · exact (readRM_bind_ok _ reads).trans (imulTo_run ow reg _ _ s)
  · exact (readRM_bind_ok _ reads).trans (imulTo_run ow reg _ _ s)

/-! Division. -/

theorem complete_undefStatus {m : M Unit} {t : State} (run : m s = undefStatus t) (flags : t.flags = s.flags) :
    ∃ f : Flags, f.sameControl s.flags = true ∧ complete m s = .next (t.flagged f 6).advance := by
  obtain ⟨f, control, ends⟩ := undefStatus_run t
  exact ⟨f, flags ▸ control, complete_ok (run.trans ends)⟩

/-- #DE is taken from the state before the instruction, with its address (R601). -/
theorem complete_raiseDE {m : M Unit} (run : m s = raiseDE s) :
    complete m s = deliver ⟨0#8, .fault, s.eip, none⟩ s := by
  rw [complete_exc (run.trans (raiseExc_run _ _ s)), restore_self]
  rfl

/-- The end of a division: #DE under `p`, else quotient and remainder. -/
def divideEnd (p : Prop) [Decidable p] (w : Width) (quot rem : Val w) : M Unit :=
  if p then raiseDE
  else do
    setQuotRem w quot rem
    undefStatus

section

variable {p : Prop} [Decidable p] (w : Width) (quot rem : Val w)

theorem divideEnd_raises (h : p) : divideEnd p w quot rem s = raiseDE s := by rw [divideEnd, if_pos h]

theorem divideEnd_goes (h : ¬ p) : divideEnd p w quot rem s = undefStatus (s.pairPut w rem quot) := by
  rw [divideEnd, if_neg h, M.bind_run, setQuotRem, setPair_run]

end

theorem exec_div (w : Bool) (rm : RM) (s : State) : exec (.div w rm) s = complete (do
    let b ← readRM (s.opW w) rm
    divideEnd (b.toNat = 0 ∨ 2 ^ (s.opW w).bits ≤ s.pair (s.opW w) / b.toNat) (s.opW w)
      (BitVec.ofNat _ (s.pair (s.opW w) / b.toNat)) (BitVec.ofNat _ (s.pair (s.opW w) % b.toNat))) s := rfl

theorem exec_idiv (w : Bool) (rm : RM) (s : State) : exec (.idiv w rm) s = complete (do
    let b ← readRM (s.opW w) rm
    let q := (s.signedPair (s.opW w)).tdiv b.toInt
    divideEnd (b.toInt = 0 ∨ q < -(2 ^ ((s.opW w).bits - 1) : Nat) ∨ (2 ^ ((s.opW w).bits - 1) : Nat) ≤ q) (s.opW w)
      (BitVec.ofInt _ q) (BitVec.ofInt _ ((s.signedPair (s.opW w)).tmod b.toInt))) s := rfl

/-- Settles O18: the divisor is read, and its quotient decides between #DE and the two registers. -/
theorem divideCompletes : Obligations.DivideCompletes := by
  intro s w rm wd wide n d m e reads
  have kept (hi lo : Val wd) : (wide hi lo).flags = s.flags := s.pairPut_flags wd hi lo
  have read (f : Val wd → M Unit) : (readRM wd rm >>= f) s = f (s.rmVal wd rm) s := readRM_bind_ok f reads
  rw [exec_div, exec_idiv]
  refine ⟨fun divisor fits => complete_undefStatus ((read _).trans (divideEnd_goes wd _ _ ?_)) (kept _ _),
    fun divisor low high => complete_undefStatus ((read _).trans (divideEnd_goes wd _ _ ?_)) (kept _ _),
    fun fault => complete_raiseDE ((read _).trans (divideEnd_raises wd _ _ fault)),
    fun fault => complete_raiseDE ((read _).trans (divideEnd_raises wd _ _ fault))⟩
  · exact not_or.2 ⟨divisor, Nat.not_le.2 fits⟩
  · exact not_or.2 ⟨divisor, not_or.2 ⟨Int.not_lt.2 low, Int.not_le.2 high⟩⟩

end Sys2Proof.Machine
end

section
/-! The decimal adjustments and the conversions (R269 to R272, R279 to R282). -/

namespace Sys2Proof.Machine

variable (s : State)

/-! AX and its halves (R21). -/

theorem State.reg_al : (s.reg .w16 rAX : BitVec 16).extractLsb' 0 8 = s.reg .w8 rAL :=
  extractLsb'_within (s.gpr.get rAX) (by decide)

theorem State.reg_ah : (s.reg .w16 rAX : BitVec 16).extractLsb' 8 8 = s.reg .w8 rAH :=
  extractLsb'_within (s.gpr.get rAX) (by decide)

theorem State.reg_al_digit :
    ((s.reg .w16 rAX : BitVec 16).extractLsb' 0 4).toNat = (s.reg .w8 rAL : BitVec 8).toNat % 16 := by
  have digit := extractLsb'_within (s.reg .w16 rAX : BitVec 16) (show 0 + 4 ≤ 8 by decide) (base := 0)
  rw [← digit, s.reg_al, BitVec.extractLsb'_toNat]
  rfl

/-- The high byte and the low digit of a word are what the mask keeps. -/
theorem lowDigit_eq_and (v : BitVec 16) : v.extractLsb' 8 8 ++ (0#4 ++ v.extractLsb' 0 4) = v &&& 0xFF0F#16 := by
  apply BitVec.eq_of_getLsbD_eq
  intro i hi
  rw [BitVec.getLsbD_and, BitVec.getLsbD_append, BitVec.getLsbD_append]
  simp only [BitVec.getLsbD_extractLsb']
  interval_cases i <;> simp

/-! AAA and AAS. -/

/-- AX after AAA or AAS (R269, R270). -/
def State.asciiResult (sub : Bool) : BitVec 16 :=
  if decide (9 < (s.reg .w8 rAL : BitVec 8).toNat % 16) || s.flags.af then
    asciiAdjusted s.has386 (s.reg .w16 rAX) sub
  else s.reg .w16 rAX

theorem complete_asciiAdjust (sub : Bool) :
    let adj := decide (9 < (s.reg .w8 rAL : BitVec 8).toNat % 16) || s.flags.af
    ∃ f : Flags, f.sameControl s.flags = true ∧ f.af = adj ∧ f.cf = adj ∧ complete (asciiAdjust sub) s =
      .next ((s.regPut .w16 rAX (s.asciiResult sub &&& 0xFF0F#16)).flagged f 4).advance := by
  intro adj
  refine ⟨{ s.flags with
    af := adj, cf := adj, pf := Config.freeBit s.draws, zf := Config.freeBit (s.draws + 1)
    sf := Config.freeBit (s.draws + 2), ovf := Config.freeBit (s.draws + 3) }, ?_, rfl, rfl, complete_ok ?_⟩
  · rw [sameControl_iff]
    exact ⟨rfl, rfl, rfl, rfl, rfl, rfl, rfl, rfl⟩
  · rw [← lowDigit_eq_and]
    simp only [asciiAdjust, M.bind_run, getS_run, setReg_regPut, drawBit_run, updFlags_run, s.reg_al_digit]
    rfl

theorem asciiAdjusted_add : asciiAdjusted s.has386 (s.reg .w16 rAX) false =
    if s.has386 then s.reg .w16 rAX + 0x0106#16 else (s.reg .w8 rAH + 1#8) ++ (s.reg .w8 rAL + 6#8) := by
  simp only [asciiAdjusted, s.reg_al, s.reg_ah]
  rfl

theorem asciiAdjusted_sub : asciiAdjusted s.has386 (s.reg .w16 rAX) true =
    if s.has386 then s.reg .w16 rAX - 0x0106#16 else (s.reg .w8 rAH - 1#8) ++ (s.reg .w8 rAL - 6#8) := by
  simp only [asciiAdjusted, s.reg_al, s.reg_ah, BitVec.sub_sub]
  rfl

/-! DAA, DAS, AAD and AAM. -/

theorem complete_decimalAdjust (f : BitVec 8 → Bool → Bool → BitVec 8 × Bool × Bool) :
    let o := f (s.reg .w8 rAL) s.flags.af s.flags.cf
    ∃ g : Flags, g.sameControl s.flags = true ∧ g.af = o.2.1 ∧ g.cf = o.2.2 ∧ g.zf = zfOf o.1 ∧ g.sf = sfOf o.1 ∧
      g.pf = pfOf o.1 ∧ complete (decimalAdjust f) s = .next ((s.regPut .w8 rAL o.1).flagged g 1).advance := by
  intro o
  refine ⟨{ s.flags.zsp o.1 with af := o.2.1, cf := o.2.2, ovf := Config.freeBit s.draws }, ?_, rfl, rfl, rfl, rfl, rfl,
    complete_ok rfl⟩
  rw [sameControl_iff]
  exact ⟨rfl, rfl, rfl, rfl, rfl, rfl, rfl, rfl⟩

/-- A result goes to AX, and the flags follow the new AL (R279, R280). -/
theorem complete_asciiFlags (v : BitVec 16) (al : BitVec 8) :
    ∃ f : Flags, f.sameControl s.flags = true ∧ f.zf = zfOf al ∧ f.sf = sfOf al ∧ f.pf = pfOf al ∧
      complete (setReg .w16 rAX v >>= fun _ => asciiFlags al) s =
        .next ((s.regPut .w16 rAX v).flagged f 3).advance := by
  obtain ⟨f, control, zf, sf, pf, ends⟩ := asciiFlags_run al (s.regPut .w16 rAX v)
  exact ⟨f, control, zf, sf, pf, complete_ok ends⟩

/-! Packed decimal bytes: what the adjustments compute, digit by digit. -/

/-- Both digits of a byte are decimal. -/
def IsPacked (v : BitVec 8) : Prop := v.toNat % 16 ≤ 9 ∧ v.toNat / 16 ≤ 9

/-- The number that a packed decimal byte stands for. -/
def packedValue (v : BitVec 8) : Nat := v.toNat / 16 * 10 + v.toNat % 16

theorem toNat_ite_add (a k : BitVec 8) (b : Bool) :
    (if b then a + k else a).toNat = (a.toNat + (if b then k.toNat else 0)) % 256 := by
  cases b
  · exact (Nat.mod_eq_of_lt a.isLt).symm
  · exact BitVec.toNat_add a k

theorem toNat_adjusted (a k l : BitVec 8) (low high : Bool) :
    (let x := if low then a + k else a; if high then x + l else x).toNat =
      (a.toNat + (if low then k.toNat else 0) + (if high then l.toNat else 0)) % 256 := by
  rw [toNat_ite_add, toNat_ite_add, Nat.mod_add_mod]

theorem daaOut_toNat (a : BitVec 8) (af c : Bool) :
    let o := daaOut a af c
    o.1.toNat = (a.toNat + (if o.2.1 then 6 else 0) + (if o.2.2 then 0x60 else 0)) % 256 :=
  toNat_adjusted a 6#8 0x60#8 _ _

/-- A byte is taken from another by adding its complement to 256. -/
theorem dasOut_toNat (a : BitVec 8) (af c : Bool) :
    let o := dasOut a af c
    o.1.toNat =
      (a.toNat + (if o.2.1 then 0xFA else 0) + (if decide (0x99 < a.toNat) || c then 0xA0 else 0)) % 256 := by
  rw [dasOut, BitVec.sub_eq_add_neg, BitVec.sub_eq_add_neg]
  exact toNat_adjusted a (-6#8) (-0x60#8) _ _

theorem addN_byte_toNat (x y : BitVec 8) : (addN x y false).r.toNat = (x.toNat + y.toNat) % 256 :=
  BitVec.toNat_ofNat _ _

theorem subN_byte_cf (x y : BitVec 8) : (subN x y false).cf = true ↔ x.toNat < y.toNat := decide_eq_true_iff

theorem subN_byte_exact (x y : BitVec 8) :
    (subN x y false).r.toNat + y.toNat = x.toNat + if x.toNat < y.toNat then 256 else 0 := by
  have value := subN_exact x y false
  simp only [subN_byte_cf] at value
  exact value

section

variable {x y : BitVec 8} (hx : IsPacked x) (hy : IsPacked y)

include hx hy

/-- After a sum the low digit is adjusted where the digits' sum passed 9, the high one where the sum passed 99. -/
theorem daaOut_addN :
    let o := daaOut (addN x y false).r (addN x y false).af (addN x y false).cf
    (o.2.1 = true ↔ 9 < x.toNat % 16 + y.toNat % 16) ∧ (o.2.2 = true ↔ 0x99 < x.toNat + y.toNat) := by
  obtain ⟨hx0, hx1⟩ := hx
  obtain ⟨hy0, hy1⟩ := hy
  simp only [daaOut, addN, carry, BitVec.toNat_ofNat, Bool.or_eq_true, decide_eq_true_iff, Bool.false_eq_true, if_false]
  constructor <;> omega

theorem daaOut_addN_decimal :
    let o := daaOut (addN x y false).r (addN x y false).af (addN x y false).cf
    IsPacked o.1 ∧ packedValue o.1 + (if o.2.2 then 100 else 0) = packedValue x + packedValue y := by
  have value := daaOut_toNat (addN x y false).r (addN x y false).af (addN x y false).cf
  obtain ⟨low, high⟩ := daaOut_addN hx hy
  obtain ⟨hx0, hx1⟩ := hx
  obtain ⟨hy0, hy1⟩ := hy
  simp only [IsPacked, packedValue, value, addN_byte_toNat, low, high]
  split <;> split <;> omega

/-- After a difference the low digit is adjusted where it borrowed, the high one where the whole difference did. -/
theorem dasOut_subN :
    let a := (subN x y false).r
    let c := (subN x y false).cf
    let o := dasOut a (subN x y false).af c
    (o.2.1 = true ↔ x.toNat % 16 < y.toNat % 16) ∧ ((decide (0x99 < a.toNat) || c) = true ↔ x.toNat < y.toNat) ∧
      (o.2.2 = true ↔ x.toNat < y.toNat) := by
  have value := subN_byte_exact x y
  have digit : (subN x y false).af = true ↔ x.toNat % 16 < y.toNat % 16 := decide_eq_true_iff
  obtain ⟨hx0, hx1⟩ := hx
  obtain ⟨hy0, hy1⟩ := hy
  simp only [dasOut, subN_byte_cf, digit, Bool.or_eq_true, Bool.and_eq_true, decide_eq_true_iff]
  split at value <;> refine ⟨?_, ?_, ?_⟩ <;> omega

theorem dasOut_subN_decimal :
    let o := dasOut (subN x y false).r (subN x y false).af (subN x y false).cf
    IsPacked o.1 ∧ packedValue o.1 + packedValue y = packedValue x + (if o.2.2 then 100 else 0) := by
  have value := dasOut_toNat (subN x y false).r (subN x y false).af (subN x y false).cf
  have difference := subN_byte_exact x y
  obtain ⟨low, high, borrow⟩ := dasOut_subN hx hy
  obtain ⟨hx0, hx1⟩ := hx
  obtain ⟨hy0, hy1⟩ := hy
  simp only [IsPacked, packedValue, value, low, high, borrow]
  split at difference <;> split <;> omega

end

/-- Settles O15: each adjustment is its change of the accumulator with its flags, the conversions write a register, and
packed decimal bytes are adjusted digit by digit. -/
theorem adjustCompletes : Obligations.AdjustCompletes := by
  intro s x y dec packed p q al ah ax adj low added taken
  have aaa := complete_asciiAdjust s false
  have aas := complete_asciiAdjust s true
  rw [State.asciiResult, asciiAdjusted_add] at aaa
  rw [State.asciiResult, asciiAdjusted_sub] at aas
  refine ⟨aaa, aas, complete_decimalAdjust s daaOut, complete_decimalAdjust s dasOut, complete_asciiFlags s _ _,
    complete_asciiFlags s _ _, fun os => ?_, fun os => ?_, fun hx hy => ?_⟩
  · constructor
    · exact complete_ok (by rw [os]; rfl)
    · exact complete_ok (by rw [os]; rfl)
  · constructor
    · exact complete_ok (by rw [os]; rfl)
    · exact complete_ok (by rw [os]; rfl)
  · exact ⟨(daaOut_addN_decimal hx hy).1, (daaOut_addN_decimal hx hy).2, dasOut_subN_decimal hx hy⟩

end Sys2Proof.Machine
end

section
/-! The shifts and rotates (R300 to R307) as instructions: the operand is read, the result is computed with its flags,
and it is written. -/

namespace Sys2Proof.Machine

variable {s : State}

/-! Flags and draws. -/

theorem sameControl_refl (f : Flags) : f.sameControl f = true := by
  rw [sameControl_iff]
  exact ⟨rfl, rfl, rfl, rfl, rfl, rfl, rfl, rfl⟩

/-- Flags with the same control flags decide the same accesses. -/
theorem State.flagged_rmWrites {f : Flags} (control : f.sameControl s.flags = true) (n : Nat) (w : Width) (rm : RM) :
    (s.flagged f n).rmWrites w rm = s.rmWrites w rm := by
  obtain ⟨_, _, _, _, _, _, vm, ac⟩ := (sameControl_iff f s.flags).1 control
  exact (sameAccess_flagged s f n vm ac).rmWrites rfl rfl w rm

/-- A drawn flag: the given value where it is defined. -/
theorem drawIf_run (undefd v : Bool) (s : State) :
    ∃ (b : Bool) (n : Nat), (undefd = false → b = v) ∧ drawIf undefd v s = .ok b (s.setDraws (s.draws + n)) := by
  cases undefd with
  | false => exact ⟨v, 0, fun _ => rfl, rfl⟩
  | true => exact ⟨Config.freeBit s.draws, 1, nofun, rfl⟩

/-! The shifts and rotates. -/

theorem exec_shift (op : ShiftOp) (w : Bool) (rm : RM) (count : Count) (s : State) :
    exec (op.instr w rm count) s = complete (shiftRM op (s.opW w) rm (s.shiftCount count)) s := by
  cases op <;> rfl

theorem shiftRM_zero {op : ShiftOp} {w : Width} {rm : RM} {c : Nat} (zero : c = 0) :
    shiftRM op w rm c s = .ok () s := by rw [shiftRM, if_pos zero, M.pure_run]

theorem shiftRM_run {op : ShiftOp} {w : Width} {rm : RM} {c : Nat} (nonzero : c ≠ 0) (both : s.rmBoth w rm = true)
    {r : Val w} {f : Flags} {n : Nat} (control : f.sameControl s.flags = true)
    (computes : shiftCompute op (s.rmVal w rm) c s = .ok r (s.flagged f n)) :
    shiftRM op w rm c s = .ok () ((s.flagged f n).rmPut w rm r) := by
  obtain ⟨reads, writes⟩ := Bool.and_eq_true_iff.1 both
  rw [shiftRM, if_neg nonzero, readRM_bind_ok _ reads]
  simp only [M.bind_run, computes]
  exact writeRM_ok r ((State.flagged_rmWrites control n w rm).trans writes)

/-- Settles O19: a count of 0 does nothing, another one computes from the operand's value and writes the result. -/
theorem shiftsComplete : Obligations.ShiftsComplete := by
  intro op s w rm count wd c o
  rw [exec_shift]
  refine ⟨fun zero => complete_ok (shiftRM_zero zero), fun nonzero both => ?_⟩
  obtain ⟨f, n, control, cf, ovf, shifts, rotates, computes⟩ := shiftCompute_run op (s.rmVal wd rm) c s
  exact ⟨f, n, control, cf, ovf, shifts, rotates, complete_ok (shiftRM_run nonzero both control computes)⟩

end Sys2Proof.Machine
end

section
/-! What the shifts and rotates compute (R301 to R307): the numbers the model rotates are bit vectors that rotate. -/

namespace Sys2Proof.Machine

/-! Rotating bit vectors. -/

section

variable {m : Nat} (x : BitVec m) (k : Nat)

theorem rotLeft_toNat : rotLeft m x.toNat k = (x.rotateLeft k).toNat := BitVec.toNat_rotateLeft.symm

/-- A rotation to the right is one to the left by the other bits. -/
theorem rotateLeft_sub_mod : x.rotateLeft (m - k % m) = x.rotateRight k := by
  ext i hi
  have count : k % m < m := Nat.mod_lt k (by omega)
  rw [BitVec.getElem_rotateLeft, BitVec.getElem_rotateRight]
  by_cases whole : k % m = 0
  · simp only [whole, Nat.sub_zero, Nat.mod_self, Nat.not_lt_zero, dite_false, hi, dite_true, Nat.zero_add]
  · have rest : (m - k % m) % m = m - k % m := Nat.mod_eq_of_lt (by omega)
    simp only [rest, Nat.sub_sub_self count.le]

theorem rotLeft_sub_mod_toNat : rotLeft m x.toNat (m - k % m) = (x.rotateRight k).toNat := by
  rw [rotLeft_toNat, rotateLeft_sub_mod]

theorem rotateRight_rotateLeft : (x.rotateLeft k).rotateRight k = x := by
  ext i hi
  have := Nat.mod_lt k (show 0 < m by omega)
  rw [BitVec.getElem_rotateRight hi]
  split
  · rw [BitVec.getElem_rotateLeft, dif_neg (by omega)]
    congr 1
    omega
  · rw [BitVec.getElem_rotateLeft, dif_pos (by omega)]
    congr 1
    omega

end

/-! The operand with CF above it. -/

section

variable {n : Nat} (a : BitVec n) (cf : Bool)

theorem withCarry_eq : withCarry cf a = (BitVec.ofBool cf ++ a).toNat := by
  rw [BitVec.toNat_append, ← Nat.shiftLeft_add_eq_or_of_lt a.isLt, Nat.shiftLeft_eq]
  cases cf <;> rfl

theorem setWidth_carried : (BitVec.ofBool cf ++ a).setWidth n = a := BitVec.setWidth_append_eq_right

theorem msb_carried : (BitVec.ofBool cf ++ a).msb = cf := by
  rw [BitVec.msb_append, if_neg Nat.one_ne_zero, BitVec.msb_ofBool]

theorem carried_split (v : BitVec (1 + n)) : BitVec.ofBool v.msb ++ v.setWidth n = v := by
  apply BitVec.eq_of_getLsbD_eq
  intro i hi
  rw [BitVec.getLsbD_append, BitVec.getLsbD_setWidth]
  split
  · rw [decide_eq_true ‹_›, Bool.true_and]
  · rw [BitVec.getLsbD_ofBool, decide_eq_true (by omega), Bool.true_and, BitVec.msb_eq_getLsbD_last]
    congr 1
    omega

theorem getLsbD_carried {i : Nat} (h : i < n) : (BitVec.ofBool cf ++ a).getLsbD i = a.getLsbD i := by
  rw [BitVec.getLsbD_append, if_pos h]

end

theorem testBit_toNat_eq_msb {n : Nat} (v : BitVec (1 + n)) : v.toNat.testBit n = v.msb := by
  rw [BitVec.msb_eq_getLsbD_last, Nat.add_sub_cancel_left, BitVec.getLsbD]

/-! Results and carries. -/

section

variable {n : Nat} (a : BitVec n) (c : Nat) (cf : Bool)

theorem rol_out : ShiftOp.rol.out a c cf =
    ⟨a.rotateLeft c, some ((a.rotateLeft c).getLsbD 0), (a.rotateLeft c).msb != (a.rotateLeft c).getLsbD 0⟩ := by
  simp only [ShiftOp.out, rotLeft_toNat, BitVec.ofNat_toNat, BitVec.setWidth_eq, bitOf]

theorem ror_out : ShiftOp.ror.out a c cf =
    ⟨a.rotateRight c, some (a.rotateRight c).msb, (a.rotateRight c).msb != (a.rotateRight c).getLsbD (n - 2)⟩ := by
  simp only [ShiftOp.out, rotLeft_sub_mod_toNat, BitVec.ofNat_toNat, BitVec.setWidth_eq, bitOf]

theorem rcl_out : ShiftOp.rcl.out a c cf =
    let v := (BitVec.ofBool cf ++ a).rotateLeft c
    ⟨v.setWidth n, some v.msb, (v.setWidth n).msb != v.msb⟩ := by
  simp only [ShiftOp.out, withCarry_eq, Nat.add_comm n 1, rotLeft_toNat, BitVec.ofNat_toNat, testBit_toNat_eq_msb]

theorem rcr_out : ShiftOp.rcr.out a c cf =
    let v := (BitVec.ofBool cf ++ a).rotateRight c
    ⟨v.setWidth n, some v.msb, a.msb != cf⟩ := by
  simp only [ShiftOp.out, withCarry_eq, Nat.add_comm n 1, rotLeft_sub_mod_toNat, BitVec.ofNat_toNat,
    testBit_toNat_eq_msb]

/-- RCR takes back what RCL did, the carry included (R303, R304). -/
theorem rcr_out_rcl {carry : Bool} (h : (ShiftOp.rcl.out a c cf).cf = some carry) :
    (ShiftOp.rcr.out (ShiftOp.rcl.out a c cf).r c carry).r = a ∧
      (ShiftOp.rcr.out (ShiftOp.rcl.out a c cf).r c carry).cf = some cf := by
  rw [rcl_out] at h ⊢
  obtain rfl := Option.some.inj h
  rw [rcr_out, carried_split, rotateRight_rotateLeft]
  exact ⟨setWidth_carried a cf, congrArg some (msb_carried a cf)⟩

theorem shl_out_toNat : (ShiftOp.shl.out a c cf).r.toNat = a.toNat * 2 ^ c % 2 ^ n := by
  rw [← Nat.shiftLeft_eq]
  exact BitVec.toNat_shiftLeft

theorem shr_out_toNat : (ShiftOp.shr.out a c cf).r.toNat = a.toNat / 2 ^ c := by
  rw [← Nat.shiftRight_eq_div_pow]
  exact BitVec.toNat_ushiftRight ..

theorem sar_out_toInt : (ShiftOp.sar.out a c cf).r.toInt = a.toInt / 2 ^ c := by
  rw [ShiftOp.out, BitVec.toInt_sshiftRight, Int.shiftRight_eq_div_pow]
  norm_cast

theorem sar_out_cf : (ShiftOp.sar.out a c cf).cf = some (if c ≤ n then a.getLsbD (c - 1) else a.msb) := by
  rw [BitVec.msb_eq_getLsbD_last, ShiftOp.out, bitOf]
  split
  · rw [Nat.min_eq_left ‹_›]
  · rw [Nat.min_eq_right (by omega)]

end

/-! A count of 1: where the bits next to the ends go. -/

section

variable {n : Nat} (a : BitVec n)

theorem getLsbD_rotateLeft_one {i : Nat} (h : i + 1 < n) : (a.rotateLeft 1).getLsbD (i + 1) = a.getLsbD i := by
  rw [BitVec.getLsbD_rotateLeft, Nat.mod_eq_of_lt (by omega), decide_eq_false (by omega), decide_eq_true h]
  rfl

theorem getLsbD_rotateRight_one {i : Nat} (h : i + 1 < n) : (a.rotateRight 1).getLsbD i = a.getLsbD (i + 1) := by
  rw [BitVec.getLsbD_rotateRight, Nat.mod_eq_of_lt (by omega), decide_eq_true (by omega), Nat.add_comm]
  rfl

variable (h : 2 ≤ n)
include h

theorem getLsbD_zero_rotateLeft_one : (a.rotateLeft 1).getLsbD 0 = a.msb := by
  rw [BitVec.getLsbD_rotateLeft, Nat.mod_eq_of_lt h, BitVec.msb_eq_getLsbD_last]
  rfl

theorem msb_rotateLeft_one : (a.rotateLeft 1).msb = a.getLsbD (n - 2) := by
  rw [BitVec.msb_eq_getLsbD_last, show n - 1 = n - 2 + 1 by omega, getLsbD_rotateLeft_one a (by omega)]

theorem msb_rotateRight_one : (a.rotateRight 1).msb = a.getLsbD 0 := by
  rw [BitVec.msb_eq_getLsbD_last, BitVec.getLsbD_rotateRight, Nat.mod_eq_of_lt h, decide_eq_false (by omega),
    decide_eq_true (by omega), Nat.sub_self]
  rfl

theorem getLsbD_rotateRight_one_last : (a.rotateRight 1).getLsbD (n - 2) = a.msb := by
  rw [getLsbD_rotateRight_one a (by omega), BitVec.msb_eq_getLsbD_last]
  congr 1
  omega

variable (cf : Bool)

theorem rol_out_one_ovf : (ShiftOp.rol.out a 1 cf).ovf = ((a.rotateLeft 1).msb != a.msb) := by
  rw [rol_out, getLsbD_zero_rotateLeft_one a h]

theorem ror_out_one_ovf : (ShiftOp.ror.out a 1 cf).ovf = (a.getLsbD 0 != a.msb) := by
  rw [ror_out, msb_rotateRight_one a h, getLsbD_rotateRight_one_last a h]

theorem rcl_out_one_ovf : (ShiftOp.rcl.out a 1 cf).ovf = (a.getLsbD (n - 2) != a.msb) := by
  have sign : (((BitVec.ofBool cf ++ a).rotateLeft 1).setWidth n).msb = a.getLsbD (n - 2) := by
    rw [BitVec.msb_eq_getLsbD_last, BitVec.getLsbD_setWidth, decide_eq_true (by omega), Bool.true_and,
      show n - 1 = n - 2 + 1 by omega, getLsbD_rotateLeft_one _ (by omega), getLsbD_carried a cf (by omega)]
  have carry : ((BitVec.ofBool cf ++ a).rotateLeft 1).msb = a.msb := by
    rw [msb_rotateLeft_one _ (by omega), getLsbD_carried a cf (by omega), BitVec.msb_eq_getLsbD_last]
    congr 1
    omega
  rw [rcl_out, ← sign, ← carry]

theorem shl_out_one_ovf : (ShiftOp.shl.out a 1 cf).ovf = (a.getLsbD (n - 2) != a.msb) := by
  have sign : (a <<< 1).msb = a.getLsbD (n - 2) := by
    rw [BitVec.msb_shiftLeft, BitVec.getMsbD_eq_getLsbD, decide_eq_true (by omega)]
    rfl
  rw [← sign, BitVec.msb_eq_getLsbD_last a]
  rfl

end

/-- Settles O20: the rotates are rotations of bit vectors, the shifts multiply and divide, and OF follows from where a
count of 1 moves the bits at the ends. -/
theorem shiftResults : Obligations.ShiftResults := by
  intro w a c cf _ _ n wide split pair
  have bits : 2 ≤ w.bits := by cases w <;> decide
  have rol := rol_out a c cf
  have ror := ror_out a c cf
  have rcl := rcl_out a c cf
  have rcr := rcr_out a c cf
  refine ⟨congrArg (·.r) rol, congrArg (·.r) ror, shl_out_toNat a c cf, shr_out_toNat a c cf, sar_out_toInt a c cf,
    fun _ => rcr_out_rcl a c cf, congrArg pair rcl, congrArg pair rcr, congrArg (·.cf) rol, congrArg (·.cf) ror,
    rfl, rfl, sar_out_cf a c cf, fun one => ?_⟩
  subst one
  exact ⟨rol_out_one_ovf a bits cf, ror_out_one_ovf a bits cf, rcl_out_one_ovf a bits cf,
    congrArg (·.ovf) rcr, shl_out_one_ovf a bits cf, rfl, rfl⟩

end Sys2Proof.Machine
end

section
/-! SHLD and SHRD (R308, R309): a pair shifted with its flags, or beyond the operand size a free value. -/

namespace Sys2Proof.Machine

variable {s : State}

/-! Draws and the operand. -/

theorem State.setDraws_rmWrites (s : State) (n : Nat) (w : Width) (rm : RM) :
    (s.setDraws n).rmWrites w rm = s.rmWrites w rm := (sameAccess_draws s n).rmWrites rfl rfl w rm

@[simp] theorem State.rmPut_draws (s : State) (w : Width) (rm : RM) (v : Val w) : (s.rmPut w rm v).draws = s.draws := by
  cases rm with
  | reg r => rfl
  | mem m => exact s.putBytes_draws _ _

theorem State.setDraws_rmPut (s : State) (n : Nat) (w : Width) (rm : RM) (v : Val w) :
    (s.setDraws n).rmPut w rm v = (s.rmPut w rm v).setDraws n := by
  cases rm with
  | reg r => rfl
  | mem m => exact s.putBytes_comm (·.setDraws n) (fun _ _ _ => rfl) (fun _ => rfl) _ _

theorem drawVal_run (w : Width) (s : State) : ∃ v : Val w, drawVal w s = .ok v (s.setDraws (s.draws + 1)) := by
  cases w with
  | w8 => exact ⟨Config.freeByte s.draws, rfl⟩
  | w16 => exact ⟨Config.freeWord s.draws, rfl⟩
  | w32 => exact ⟨Config.freeDword s.draws, rfl⟩

/-! The instructions. -/

/-- The row of SHLD or SHRD with its form of the count (R308, R309). -/
def doubleShiftInstr (left byCl : Bool) (reg : RegNum) (rm : RM) (k : BitVec 8) : Instr :=
  if left then (if byCl then .shldCl reg rm else .shldImm reg rm k)
  else (if byCl then .shrdCl reg rm else .shrdImm reg rm k)

theorem exec_doubleShift (left byCl : Bool) (reg : RegNum) (rm : RM) (k : BitVec 8) (s : State) :
    exec (doubleShiftInstr left byCl reg rm k) s =
      complete (doubleShift left reg rm (s.shiftCount (if byCl then .cl else .imm k))) s := by
  cases left <;> cases byCl <;> rfl

/-- The result and CF of SHLD or SHRD. -/
def doubleShifted (left : Bool) {n : Nat} (a b : BitVec n) (c : Nat) : BitVec n × Bool :=
  if left then shldN a b c else shrdN a b c

theorem doubleShifted_eq (left : Bool) {n : Nat} (a b : BitVec n) (c : Nat) : doubleShifted left a b c =
    (if left then (a <<< c) ||| (b >>> (n - c)) else (a >>> c) ||| (b <<< (n - c)),
      a.getLsbD (if left then n - c else c - 1)) := by
  cases left <;> rfl

/-- The flags of SHLD or SHRD by `c`, from the operand and the result. -/
def doubleShiftFlags {n : Nat} (c : Nat) (a r : BitVec n) (cf : Bool) : M Unit := do
  let ovf ← drawIf (c != 1) (r.msb != a.msb)
  let af ← drawBit
  updFlags (fun f => { f.zsp r with cf := cf, ovf := ovf, af := af })

theorem doubleShiftFlags_run {n : Nat} (c : Nat) (a r : BitVec n) (cf : Bool) (s : State) :
    ∃ (f : Flags) (k : Nat), f.sameControl s.flags = true ∧ f.cf = cf ∧ (c = 1 → f.ovf = (r.msb != a.msb)) ∧
      f.zf = zfOf r ∧ f.sf = sfOf r ∧ f.pf = pfOf r ∧ doubleShiftFlags c a r cf s = .ok () (s.flagged f k) := by
  obtain ⟨ovf, k, defined, draws⟩ := drawIf_run (c != 1) (r.msb != a.msb) s
  refine ⟨{ s.flags.zsp r with cf := cf, ovf := ovf, af := Config.freeBit (s.draws + k) }, k + 1,
    sameControl_refl s.flags, rfl, fun one => defined (by simp [one]), rfl, rfl, rfl, ?_⟩
  simp only [doubleShiftFlags, M.bind_run, draws]
  rfl

section

variable {left : Bool} {reg : RegNum} {rm : RM} {c : Nat}

theorem doubleShift_zero (zero : c = 0) : doubleShift left reg rm c s = .ok () s := by
  rw [doubleShift, if_pos zero, M.pure_run]

theorem doubleShift_of_le (pos : 0 < c) (fits : c ≤ s.os.width.bits) :
    doubleShift left reg rm c s = (do
      let a ← readRM s.os.width rm
      let o := doubleShifted left a (s.reg s.os.width reg) c
      writeRM s.os.width rm o.1
      doubleShiftFlags c a o.1 o.2) s := by
  rw [doubleShift, if_neg pos.ne', M.bind_run, getS_run]
  simp only [if_neg fits.not_gt]
  rfl

theorem doubleShift_of_gt (beyond : s.os.width.bits < c) :
    doubleShift left reg rm c s = (do
      let _ ← readRM s.os.width rm
      let r ← drawVal s.os.width
      writeRM s.os.width rm r
      undefStatus) s := by
  rw [doubleShift, if_neg (Nat.ne_of_gt (Nat.zero_lt_of_lt beyond)), M.bind_run, getS_run]
  simp only [if_pos beyond]

variable (both : s.rmBoth s.os.width rm = true)
include both

theorem doubleShift_shifts (pos : 0 < c) (fits : c ≤ s.os.width.bits) :
    let o := doubleShifted left (s.rmVal s.os.width rm) (s.reg s.os.width reg) c
    ∃ (f : Flags) (n : Nat), f.sameControl s.flags = true ∧ f.cf = o.2 ∧
      (c = 1 → f.ovf = (o.1.msb != BitVec.msb (s.rmVal s.os.width rm))) ∧ f.zf = zfOf o.1 ∧ f.sf = sfOf o.1 ∧
      f.pf = pfOf o.1 ∧ doubleShift left reg rm c s = .ok () ((s.rmPut s.os.width rm o.1).flagged f n) := by
  intro o
  obtain ⟨reads, writes⟩ := Bool.and_eq_true_iff.1 both
  obtain ⟨f, n, control, cf, ovf, zf, sf, pf, ends⟩ :=
    doubleShiftFlags_run c (s.rmVal s.os.width rm) o.1 o.2 (s.rmPut s.os.width rm o.1)
  refine ⟨f, n, s.rmPut_flags s.os.width rm o.1 ▸ control, cf, ovf, zf, sf, pf, ?_⟩
  rw [doubleShift_of_le pos fits, readRM_bind_ok _ reads, M.bind_run, writeRM_ok _ writes]
  exact ends

theorem doubleShift_undefined (beyond : s.os.width.bits < c) :
    ∃ (f : Flags) (n : Nat) (u : Val s.os.width), f.sameControl s.flags = true ∧
      doubleShift left reg rm c s = .ok () ((s.rmPut s.os.width rm u).flagged f n) := by
  obtain ⟨reads, writes⟩ := Bool.and_eq_true_iff.1 both
  obtain ⟨u, draws⟩ := drawVal_run s.os.width s
  have written := writeRM_ok u ((s.setDraws_rmWrites (s.draws + 1) s.os.width rm).trans writes)
  rw [s.setDraws_rmPut] at written
  obtain ⟨f, control, ends⟩ := undefStatus_run ((s.rmPut s.os.width rm u).setDraws (s.draws + 1))
  refine ⟨f, 7, u, s.rmPut_flags s.os.width rm u ▸ control, ?_⟩
  rw [doubleShift_of_gt beyond, readRM_bind_ok _ reads]
  simp only [M.bind_run, draws, written, ends]
  rw [State.flagged, State.flagged, State.rmPut_draws]
  rfl

end

/-- Settles O21: a count of 0 does nothing, one within the operand shifts the pair, and one beyond it writes a free
value. -/
theorem doubleShiftsComplete : Obligations.DoubleShiftsComplete := by
  intro s reg rm k left byCl w i c a b r
  have meaning : exec i s = complete (doubleShift left reg rm c) s := exec_doubleShift left byCl reg rm k s
  rw [meaning]
  refine ⟨fun zero => complete_ok (doubleShift_zero zero), fun both pos fits => ?_, fun both beyond => ?_⟩
  · obtain ⟨f, n, flags⟩ := doubleShift_shifts (left := left) (reg := reg) both pos fits
    simp only [doubleShifted_eq] at flags
    obtain ⟨control, cf, ovf, zf, sf, pf, run⟩ := flags
    exact ⟨f, n, control, cf, ovf, zf, sf, pf, complete_ok run⟩
  · obtain ⟨f, n, u, control, run⟩ := doubleShift_undefined (left := left) (reg := reg) both beyond
    exact ⟨f, n, u, control, complete_ok run⟩

end Sys2Proof.Machine
end

section
/-! The string instructions and their repeated forms (R330 to R349): one element of each operation where its accesses go
through, and the iterations that the count and ZF control. -/

namespace Sys2Proof.Machine

variable {s : State} {w : Width}

/-! The elements and the index registers (R330). -/

theorem stepIndex_stepped (i : RegNum) (w : Width) (s : State) : stepIndex i w s = .ok () (s.stepped i w) := rfl

theorem readSource_ok (h : s.sourceReads w = true) : readSource w s = .ok (s.sourceVal w) s := by
  simp only [readSource, M.bind_run, getS_run, segReadV_ok h, State.sourceVal]

theorem readDest_ok (h : s.destReaches w false = true) : readDest w s = .ok (s.destVal w) s := by
  simp only [readDest, M.bind_run, getS_run, segReadV_ok h, State.destVal]

theorem writeDest_ok (v : Val w) (h : s.destReaches w true = true) :
    writeDest w v s = .ok () (s.memPut w .es (s.index rDI) v) := by
  simp only [writeDest, M.bind_run, getS_run, segWriteV_ok v h]

/-- Reading a port moves the destination element nowhere and keeps the checks of its access. -/
theorem State.portRead_destReaches (s : State) (w : Width) (write : Bool) :
    s.portRead.destReaches w write = s.destReaches w write :=
  SameAccess.reaches (s := s) (t := s.portRead) ⟨rfl, rfl, rfl, rfl, rfl⟩ .es (s.index rDI) w.bytes write w.bytes

/-- A port takes a write where R643 refuses none: it is none of the coprocessor's, or the write is the 8-bit 0 to F0. -/
theorem ioWrite_takes {port : BitVec 16} {v : Val w} (h : portTakes port w v = true) :
    ioWrite port w v s = .ok () (s.portWrote port w v) := by
  simp only [portTakes, Bool.or_eq_true, Bool.and_eq_true, Bool.not_eq_true', beq_iff_eq] at h
  obtain free | ⟨⟨rfl, rfl⟩, zero⟩ := h
  · exact ioWrite_ok v free
  · unfold ioWrite State.portWrote
    rw [if_neg (by decide), if_pos ⟨rfl, rfl, zero⟩, if_neg (by decide), if_pos rfl, updS_run]

/-! One element of each operation (R331 to R337). -/

/-- The model's computation of one element, by operation. -/
def StrOp.once (op : StrOp) (w : Width) : M Unit :=
  match op with
  | .cmps => cmpsOnce w
  | .ins => insOnce w
  | .lods => lodsOnce w
  | .movs => movsOnce w
  | .outs => outsOnce w
  | .scas => scasOnce w
  | .stos => stosOnce w

theorem exec_strOp_plain (op : StrOp) (w : Bool) (s : State) :
    exec (op.plain w) s = complete (op.once (s.opW w)) s := by
  cases op <;> rfl

theorem exec_strOp_rep (op : StrOp) (z w : Bool) (s : State) :
    exec (op.rep z w) s = repeated (op.once (s.opW w)) (op.stop z) s := by
  cases op
  case cmps | scas => cases z <;> rfl
  all_goals rfl

/-- One element is done where its accesses go through. -/
theorem StrOp.once_ok {op : StrOp} (h : op.ok w s = true) : op.once w s = .ok () (op.done w s) := by
  cases op with
  | cmps =>
    obtain ⟨source, dest⟩ := Bool.and_eq_true_iff.1 h
    simp only [once, cmpsOnce, M.bind_run, readSource_ok source, readDest_ok dest, updFlags_run, stepIndex_stepped,
      done]
  | ins =>
    simp only [ok, Bool.and_eq_true, Bool.not_eq_true'] at h
    obtain ⟨⟨allowed, free⟩, dest⟩ := h
    have written := writeDest_ok (s.portVal (s.reg .w16 rDX) w) ((s.portRead_destReaches w true).trans dest)
    simp only [once, insOnce, M.bind_run, getS_run, ioPermitted_ok allowed, probeWrite_ok dest, ioRead_ok free, written,
      stepIndex_stepped]
    rfl
  | lods => simp only [once, lodsOnce, M.bind_run, readSource_ok h, setReg_regPut, stepIndex_stepped, done]
  | movs =>
    obtain ⟨source, dest⟩ := Bool.and_eq_true_iff.1 h
    simp only [once, movsOnce, M.bind_run, readSource_ok source, writeDest_ok _ dest, stepIndex_stepped, done]
  | outs =>
    simp only [ok, Bool.and_eq_true] at h
    obtain ⟨⟨allowed, source⟩, taken⟩ := h
    simp only [once, outsOnce, M.bind_run, getS_run, ioPermitted_ok allowed, readSource_ok source, ioWrite_takes taken,
      stepIndex_stepped, done]
  | scas =>
    simp only [once, scasOnce, M.bind_run, readDest_ok h, getReg_run, updFlags_run, stepIndex_stepped, done]
  | stos => simp only [once, stosOnce, M.bind_run, getReg_run, writeDest_ok _ h, stepIndex_stepped, done]

/-! Repetition (R340). -/

theorem repeated_zero {once : M Unit} {stop : Option Bool} (zero : s.count = 0#32) :
    repeated once stop s = .next s.advance :=
  finish_ok (by rw [if_pos zero, advance_run])

/-- One iteration that goes through: the count is lowered, and the instruction ends or starts again. -/
theorem repeated_ok {once : M Unit} {stop : Option Bool} {t : State} (nonzero : s.count ≠ 0#32)
    (element : once s = .ok () t) : repeated once stop s = .next (t.iterated stop) := by
  refine finish_ok ?_
  simp only [if_neg nonzero, M.bind_run, element, updS_run, getS_run, State.iterated]
  cases repeatDone (t.setGpr t.countDown) stop with
  | true => rfl
  | false => rfl

/-- Settles O22: the instruction is one element, and goes on at next IP. -/
theorem stringsComplete : Obligations.StringsComplete := by
  intro op w s reachable
  rw [exec_strOp_plain]
  exact complete_ok (StrOp.once_ok reachable)

/-- Settles O23: with a count of 0 the meaning is the advance alone, else it is one iteration over an element. -/
theorem repeatedStringsComplete : Obligations.RepeatedStringsComplete := by
  intro op z w s
  rw [exec_strOp_rep]
  exact ⟨repeated_zero, fun nonzero reachable => repeated_ok nonzero (StrOp.once_ok reachable)⟩

end Sys2Proof.Machine
end

section
/-! BSF and BSR (R361, R362): the least and the greatest set bit of an operand, as an index and as an instruction. -/

namespace Sys2Proof.Machine

variable {s : State}

/-! The greatest and the least set bit. -/

section

variable {n : Nat} {a : BitVec n}

theorem getLsbD_highestBit (nonzero : a ≠ 0) : a.getLsbD (highestBit a) = true :=
  Nat.testBit_log2 fun zero => nonzero (BitVec.eq_of_toNat_eq zero)

theorem getLsbD_above_highestBit {k : Nat} (above : highestBit a < k) : a.getLsbD k = false :=
  Nat.testBit_lt_two_pow (Nat.lt_log2_self.trans_le (Nat.pow_le_pow_right (by decide) above))

theorem getLsbD_below_lowestFrom {fuel i k : Nat} (start : i ≤ k) (below : k < lowestFrom a fuel i) :
    a.getLsbD k = false := by
  induction fuel generalizing i with
  | zero => exact absurd below start.not_gt
  | succ fuel ih =>
    cases bit : a.getLsbD i with
    | true =>
      have found : lowestFrom a (fuel + 1) i = i := if_pos bit
      exact absurd (found ▸ below) start.not_gt
    | false =>
      have goesOn : lowestFrom a (fuel + 1) i = lowestFrom a fuel (i + 1) := if_neg (by rw [bitOf, bit]; decide)
      obtain rfl | later := start.eq_or_lt
      · exact bit
      · exact ih later (goesOn ▸ below)

/-- The search ends at a set bit where there is one among the places it looks at. -/
theorem getLsbD_lowestFrom {fuel i j : Nat} (bit : a.getLsbD j = true) (start : i ≤ j) (within : j < i + fuel) :
    a.getLsbD (lowestFrom a fuel i) = true := by
  induction fuel generalizing i with
  | zero => omega
  | succ fuel ih =>
    rw [lowestFrom, bitOf]
    split
    case isTrue found => exact found
    case isFalse unset =>
      have later : i ≠ j := fun same => unset (same ▸ bit)
      exact ih (by omega) (by omega)

theorem getLsbD_lowestBit (nonzero : a ≠ 0) : a.getLsbD (lowestBit a) = true := by
  have bit := getLsbD_highestBit nonzero
  have within := BitVec.lt_of_getLsbD bit
  exact getLsbD_lowestFrom bit (Nat.zero_le _) (by omega)

end

/-! The instructions. -/

/-- The flags after a scan that tests its source for zero: the other five are drawn. -/
def State.scanFlags (s : State) (zero : Bool) : Flags :=
  { s.flags with
    cf := Config.freeBit s.draws, pf := Config.freeBit (s.draws + 1), af := Config.freeBit (s.draws + 2), zf := zero
    sf := Config.freeBit (s.draws + 4), ovf := Config.freeBit (s.draws + 5) }

theorem undefStatus_setZf_run (zero : Bool) (s : State) :
    (undefStatus >>= fun _ => updFlags fun f => { f with zf := zero }) s =
      .ok () (s.flagged (s.scanFlags zero) 6) := by
  rw [M.bind_run, undefStatus_eq]
  rfl

section

variable {reg : RegNum} {rm : RM} {find : (n : Nat) → BitVec n → Nat} (reads : s.rmReads s.os.width rm = true)
include reads

theorem scanBit_zero (zero : s.rmVal s.os.width rm = 0) :
    scanBit reg rm find s = .ok () (s.flagged (s.scanFlags true) 6) := by
  rw [scanBit, M.bind_run, getS_run]
  dsimp only
  rw [readRM_bind_ok _ reads, beq_iff_eq.2 zero, if_pos rfl, M.bind_run, M.pure_run]
  exact undefStatus_setZf_run true s

theorem scanBit_nonzero (nonzero : s.rmVal s.os.width rm ≠ 0) : scanBit reg rm find s =
    .ok () ((s.regPut s.os.width reg (BitVec.ofNat _ (find _ (s.rmVal s.os.width rm)))).flagged
      (s.scanFlags false) 6) := by
  rw [scanBit, M.bind_run, getS_run]
  dsimp only
  rw [readRM_bind_ok _ reads, beq_eq_false_iff_ne.2 nonzero, if_neg Bool.false_ne_true, M.bind_run, setReg_regPut]
  exact undefStatus_setZf_run false _

end

/-- Settles O24: the scans differ in the bit they look for; for a zero source neither writes its register. -/
theorem bitScansComplete : Obligations.BitScansComplete := by
  intro s reg rm w a reads
  refine ⟨fun zero => ?_, fun nonzero => ?_⟩
  · exact ⟨s.scanFlags true, sameControl_refl s.flags, rfl, complete_ok (scanBit_zero reads zero),
      complete_ok (scanBit_zero reads zero)⟩
  · have lowest := getLsbD_lowestBit nonzero
    have highest := getLsbD_highestBit nonzero
    exact ⟨s.scanFlags false, lowestBit a, highestBit a, sameControl_refl s.flags, rfl,
      BitVec.lt_of_getLsbD lowest, lowest, fun k below => getLsbD_below_lowestFrom (Nat.zero_le k) below,
      BitVec.lt_of_getLsbD highest, highest, fun k above => getLsbD_above_highestBit above,
      complete_ok (scanBit_nonzero reads nonzero), complete_ok (scanBit_nonzero reads nonzero)⟩

end Sys2Proof.Machine
end

section
/-! BT, BTC, BTR and BTS (R360, R363 to R366): the selected bit of a register or of a unit in memory goes to CF, and the
unit is written with that bit changed. -/

namespace Sys2Proof.Machine

variable {s : State}

/-! The unit. -/

/-- The selected bit after the instruction. -/
def BitOp.newBit (op : BitOp) (old : Bool) : Bool :=
  match op with
  | .test => old
  | .complement => !old
  | .reset => false
  | .set => true

theorem BitOp.getLsbD_apply (op : BitOp) {n : Nat} (a : BitVec n) (b : Nat) {k : Nat} (h : k < n) :
    (op.apply a b).getLsbD k = if k = b then op.newBit (a.getLsbD k) else a.getLsbD k := by
  have mask : (BitVec.ofNat n (2 ^ b)).getLsbD k = decide (k = b) := by
    rw [BitVec.getLsbD_ofNat, Nat.testBit_two_pow, decide_eq_true h, Bool.true_and, decide_eq_decide]
    exact eq_comm
  cases op with
  | test => simp only [apply, newBit, ite_self]
  | complement =>
    rw [apply, BitVec.getLsbD_xor, mask]
    by_cases same : k = b <;> simp [same, newBit]
  | reset =>
    rw [apply, BitVec.getLsbD_and, BitVec.getLsbD_not, mask]
    by_cases same : k = b <;> simp [same, newBit, h]
  | set =>
    rw [apply, BitVec.getLsbD_or, mask]
    by_cases same : k = b <;> simp [same, newBit]

/-- The number of addresses of an address size (R82). -/
def addressSpan : Size → Int
  | .s16 => 65536
  | .s32 => 4294967296

/-- The address of the unit is formed in whole numbers, rounded down, and kept modulo the address size (R82, R360). -/
theorem State.bitUnit_eq (s : State) (w : Width) (m : MemOp) (off : Int) : s.bitUnit w m off =
    BitVec.ofInt 32 (((s.ea m).toNat + w.bytes * Int.fdiv off w.bits) % addressSpan s.adr) := by
  rw [Int.fdiv_eq_ediv_of_nonneg off (Int.natCast_nonneg w.bits)]
  have sum := add_eq_ofInt (eq_ofInt_toNat (s.ea m)) (rfl : BitVec.ofInt 32 (w.bytes * (off / w.bits)) = _)
  rw [bitUnit, sum]
  cases s.adr with
  | s16 =>
    refine setWidth_of_sum ?_ rfl
    apply BitVec.eq_of_toNat_eq
    simp only [BitVec.extractLsb'_toNat, BitVec.toNat_ofInt]
    omega
  | s32 => exact eq_of_sum rfl rfl

/-! The instructions. -/

theorem exec_bitImm (op : BitOp) (rm : RM) (bit : BitVec 8) (s : State) :
    exec (op.immInstr rm bit) s = complete (bitTestImm op rm bit) s := by cases op <;> rfl

theorem exec_bitReg (op : BitOp) (reg : RegNum) (rm : RM) (s : State) :
    exec (op.regInstr reg rm) s = complete (bitTestReg op reg rm) s := by cases op <;> rfl

theorem bitFlags_run (c : Bool) (s : State) : ∃ f : Flags, f.sameControl s.flags = true ∧ f.zf = s.flags.zf ∧
    f.cf = c ∧ bitFlags c s = .ok () (s.flagged f 4) :=
  ⟨{ s.flags with
    cf := c, pf := Config.freeBit s.draws, af := Config.freeBit (s.draws + 1)
    sf := Config.freeBit (s.draws + 2), ovf := Config.freeBit (s.draws + 3) }, sameControl_refl s.flags, rfl, rfl, rfl⟩

/-- Writing back the unit that BT leaves as it was changes nothing. -/
theorem bitReg_run (op : BitOp) (w : Width) (r : RegNum) (b : Nat) (s : State) : bitReg op w r b s =
    bitFlags (bitOf (s.reg w r) b) (if op.writes then s.regPut w r (op.apply (s.reg w r) b) else s) := by
  simp only [bitReg, M.bind_run, getReg_run, setReg_regPut]
  cases op with
  | test => exact congrArg _ (regPut_self s w r)
  | complement | reset | set => rfl

theorem bitMem_run {op : BitOp} {w : Width} {k : SReg} {off : BitVec 32} (b : Nat)
    (reads : s.reaches k off w.bytes false w.bytes = true)
    (writes : op.writes = true → s.reaches k off w.bytes true w.bytes = true) : bitMem op w k off b s =
      bitFlags (bitOf (s.memVal w k off) b)
        (if op.writes then s.memPut w k off (op.apply (s.memVal w k off) b) else s) := by
  rw [bitMem]
  by_cases written : op.writes = true
  · simp only [if_pos written, M.bind_run, probeWrite_ok (writes written), segReadV_ok reads,
      segWriteV_ok _ (writes written)]
  · simp only [if_neg written, M.bind_run, M.pure_run, segReadV_ok reads]

/-- An instruction that leaves its unit as the operation has it, and the flags of a bit test. -/
theorem complete_bitFlags {m : M Unit} (op : BitOp) {n : Nat} (a : BitVec n) (b : Nat) (put : BitVec n → State)
    (run : m s = bitFlags (bitOf a b) (if op.writes then put (op.apply a b) else s))
    (flags : ∀ v, (put v).flags = s.flags) :
    ∃ (f : Flags) (v : BitVec n),
      (∀ k : Nat, k < n → v.getLsbD k = if k = b then op.newBit (a.getLsbD k) else a.getLsbD k) ∧
      f.sameControl s.flags = true ∧ f.zf = s.flags.zf ∧ f.cf = a.getLsbD b ∧
      complete m s = .next ((if op.writes then put v else s).flagged f 4).advance := by
  have kept : (if op.writes then put (op.apply a b) else s).flags = s.flags := by
    split
    · exact flags _
    · rfl
  obtain ⟨f, control, zf, cf, ends⟩ := bitFlags_run (bitOf a b) (if op.writes then put (op.apply a b) else s)
  exact ⟨f, op.apply a b, fun k h => op.getLsbD_apply a b h, kept ▸ control, kept ▸ zf, cf,
    complete_ok (run.trans ends)⟩

/-- The accesses of a bit test in memory: a read, and a write where the unit is written. -/
theorem bitReaches_iff {op : BitOp} {reads writes : Bool} :
    (reads && (!op.writes || writes)) = true ↔ reads = true ∧ (op.writes = true → writes = true) := by
  cases op.writes <;> simp

/-- Settles O25: a register and a unit in memory are read, changed in one bit and written alike; only where the unit in
memory stands depends on the form of the offset. -/
theorem bitTestsComplete : Obligations.BitTestsComplete := by
  intro op s reg r m bit w n q span far writes reaches newBit ends
  have farEq : s.bitUnit w m (s.reg w reg).toInt = far := s.bitUnit_eq w m _
  rw [exec_bitImm, exec_bitReg, exec_bitImm, exec_bitReg]
  refine ⟨complete_bitFlags op _ n _ (bitReg_run op w r n s) fun _ => rfl,
    complete_bitFlags op _ q _ (bitReg_run op w r q s) fun _ => rfl, fun reachable => ?_, fun reachable => ?_⟩
  · obtain ⟨reads, writable⟩ := bitReaches_iff.1 reachable
    exact complete_bitFlags op _ n _ (bitMem_run n reads writable) (s.memPut_flags w _ _)
  · obtain ⟨reads, writable⟩ := bitReaches_iff.1 reachable
    have run : bitTestReg op reg (.mem m) s = bitMem op w (s.memSeg m) far q s := by rw [← farEq]; rfl
    exact complete_bitFlags op _ q _ (run.trans (bitMem_run q reads writable)) (s.memPut_flags w _ _)

end Sys2Proof.Machine
end

section
/-! Near jumps, calls and returns (R370 to R372, R375 to R377, R381, R382), and the loop instructions (R403 to R406):
the target is checked against the CS limit, and beyond it #GP(0) is taken from the unchanged state. -/

namespace Sys2Proof.Machine

/-- #GP(0) raised where a fault restores the state before. -/
theorem finish_gp {m : M Unit} {s u : State} (raised : m s = .error (.exc ⟨13#8, some 0#16⟩) u)
    (restored : restore s u = s) : finish m s = deliver ⟨13#8, .fault, s.eip, some 0#16⟩ s := by
  rw [finish_exc raised, restored]
  rfl

/-! Transfers. -/

section
variable {s : State} {t : BitVec 32}

theorem nearTransfer_inside (inside : (ipMask s.os t).toNat ≤ s.segs.cs.limit.toNat) :
    nearTransfer t s = .ok () (s.jumped (ipMask s.os t)) := by
  simp only [nearTransfer, M.bind_run, getS_run, checkTarget_inside inside, jumpTo_run]
  rfl

theorem nearTransfer_beyond (beyond : s.segs.cs.limit.toNat < (ipMask s.os t).toNat) :
    nearTransfer t s = .error (.exc ⟨13#8, some 0#16⟩) s := by
  simp only [nearTransfer, M.bind_run, getS_run, checkTarget_beyond beyond]

/-- A call within the limit pushes next IP before the transfer (R371). -/
theorem callTo_inside (inside : (ipMask s.os t).toNat ≤ s.segs.cs.limit.toNat) (pushes : s.pushes s.os.width = true) :
    callTo t s =
      .ok () ((s.pushed s.os.width (s.nextIP.setWidth s.os.width.bits)).jumped (ipMask s.os t)) := by
  simp only [callTo, M.bind_run, getS_run, checkTarget_inside inside, push_ok _ pushes, jumpTo_run]
  rfl

theorem callTo_beyond (beyond : s.segs.cs.limit.toNat < (ipMask s.os t).toNat) :
    callTo t s = .error (.exc ⟨13#8, some 0#16⟩) s := by
  simp only [callTo, M.bind_run, getS_run, checkTarget_beyond beyond]

end

/-! Returns. -/

section
variable {s : State} (k : BitVec 16) (pops : s.pops s.os.width = true)
include pops

/-- A return within the limit: the target is popped, and the immediate released (R381, R382). -/
theorem nearReturn_inside
    (inside : (ipMask s.os ((s.popVal s.os.width).setWidth 32)).toNat ≤ s.segs.cs.limit.toNat) :
    let t := s.popped s.os.width
    nearReturn k s = .ok () ((t.setGpr (t.gprWithSp (t.spAdd (k.setWidth 32)))).jumped
      (ipMask s.os ((s.popVal s.os.width).setWidth 32))) := by
  have check := checkTarget_inside (s := s.popped s.os.width) inside
  simp only [nearReturn, M.bind_run, getS_run, pop_ok pops, check, updS_run, jumpTo_run]
  rfl

theorem nearReturn_beyond
    (beyond : s.segs.cs.limit.toNat < (ipMask s.os ((s.popVal s.os.width).setWidth 32)).toNat) :
    nearReturn k s = .error (.exc ⟨13#8, some 0#16⟩) (s.popped s.os.width) := by
  have check := checkTarget_beyond (s := s.popped s.os.width) beyond
  simp only [nearReturn, M.bind_run, getS_run, pop_ok pops, check]

end

/-- Settles O27: each form is a near transfer, call or return to its target, which is within the CS limit or beyond
it. -/
theorem nearTransfersComplete : Obligations.NearTransfersComplete := by
  intro s d8 disp rm k w inside gp ind back jumps calls returns
  have jump {m : M Unit} {t : BitVec 32} (run : m s = nearTransfer t s) : jumps t (finish m s) :=
    ⟨fun within => finish_ok (run.trans (nearTransfer_inside within)),
      fun beyond => finish_gp (run.trans (nearTransfer_beyond (Nat.not_le.1 beyond))) (restore_self s)⟩
  have call {m : M Unit} {t : BitVec 32} (run : m s = callTo t s) : calls t (finish m s) :=
    ⟨fun within pushes => finish_ok (run.trans (callTo_inside within pushes)),
      fun beyond => finish_gp (run.trans (callTo_beyond (Nat.not_le.1 beyond))) (restore_self s)⟩
  have ret (pops : s.pops w = true) (k : BitVec 16) : returns k (finish (nearReturn k) s) :=
    ⟨fun within => finish_ok (nearReturn_inside k pops within),
      fun beyond => finish_gp (nearReturn_beyond k pops (Nat.not_le.1 beyond)) rfl⟩
  have read (reads : s.rmReads w rm = true) (f : BitVec 32 → M Unit) :
      (readRM w rm >>= fun v => f (v.setWidth 32)) s = f ind s := by
    rw [M.bind_run, readRM_ok reads]
  exact ⟨jump rfl, jump rfl, call rfl, fun reads => ⟨jump (read reads nearTransfer), call (read reads callTo)⟩,
    fun pops => ⟨ret pops 0#16, ret pops k⟩⟩

/-! JCXZ, LOOP, LOOPZ and LOOPNZ. -/

/-- A conditional jump from a state with other general registers, of which the CS limit and the target know nothing: it
is not taken, or taken, or #GP(0) with the registers as they were (R370, R403 to R406). -/
theorem finish_jumpIf {m : M Unit} {s : State} {g : Oct (BitVec 32)} {taken : Bool} {d : BitVec 32}
    (run : m s = jumpIf taken d (s.setGpr g)) :
    let target := ipMask s.os (s.nextIP + d)
    (taken ≠ true → finish m s = .next (s.setGpr g).advance) ∧
    (taken = true → target.toNat ≤ s.segs.cs.limit.toNat → finish m s = .next ((s.setGpr g).jumped target)) ∧
    (taken = true → s.segs.cs.limit.toNat < target.toNat →
      finish m s = deliver ⟨13#8, .fault, s.eip, some 0#16⟩ s) := by
  intro target
  cases taken with
  | false => exact ⟨fun _ => finish_ok run, nofun, nofun⟩
  | true =>
    exact ⟨fun untaken => absurd rfl untaken,
      fun _ inside => finish_ok (run.trans (jumpRel_inside (s := s.setGpr g) inside)),
      fun _ beyond => finish_gp (run.trans (jumpRel_beyond (s := s.setGpr g) beyond)) rfl⟩

/-- Settles O30: each is a conditional jump, for the loops from the state with the count lowered. -/
theorem loopsComplete : Obligations.LoopsComplete := by
  intro s d t target ends
  have jump {m : M Unit} {g : Oct (BitVec 32)} {taken : Bool} {cond : Prop} (iff : taken = true ↔ cond)
      (run : m s = jumpIf taken (d.signExtend 32) (s.setGpr g)) : ends (s.setGpr g) cond (finish m s) := by
    have h := finish_jumpIf run
    simpa only [ends, target, ne_eq, iff] using h
  have loop (zf : Bool) {cond : Prop} (iff : (t.count != 0#32 && zf) = true ↔ cond) :
      ends t cond (finish (loopIf zf d) s) := jump iff rfl
  exact ⟨jump (g := s.gpr) beq_iff_eq rfl, loop true (by simp), loop s.flags.zf (by simp),
    loop (!s.flags.zf) (by simp)⟩

end Sys2Proof.Machine
end

section
/-! Far jumps, calls, returns and IRET in real-address and virtual-8086 mode (R373, R374, R378 to R380, R383, R384,
R413): CS takes the selector and the base it gives, and an offset above FFFF is #GP(0). -/

namespace Sys2Proof.Machine

/-- The state after CS is loaded with a selector, on the other parts of `r`, and the transfer to an offset (R380). -/
def State.intoReal (t : State) (r : SegReg) (sel : BitVec 16) (o : BitVec 32) : State :=
  (t.setSegs (t.segs.put .cs (r.toReal sel))).jumped o

section
variable (t : State) (r : SegReg) (sel : BitVec 16) (o : BitVec 32)

@[simp] theorem State.intoReal_gpr : (t.intoReal r sel o).gpr = t.gpr := rfl
@[simp] theorem State.intoReal_eip : (t.intoReal r sel o).eip = o := rfl
@[simp] theorem State.intoReal_segs : (t.intoReal r sel o).segs = t.segs.put .cs (r.toReal sel) := rfl
@[simp] theorem State.intoReal_flags : (t.intoReal r sel o).flags = t.flags := rfl
@[simp] theorem State.intoReal_sys : (t.intoReal r sel o).sys = t.sys := rfl
@[simp] theorem State.intoReal_fpu : (t.intoReal r sel o).fpu = t.fpu := rfl
@[simp] theorem State.intoReal_link : (t.intoReal r sel o).link = t.link := rfl
@[simp] theorem State.intoReal_mem : (t.intoReal r sel o).mem = t.mem := rfl

end

/-! JMP and CALL (R380). -/

/-- Where the stack holds the items of a far call the 80286 does not shut down (R380, R604). -/
theorem requireRoomReal_ok {s : State} {w : Width} {k : Nat} (room : s.holds w k = true) :
    requireRoomReal w k s = .ok () s := by
  have holds : stackHolds s.segs.ss s.sp w.bytes k = true := room
  simp [requireRoomReal, holds, requireRoom_ok room]

section
variable {s : State} (sel : BitVec 16) {off : BitVec 32}

theorem farReal_beyond (kind : FarKind) (beyond : 0xFFFF < off.toNat) :
    farReal sel off kind s = .error (.exc ⟨13#8, some 0#16⟩) s := by
  simp only [farReal, M.bind_run, getS_run, if_pos beyond, raiseGP, raiseExc_run]

theorem farReal_jmp (within : off.toNat ≤ 0xFFFF) :
    farReal sel off .jmp s = .ok () (s.intoReal s.segs.cs sel off) := by
  simp only [farReal, M.bind_run, getS_run, if_neg (Nat.not_lt.2 within), putSeg_run, jumpTo_run]
  rfl

/-- A call saves what the call of protected mode saves (`FarKind.save`), with room for it or a shutdown. -/
theorem farReal_call {u : State} (within : off.toNat ≤ 0xFFFF) (room : s.holds s.os.width 2 = true)
    (saved : FarKind.call.save s.os s = .ok () u) :
    farReal sel off .call s = .ok () (u.intoReal s.segs.cs sel off) := by
  have pushed : pushReturn s.os s = .ok () u := by
    rwa [FarKind.save, M.bind_run, requireRoom_ok room] at saved
  simp only [farReal, M.bind_run, getS_run, if_neg (Nat.not_lt.2 within), requireRoomReal_ok room, pushed, putSeg_run,
    jumpTo_run]
  rfl

end

theorem farTransfer_real {s : State} (mode : s.protMode = false) (sel : BitVec 16) (off : BitVec 32) (kind : FarKind) :
    farTransfer sel off kind s = farReal sel off kind s := by
  simp only [farTransfer, M.bind_run, getS_run, mode]
  rfl

/-! RET (R383). -/

/-- The stack pointer written with its own value. -/
theorem State.gprWithSp_sp (s : State) : s.setGpr (s.gprWithSp s.sp) = s := by
  cases wide : s.stack32 with
  | true =>
    have write : s.gprWithSp s.sp = (s.regPut .w32 rSP (s.reg .w32 rSP)).gpr := by
      simp [State.gprWithSp, State.sp, wide, spTrunc, State.regPut]
    rw [write, regPut_self]
    rfl
  | false =>
    have low : s.sp.extractLsb' 0 16 = s.reg .w16 rSP := by
      simp [State.sp, wide, spTrunc, State.reg, regRead, BitVec.extractLsb'_setWidth_of_le]
    have write : s.gprWithSp s.sp = (s.regPut .w16 rSP (s.reg .w16 rSP)).gpr := by
      rw [← low]
      simp [State.gprWithSp, wide, State.regPut]
    rw [write, regPut_self]
    rfl

/-- The registers after some pops and an immediate are those with the stack pointer moved once (R383). -/
theorem State.gprWithSp_popped (s : State) (w : Width) (n : Nat) (k : BitVec 32) :
    (s.poppedTimes w n).gprWithSp ((s.poppedTimes w n).spAdd k) =
      s.gprWithSp (s.spAdd (BitVec.ofNat 32 (n * w.bytes) + k)) := by
  rw [s.poppedTimes_spAdd, s.poppedTimes_gprWithSp]

section
variable {s : State} (mode : s.protMode = false) (k : BitVec 16) (pops : s.popsTimes s.os.width 2 = true)
include mode pops

/-- A far return looks at its two items before it pops them. -/
theorem farReturn_items : farReturn k s =
    (if 65535 < ((s.popVals s.os.width 0).setWidth 32).toNat then raiseGP 0#16
    else do
      putSeg .cs (s.segs.cs.toReal ((s.popVals s.os.width 1).setWidth 16))
      setSp (s.spAdd (BitVec.ofNat 32 (2 * s.os.width.bytes) + k.setWidth 32))
      jumpTo ((s.popVals s.os.width 0).setWidth 32)) s := by
  have top := peek_popVals pops (k := 0) (by decide)
  have next := peek_popVals pops (k := 1) (by decide)
  rw [Nat.zero_mul] at top
  rw [Nat.one_mul] at next
  unfold farReturn
  simp only [M.bind_run, getS_run, top, next, mode]
  rfl

theorem farReturn_within (within : ((s.popVals s.os.width 0).setWidth 32).toNat ≤ 0xFFFF) :
    let t := s.poppedTimes s.os.width 2
    farReturn k s = .ok () ((t.setGpr (t.gprWithSp (t.spAdd (k.setWidth 32)))).intoReal s.segs.cs
      ((s.popVals s.os.width 1).setWidth 16) ((s.popVals s.os.width 0).setWidth 32)) := by
  intro t
  rw [farReturn_items mode k pops, if_neg (Nat.not_lt.2 within), s.gprWithSp_popped,
    show t = s.setGpr t.gpr from s.poppedTimes_frame _ _]
  rfl

theorem farReturn_beyond (beyond : 0xFFFF < ((s.popVals s.os.width 0).setWidth 32).toNat) :
    farReturn k s = .error (.exc ⟨13#8, some 0#16⟩) s := by
  rw [farReturn_items mode k pops, if_pos beyond]
  rfl

end

/-! IRET (R413). -/

/-- IF can be loaded in these modes where IRET is allowed at all (R246, R627). -/
theorem flagRights_ifOk {s : State} (mode : s.protMode = false) (level : s.v86 = false ∨ s.flags.iopl = 3#2) :
    s.flagRights.ifOk = true := by
  cases pe : s.sys.cr0.pe with
  | false => simp [State.flagRights, pe]
  | true =>
    have vm : s.flags.vm = true := by simpa [State.protMode, pe] using mode
    have iopl : s.flags.iopl = 3#2 := by simpa [State.v86, pe, vm] using level
    simp [State.flagRights, State.cpl, pe, vm, iopl]

/-- The flags IRET loads in real-address and virtual-8086 mode, bit by bit. -/
theorem irFlags_real {s : State} (mode : s.protMode = false) (level : s.v86 = false ∨ s.flags.iopl = 3#2)
    (v : BitVec 32) :
    let real286 : Bool := s.cfg.cpu == .p286 && !s.sys.cr0.pe
    s.irFlags v s.os =
    { cf := v.getLsbD 0, pf := v.getLsbD 2, af := v.getLsbD 4, zf := v.getLsbD 6, sf := v.getLsbD 7
      tf := v.getLsbD 8, ie := v.getLsbD 9, df := v.getLsbD 10, ovf := v.getLsbD 11
      iopl := if s.cpl = 0#2 ∧ real286 = false then v.extractLsb' 12 2 else s.flags.iopl
      nt := if real286 then s.flags.nt else v.getLsbD 14
      rf := if s.os = .s32 then v.getLsbD 16 else s.flags.rf
      vm := s.flags.vm
      ac := if s.os == .s32 && s.cfg.cpu == .p486 then v.getLsbD 18 else s.flags.ac } := by
  intro real286
  have rights : s.flagRights = ⟨true, s.cpl == 0#2 && !real286, !real286⟩ := by
    have real : (!s.sys.cr0.pe && !s.has386) = real286 := by
      rw [Bool.and_comm, State.has386, bne, Bool.not_not]
    rw [← flagRights_ifOk mode level, ← real]
    rfl
  unfold State.irFlags
  rw [rights]
  cases s.os <;> cases real286 <;> simp [Flags.load16, Flags.ofWord, bitOf, State.has486]

section
variable {s : State} (mode : s.protMode = false) (level : s.v86 = false ∨ s.flags.iopl = 3#2)
  (pops : s.popsTimes s.os.width 3 = true)
include mode level pops

/-- IRET outside protected mode pops its three items before it looks at the offset. -/
theorem iret_items : interruptReturn s =
    (if 65535 < ((s.popVals s.os.width 0).setWidth 32).toNat then raiseGP 0#16
    else do
      putSeg .cs (s.segs.cs.toReal ((s.popVals s.os.width 1).setWidth 16))
      updS (fun t => t.setFlags (s.irFlags ((s.popVals s.os.width 2).setWidth 32) s.os))
      unblockNmi
      jumpTo ((s.popVals s.os.width 0).setWidth 32)) (s.poppedTimes s.os.width 3) := by
  have real : interruptReturn s = iretReal s := by
    have allowed : (s.v86 && s.flags.iopl != 3#2) = false := by
      obtain notV86 | iopl := level
      · simp [notV86]
      · simp [iopl]
    simp only [interruptReturn, M.bind_run, getS_run, mode, allowed]
    rfl
  have item {k : Nat} (hk : k < 3) (f : Val s.os.width → M Unit) := pop_bind_popVals pops hk f
  rw [real]
  exact (item (k := 0) (by decide) _).trans ((item (k := 1) (by decide) _).trans (item (k := 2) (by decide) _))

theorem iret_within (within : ((s.popVals s.os.width 0).setWidth 32).toNat ≤ 0xFFFF) :
    let t := s.poppedTimes s.os.width 3
    interruptReturn s = .ok ()
      (((t.setFlags (s.irFlags ((s.popVals s.os.width 2).setWidth 32) s.os)).setCtl s.ctl.afterIret).intoReal s.segs.cs
        ((s.popVals s.os.width 1).setWidth 16) ((s.popVals s.os.width 0).setWidth 32)) := by
  intro t
  rw [iret_items mode level pops, if_neg (Nat.not_lt.2 within), s.poppedTimes_frame s.os.width 3,
    show t = s.setGpr t.gpr from s.poppedTimes_frame _ _]
  rfl

theorem iret_beyond (beyond : 0xFFFF < ((s.popVals s.os.width 0).setWidth 32).toNat) :
    interruptReturn s = .error (.exc ⟨13#8, some 0#16⟩) (s.poppedTimes s.os.width 3) := by
  rw [iret_items mode level pops, if_pos beyond]
  rfl

end

/-- Pops alone are undone by a fault (R606). -/
theorem restore_poppedTimes (s : State) (w : Width) (n : Nat) : restore s (s.poppedTimes w n) = s := by
  rw [s.poppedTimes_frame]
  rfl

/-- Settles O31: each instruction is one of the transfers of R380, R383 and R413 outside protected mode, to an offset
within 64KB or beyond. -/
theorem farTransfersReal : Obligations.FarTransfersReal := by
  intro s off sel m k w gp into jumps calls far moff msel o psel t2 t3 v real286 wide486 loaded mode
  have jump {m : M Unit} {sel : BitVec 16} {o : BitVec 32} (run : m s = farTransfer sel o .jmp s) :
      jumps sel o (finish m s) := by
    rw [farTransfer_real mode] at run
    exact ⟨fun within => finish_ok (run.trans (farReal_jmp sel within)),
      fun beyond => finish_gp (run.trans (farReal_beyond sel .jmp beyond)) (restore_self s)⟩
  have call {m : M Unit} {sel : BitVec 16} {o : BitVec 32} (run : m s = farTransfer sel o .call s) :
      calls sel o (finish m s) := by
    rw [farTransfer_real mode] at run
    exact ⟨fun beyond => finish_gp (run.trans (farReal_beyond sel .call beyond)) (restore_self s),
      fun within room =>
        ⟨fun os pushes => finish_ok (run.trans (farReal_call sel within room (save_call16 os room pushes))),
          fun os pushes => finish_ok (run.trans (farReal_call sel within room (save_call32 os room pushes)))⟩⟩
  have pointer (reads : far = true) (kind : FarKind) :
      (readFarPtr m >>= fun p => farTransfer p.1 p.2 kind) s = farTransfer msel moff kind s := by
    obtain ⟨offset, selector⟩ := Bool.and_eq_true_iff.1 reads
    rw [M.bind_run, readFarPtr_ok offset selector]
  refine ⟨jump rfl, call rfl, fun reads => ⟨jump (pointer reads .jmp), call (pointer reads .call)⟩,
    fun pops within => ⟨?_, finish_ok (farReturn_within mode k pops within)⟩,
    fun pops beyond => ⟨finish_gp (farReturn_beyond mode _ pops beyond) (restore_self s),
      finish_gp (farReturn_beyond mode k pops beyond) (restore_self s)⟩,
    fun level pops within => ?_,
    fun level pops beyond => finish_gp (iret_beyond mode level pops beyond) (restore_poppedTimes s _ 3)⟩
  · have released : t2.setGpr (t2.gprWithSp (t2.spAdd ((0#16).setWidth 32))) = t2 := by
      rw [BitVec.setWidth_zero, State.spAdd_zero, State.gprWithSp_sp]
    have done := finish_ok (farReturn_within mode 0#16 pops within)
    rwa [released] at done
  · have done := finish_ok (iret_within mode level pops within)
    rwa [irFlags_real mode level] at done

end Sys2Proof.Machine
end

section
/-! ENTER, LEAVE, BOUND and INTO without overflow (R407, R408, R411, R412): the accesses of ENTER in the order it makes
them are those it checks before the first write. -/

namespace Sys2Proof.Machine

/-- A computation that goes on, and what follows it. -/
theorem M.bind_ok {α β : Type} {x : M α} {s t : State} {a : α} (h : x s = .ok a t) (f : α → M β) :
    (x >>= f) s = f a t := by
  rw [M.bind_run, h]

/-! The stack pointer and the frame pointer. -/

/-- The width of an implicit stack reference (R112). -/
def State.stackWidth (s : State) : Width := if s.stack32 then .w32 else .w16

/-- The frame pointer at that width. -/
def State.bp (s : State) : BitVec 32 := (s.reg s.stackWidth rBP).setWidth 32

theorem State.bp_eq (s : State) : s.bp = spTrunc s.stack32 (s.reg .w32 rBP) := by
  unfold State.bp State.stackWidth
  cases s.stack32 <;> simp [spTrunc, State.reg, regRead]

/-- Writing the frame pointer leaves the stack pointer alone. -/
theorem State.regPut_bp_sp (s : State) (w : Width) (v : Val w) : (s.regPut w rBP v).sp = s.sp := by
  have apart : (regWrite s.gpr w rBP v).get rSP = s.gpr.get rSP := by
    cases w with
    | w8 => exact Oct.get_set_ne (i := rBP - 4#3) (j := rSP) _ _ (by decide)
    | w16 | w32 => exact Oct.get_set_ne (i := rBP) (j := rSP) _ _ (by decide)
  exact congrArg (spTrunc s.stack32) apart

theorem State.regPut_bp_spAdd (s : State) (w : Width) (v : Val w) (d : BitVec 32) :
    (s.regPut w rBP v).spAdd d = s.spAdd d :=
  congrArg (fun p => spTrunc s.stack32 (p + d)) (s.regPut_bp_sp w v)

/-- A push moves the stack pointer by an item. -/
theorem State.pushed_spAdd (s : State) (w : Width) (v : Val w) (d : BitVec 32) :
    (s.pushed w v).spAdd d = s.spAdd (-(BitVec.ofNat 32 w.bytes) + d) := by
  rw [← State.spAdd_gprWithSp]
  exact SameAccess.spAdd (s := s.setGpr (s.gprWithSp (s.pushOff w))) (t := s.pushed w v)
    ⟨s.pushed_cfg w v, s.pushed_segs w v, s.pushed_sys w v, congrArg Flags.vm (s.pushed_flags w v),
      congrArg Flags.ac (s.pushed_flags w v)⟩ rfl d

/-- A push leaves the frame pointer alone. -/
theorem State.pushed_bp (s : State) (w : Width) (v : Val w) : (s.pushed w v).bp = s.bp := by
  have apart : (s.pushed w v).gpr.get rBP = s.gpr.get rBP := by
    show (s.gprWithSp (s.pushOff w)).get rBP = _
    unfold State.gprWithSp
    split <;> exact Oct.get_set_ne (i := rSP) (j := rBP) _ _ (by decide)
  have wide : (s.pushed w v).stack32 = s.stack32 := by simp [State.stack32]
  rw [State.bp_eq, State.bp_eq, wide]
  exact congrArg (spTrunc s.stack32) apart

/-! The frame pointers of the outer procedures. -/

/-- The state with the frame pointer lowered by an item (R407). -/
def State.bpDown (s : State) (w : Width) : State :=
  s.regPut s.stackWidth rBP (s.reg s.stackWidth rBP - BitVec.ofNat s.stackWidth.bits w.bytes)

theorem State.bpDown_bp (s : State) (w : Width) :
    (s.bpDown w).bp = spTrunc s.stack32 (s.bp - BitVec.ofNat 32 w.bytes) := by
  unfold State.bpDown State.bp
  show ((s.regPut s.stackWidth rBP _).reg s.stackWidth rBP).setWidth 32 = _
  unfold State.stackWidth
  cases s.stack32 with
  | true => simp [State.reg, State.regPut, regRead, regWrite, spTrunc, Width.bits]
  | false =>
    simp only [Bool.false_eq_true, ↓dreduceIte, ↓reduceIte, Width.bits, State.reg, State.regPut, regRead, regWrite,
      Nat.reduceAdd, State.setGpr_gpr, Oct.get_set_self, spTrunc]
    rw [BitVec.extractLsb'_append_eq_right]
    apply BitVec.eq_of_toNat_eq
    simp [BitVec.toNat_sub]
    omega

/-- The state after one frame pointer is copied. -/
def State.copiedOne (s : State) (w : Width) : State :=
  (s.bpDown w).pushed w ((s.bpDown w).memVal w .ss (s.bpDown w).bp)

theorem State.copied_succ (s : State) (w : Width) (k : Nat) : s.copied w (k + 1) = (s.copiedOne w).copied w k := rfl

theorem State.copies_succ (s : State) (w : Width) (k : Nat) : s.copies w (k + 1) = true ↔
    (s.bpDown w).reaches .ss (s.bpDown w).bp w.bytes false w.bytes = true ∧ (s.bpDown w).pushes w = true ∧
      (s.copiedOne w).copies w k = true := by
  rw [← and_assoc, ← Bool.and_eq_true, ← Bool.and_eq_true]
  rfl

/-- Copies that go through are made (R407). -/
theorem copyFrames_ok {w : Width} {k : Nat} {s : State} (h : s.copies w k = true) :
    copyFrames w k s = .ok () (s.copied w k) := by
  induction k generalizing s with
  | zero => rfl
  | succ k ih =>
    obtain ⟨reads, pushes, rest⟩ := (s.copies_succ w k).1 h
    have one : copyFrames w (k + 1) s =
        (segReadV w .ss (s.bpDown w).bp >>= fun v => push w v >>= fun _ => copyFrames w k) (s.bpDown w) := rfl
    rw [one, M.bind_run, segReadV_ok reads]
    show (push w _ >>= fun _ => copyFrames w k) (s.bpDown w) = _
    rw [M.bind_run, push_ok _ pushes]
    exact ih rest

/-! The accesses in their order. -/

/-- Where ENTER's i-th item is stored. -/
def State.itemOff (s : State) (w : Width) (i : Nat) : BitVec 32 := s.spAdd (-(BitVec.ofNat 32 (w.bytes * (i + 1))))

/-- Where the i-th frame pointer is copied from. -/
def State.outerOff (s : State) (w : Width) (i : Nat) : BitVec 32 :=
  spTrunc s.stack32 (s.reg .w32 rBP - BitVec.ofNat 32 (w.bytes * (i + 1)))

/-- A state that ENTER passes through from `s`, with `i` items pushed and `j` frame pointers copied. -/
structure State.EnterAt (s : State) (w : Width) (i j : Nat) (t : State) : Prop where
  same : SameAccess s t
  sp : ∀ d, t.spAdd d = s.spAdd (d - BitVec.ofNat 32 (w.bytes * i))
  bp : t.bp = spTrunc s.stack32 (s.reg .w32 rBP - BitVec.ofNat 32 (w.bytes * j))

section
variable {s t : State} {w : Width} {i j : Nat}

theorem State.enterAt_start (s : State) (w : Width) : s.EnterAt w 0 0 s :=
  ⟨⟨rfl, rfl, rfl, rfl, rfl⟩, fun d => by simp, by simp [State.bp_eq]⟩

theorem State.EnterAt.stack32 (h : s.EnterAt w i j t) : t.stack32 = s.stack32 := by
  unfold State.stack32; rw [h.same.segs]

theorem State.EnterAt.pushed (h : s.EnterAt w i j t) (v : Val w) : s.EnterAt w (i + 1) j (t.pushed w v) where
  same := h.same.trans (sameAccess_pushed t w v)
  sp d := by
    rw [t.pushed_spAdd, h.sp, Nat.mul_succ, BitVec.ofNat_add]
    congr 1
    bv_omega
  bp := (t.pushed_bp w v).trans h.bp

theorem State.EnterAt.bpDown (h : s.EnterAt w i j t) : s.EnterAt w i (j + 1) (t.bpDown w) where
  same := h.same.trans (sameAccess_gpr t _)
  sp d := (t.regPut_bp_spAdd _ _ d).trans (h.sp d)
  bp := by
    rw [t.bpDown_bp, h.stack32, h.bp, BitVec.sub_eq_add_neg, spTrunc_add_spTrunc, Nat.mul_succ, BitVec.ofNat_add]
    congr 1
    bv_omega

/-- The next push writes the next item. -/
theorem State.EnterAt.writes (h : s.EnterAt w i j t) (pushes : t.pushes w = true) :
    s.reaches .ss (s.itemOff w i) w.bytes true w.bytes = true := by
  have off : t.pushOff w = s.itemOff w i := by
    unfold State.pushOff State.itemOff
    rw [h.sp, Nat.mul_succ, BitVec.ofNat_add]
    congr 1
    bv_omega
  rw [← off, ← h.same.reaches]
  exact (Bool.and_eq_true_iff.1 pushes).2

theorem State.EnterAt.copied {k : Nat} (h : s.EnterAt w i j t) (copies : t.copies w k = true) :
    s.EnterAt w (i + k) (j + k) (t.copied w k) ∧
    ∀ m < k, s.reaches .ss (s.outerOff w (j + m)) w.bytes false w.bytes = true ∧
      s.reaches .ss (s.itemOff w (i + m)) w.bytes true w.bytes = true := by
  induction k generalizing t i j with
  | zero => exact ⟨h, nofun⟩
  | succ k ih =>
    obtain ⟨reads, pushes, rest⟩ := (t.copies_succ w k).1 copies
    have down := h.bpDown
    obtain ⟨last, all⟩ := ih (down.pushed _) rest
    rw [Nat.add_right_comm, Nat.add_right_comm j] at last
    refine ⟨last, fun m hm => ?_⟩
    cases m with
    | zero =>
      rw [down.same.reaches, down.bp] at reads
      exact ⟨reads, down.writes pushes⟩
    | succ m =>
      have later := all m (by omega)
      rwa [Nat.add_right_comm, Nat.add_right_comm i] at later

end

theorem State.mem_enterAccesses {s : State} {w : Width} {n : Nat} {a : BitVec 32 × Bool}
    (h : a ∈ s.enterAccesses w n) :
    (∃ i ≤ n, a = (s.itemOff w i, true)) ∨ ∃ i < n - 1, a = (s.outerOff w i, false) := by
  obtain first | rest := List.mem_cons.1 h
  · exact .inl ⟨0, Nat.zero_le n, first⟩
  · split at rest
    · cases rest
    · obtain copy | last := List.mem_append.1 rest
      · obtain ⟨i, range, pair⟩ := List.mem_flatMap.1 copy
        have lt := List.mem_range.1 range
        obtain read | write := List.mem_pair.1 pair
        · exact .inr ⟨i, lt, read⟩
        · exact .inl ⟨i + 1, by omega, write⟩
      · exact .inl ⟨n, le_refl n, List.mem_singleton.1 last⟩

section
variable {s : State} {n : Nat} {l : List (BitVec 32 × Bool)}
  (h : ∀ a ∈ l, s.reaches .ss a.1 n a.2 n = true)
include h

/-- Accesses that go through pass their segment checks. -/
theorem checkStackSegs_ok : checkStackSegs n l s = .ok () s := by
  induction l with
  | nil => rfl
  | cons a l ih =>
    obtain ⟨off, write⟩ := a
    have first : s.allows .ss off n write n = true := (Bool.and_eq_true_iff.1 (h _ List.mem_cons_self)).1
    rw [checkStackSegs, M.bind_run, segCheck_ok first]
    exact ih fun a ha => h a (List.mem_cons_of_mem _ ha)

theorem probeStack_ok : probeStack n l s = .ok () s := by
  induction l with
  | nil => rfl
  | cons a l ih =>
    obtain ⟨off, write⟩ := a
    rw [probeStack, M.bind_run, probe_ok (h _ List.mem_cons_self)]
    exact ih fun a ha => h a (List.mem_cons_of_mem _ ha)

end

theorem checkTop_ok {s : State} {t : BitVec 32} (h : segHolds s.segs.ss t 1 = true) : checkTop t s = .ok () s := by
  simp [checkTop, h]

/-- The checks before the first write pass where the accesses do and the stack pointer stays in its segment (R606). -/
theorem checkEnter_ok {s : State} {w : Width} {n : Nat} {frame : BitVec 16}
    (reach : ∀ a ∈ s.enterAccesses w n, s.reaches .ss a.1 w.bytes a.2 w.bytes = true)
    (top : segHolds s.segs.ss (s.spAdd (-(BitVec.ofNat 32 (w.bytes * (n + 1)) + frame.setWidth 32))) 1 = true) :
    checkEnter w n frame s = .ok () s := by
  rw [checkEnter, M.bind_run, getS_run]
  dsimp only
  split
  · simp only [M.bind_run, checkStackSegs_ok reach, checkTop_ok top, probeStack_ok reach]
  · rfl

/-! ENTER. -/

/-- The state with the frame built: the saved frame pointer, the copied ones and the new one (R407). -/
def State.framesPushed (s : State) (w : Width) (n : Nat) : State :=
  let s1 := s.pushed w (s.reg w rBP)
  if n = 0 then s1 else (s1.copied w (n - 1)).pushed w (s1.sp.setWidth w.bits)

section
variable {s : State} {w : Width} {n : Nat}
  (others : n ≠ 0 → (s.pushed w (s.reg w rBP)).copies w (n - 1) = true ∧
    ((s.pushed w (s.reg w rBP)).copied w (n - 1)).pushes w = true)
include others

/-- The frame pointers are copied and the new one pushed, but for level 0. -/
theorem pushFrames_ok : (if n = 0 then pure ()
    else do
      copyFrames w (n - 1)
      push w ((s.pushed w (s.reg w rBP)).sp.setWidth w.bits)) (s.pushed w (s.reg w rBP)) =
      .ok () (s.framesPushed w n) := by
  unfold State.framesPushed
  by_cases zero : n = 0
  · simp only [if_pos zero, M.pure_run]
  · obtain ⟨copies, last⟩ := others zero
    simp only [if_neg zero, M.bind_run, copyFrames_ok copies, push_ok _ last]

/-- Before the frame pointer is set ENTER has pushed one item more than its level; its accesses are those it checks. -/
theorem framesPushed_at (first : s.pushes w = true) : (∃ j, s.EnterAt w (n + 1) j (s.framesPushed w n)) ∧
    ∀ a ∈ s.enterAccesses w n, s.reaches .ss a.1 w.bytes a.2 w.bytes = true := by
  have start := s.enterAt_start w
  have one := start.pushed (s.reg w rBP)
  unfold State.framesPushed
  by_cases zero : n = 0
  · subst zero
    refine ⟨⟨0, one⟩, fun a ha => ?_⟩
    obtain ⟨i, hi, rfl⟩ | ⟨i, hi, rfl⟩ := State.mem_enterAccesses ha
    · obtain rfl : i = 0 := Nat.le_zero.1 hi
      exact start.writes first
    · cases hi
  · obtain ⟨copies, last⟩ := others zero
    obtain ⟨at', all⟩ := one.copied copies
    have count : 0 + 1 + (n - 1) = n := by omega
    rw [count] at at'
    simp only [if_neg zero]
    refine ⟨⟨_, at'.pushed _⟩, fun a ha => ?_⟩
    obtain ⟨i, hi, rfl⟩ | ⟨i, hi, rfl⟩ := State.mem_enterAccesses ha
    · obtain rfl | ⟨m, rfl⟩ : i = 0 ∨ ∃ m, i = m + 1 := by cases i <;> simp
      · exact start.writes first
      · by_cases lt : m < n - 1
        · have item := (all m lt).2
          rwa [Nat.zero_add, Nat.add_comm] at item
        · obtain rfl : m + 1 = n := by omega
          exact at'.writes last
    · have outer := (all i hi).1
      rwa [Nat.zero_add] at outer

end

/-- ENTER where its accesses go through and the stack pointer it leaves is in its segment (R407). -/
theorem enter_frames {s : State} {frame : BitVec 16} {level : BitVec 8} :
    let w := s.os.width
    let n := level.toNat % 32
    let s1 := s.pushed w (s.reg w rBP)
    let v := (s.framesPushed w n).regPut w rBP (s1.sp.setWidth w.bits)
    let top := v.spAdd (-(frame.setWidth 32))
    s.pushes w = true → (n ≠ 0 → s1.copies w (n - 1) = true ∧ (s1.copied w (n - 1)).pushes w = true) →
    segHolds s.segs.ss top 1 = true →
    exec (.enter frame level) s = .next (v.setGpr (v.gprWithSp top)).advance := by
  intro w n s1 v top first others room
  obtain ⟨⟨j, at'⟩, reach⟩ := framesPushed_at others first
  have topOff : top = s.spAdd (-(BitVec.ofNat 32 (w.bytes * (n + 1)) + frame.setWidth 32)) := by
    show v.spAdd _ = _
    rw [State.regPut_bp_spAdd, at'.sp]
    congr 1
    bv_omega
  have check : checkEnter w n frame s = .ok () s := checkEnter_ok reach (topOff ▸ room)
  have same : v.segs = s.segs := at'.same.segs
  have last : checkTop top v = .ok () v := checkTop_ok (by rw [same]; exact room)
  exact complete_ok ((M.bind_ok check _).trans ((M.bind_ok (push_ok _ first) _).trans
    ((M.bind_ok (pushFrames_ok others) _).trans (M.bind_ok last _))))

/-! LEAVE, BOUND and INTO. -/

/-- The outcome of an instruction that goes on at next IP depends on what it does from the state alone. -/
theorem complete_congr {m m' : M Unit} {s : State} (h : m s = m' s) : complete m s = complete m' s :=
  finish_congr (by rw [M.bind_run, M.bind_run, h])

/-- LEAVE where the frame pointer names an item that can be read (R408). -/
theorem leave_ok {s : State} :
    let t := s.setGpr (s.gprWithSp s.bp)
    t.pops s.os.width = true →
    exec .leave s = .next ((t.popped s.os.width).regPut s.os.width rBP (t.popVal s.os.width)).advance := by
  intro t pops
  have moved : setSp s.bp s = .ok () t := rfl
  exact complete_ok ((M.bind_ok moved _).trans (M.bind_ok (pop_ok pops) _))

section
variable {s : State} {reg : RegNum} {m : MemOp}
  (lower : s.reaches (s.memSeg m) (s.ea m) s.os.width.bytes false s.os.width.bytes = true)
  (upper : s.reaches (s.memSeg m) (s.ea m + BitVec.ofNat 32 s.os.width.bytes) s.os.width.bytes false s.os.width.bytes
    = true)
include lower upper

/-- BOUND is the comparison of a register with two values in memory (R412). -/
theorem bound_eq : exec (.bound reg m) s = complete
    (if (s.reg s.os.width reg).toInt < (s.memVal s.os.width (s.memSeg m) (s.ea m)).toInt ∨
        (s.memVal s.os.width (s.memSeg m) (s.ea m + BitVec.ofNat 32 s.os.width.bytes)).toInt <
          (s.reg s.os.width reg).toInt
      then raiseBR else pure ()) s :=
  complete_congr ((M.bind_ok (segReadV_ok lower) _).trans (M.bind_ok (segReadV_ok upper) _))

end

/-- Settles O32: each instruction from the accesses it makes, in their order. -/
theorem framesComplete : Obligations.FramesComplete := by
  intro s frame level reg m w n aw s1 fp u v top t a lo hi x
  refine ⟨fun _ first others room => enter_frames first others room, leave_ok, fun lower upper => ⟨?_, ?_⟩, ?_⟩
  · intro above below
    rw [bound_eq lower upper, if_neg (not_or.2 ⟨not_lt.2 above, not_lt.2 below⟩)]
    exact complete_ok rfl
  · intro outside
    have br : (raiseBR : M Unit) s = .error (.exc ⟨5#8, none⟩) s := raiseExc_run 5#8 none s
    rw [bound_eq lower upper, if_pos outside, complete_exc br, restore_self]
    rfl
  · intro ovf
    show execInto s = _
    rw [execInto, ovf]
    exact complete_ok rfl

end Sys2Proof.Machine
end

section
/-! Items pushed one after another (R112): where they stand, what of the state they leave alone, and that pops undo the
move of the stack pointer. -/

namespace Sys2Proof.Machine

/-! Offsets of a segment in memory. -/

/-- The low 20 bits of an address are those of base and offset, whatever the bus and its mask do (R71, R82, R83). -/
theorem State.flat_linOf_mod (s : State) (k : SReg) (off : BitVec 32) (i : Nat) :
    s.flat (s.linOf k off + BitVec.ofNat 32 i) % 2 ^ 20 = ((s.segs.get k).base.toNat + off.toNat + i) % 2 ^ 20 := by
  have low : (s.linOf k off).toNat % 2 ^ 20 = ((s.segs.get k).base.toNat + off.toNat) % 2 ^ 20 := by
    unfold State.linOf State.linear
    split
    · rw [BitVec.toNat_add]; omega
    · have mask : (0x00FFFFFF#32 : BitVec 32).toNat = 2 ^ 24 - 1 := rfl
      rw [BitVec.toNat_and, mask, Nat.and_two_pow_sub_one_eq_mod, BitVec.toNat_add]
      omega
  unfold State.flat
  rw [busAddr_mod, BitVec.toNat_add, BitVec.toNat_ofNat]
  omega

/-- Bytes above others in one segment, within 1 MB, are other places in memory. -/
theorem State.not_within_above (s : State) (k : SReg) {off below : BitVec 32} {n m i : Nat} (hi : i < m)
    (above : below.toNat + n ≤ off.toNat) (near : off.toNat + m ≤ below.toNat + 2 ^ 20) :
    s.within (s.linOf k below) n (s.flat (s.linOf k off + BitVec.ofNat 32 i)) = false :=
  State.not_within fun j hj same => by
    have low := congrArg (· % 2 ^ 20) same
    simp only [State.flat_linOf_mod] at low
    omega

/-- Which bytes a range covers depends on the parameters alone. -/
theorem State.within_congr {s t : State} (cfg : t.cfg = s.cfg) (lin : BitVec 32) (n a : Nat) :
    t.within lin n a = s.within lin n a := by
  induction n generalizing lin with
  | zero => rfl
  | succ n ih => simp only [State.within, State.flat, cfg, ih]

theorem State.bytesAt_putBytes_apart (s : State) (lin at' : BitVec 32) (bs : List Byte) {n : Nat}
    (apart : ∀ i < n, s.within at' bs.length (s.flat (lin + BitVec.ofNat 32 i)) = false) :
    (s.putBytes at' bs).bytesAt lin n = s.bytesAt lin n := by
  have flat : (s.putBytes at' bs).flat = s.flat := by funext a; unfold State.flat; simp
  refine List.ext_getElem? fun i => ?_
  by_cases hi : i < n
  · rw [State.bytesAt_getElem? _ _ hi, State.bytesAt_getElem? _ _ hi, flat, s.putBytes_get_ne _ _ _ (apart i hi)]
  · rw [List.getElem?_eq_none (by rw [State.bytesAt_length]; omega),
      List.getElem?_eq_none (by rw [State.bytesAt_length]; omega)]

/-! One push. -/

section
variable (s : State) (w : Width) (v : Val w)

theorem State.pushed_frame : s.pushed w v =
    ((s.setMem (s.pushed w v).mem).setStored (s.pushed w v).stored).setGpr (s.pushed w v).gpr := by
  unfold State.pushed State.memPut
  rw [State.putBytes_frame]
  rfl

theorem State.pushed_gprWithSp (u : BitVec 32) : (s.pushed w v).gprWithSp u = s.gprWithSp u := by
  rw [State.pushed_frame]
  exact s.gprWithSp_again _ u

theorem State.pushed_setFlags (f : Flags) : (s.setFlags f).pushed w v = (s.pushed w v).setFlags f := by
  unfold State.pushed State.memPut
  rw [s.putBytes_comm (·.setFlags f) (fun _ _ _ => rfl) fun _ => rfl]
  rfl

variable {s w}

/-- The stack pointer moved down without wrapping. -/
theorem State.spAdd_neg {n : Nat} (room : n ≤ s.sp.toNat) :
    s.spAdd (-(BitVec.ofNat 32 n)) = s.sp - BitVec.ofNat 32 n := by
  rw [State.spAdd, ← BitVec.sub_eq_add_neg]
  unfold State.sp at room ⊢
  generalize s.stack32 = wide at room ⊢
  generalize s.reg .w32 rSP = x at room ⊢
  cases wide with
  | true => rfl
  | false =>
    apply BitVec.eq_of_toNat_eq
    simp [spTrunc, BitVec.toNat_sub] at room ⊢
    omega

theorem State.pushed_sp (room : w.bytes ≤ s.sp.toNat) : (s.pushed w v).sp = s.sp - BitVec.ofNat 32 w.bytes := by
  rw [← State.spAdd_zero, State.pushed_spAdd, BitVec.add_zero, State.spAdd_neg room]

theorem State.pushed_sp_toNat (room : w.bytes ≤ s.sp.toNat) : (s.pushed w v).sp.toNat = s.sp.toNat - w.bytes := by
  have small : w.bytes ≤ 4 := by cases w <;> decide
  rw [State.pushed_sp v room]
  bv_omega

/-- The items below the new top are those below the old one after the first. -/
theorem State.pushed_sp_item (room : w.bytes ≤ s.sp.toNat) (i : Nat) :
    (s.pushed w v).sp - BitVec.ofNat 32 (w.bytes * i) = s.sp - BitVec.ofNat 32 (w.bytes * (i + 1)) := by
  rw [State.pushed_sp v room, Nat.mul_succ, BitVec.ofNat_add]
  bv_omega

/-- What was pushed stands at the new top. -/
theorem State.pushed_memVal (wf : Memory.wf s.mem = true) (room : w.bytes ≤ s.sp.toNat) :
    (s.pushed w v).memVal w .ss (s.sp - BitVec.ofNat 32 w.bytes) = v := by
  have lin : (s.pushed w v).linOf .ss = s.linOf .ss := funext fun _ => (sameAccess_pushed s w v).linOf .ss _
  rw [← State.spAdd_neg room, State.memVal, lin,
    State.bytesAt_congr (s := s.memPut w .ss (s.pushOff w) v) (t := s.pushed w v) rfl rfl]
  exact s.leVal_putBytes _ v wf

/-- What stood at the old top or above it, within 1 MB, stands there still. -/
theorem State.pushed_memVal_above {off : BitVec 32} (room : w.bytes ≤ s.sp.toNat) (above : s.sp.toNat ≤ off.toNat)
    (near : off.toNat + 2 * w.bytes ≤ s.sp.toNat + 2 ^ 20) :
    (s.pushed w v).memVal w .ss off = s.memVal w .ss off := by
  have top : (s.pushOff w).toNat = s.sp.toNat - w.bytes := by
    rw [State.pushOff, State.spAdd_neg room, ← State.pushed_sp v room, State.pushed_sp_toNat v room]
  have lin : (s.pushed w v).linOf .ss = s.linOf .ss := funext fun _ => (sameAccess_pushed s w v).linOf .ss _
  rw [State.memVal, State.memVal, lin,
    State.bytesAt_congr (s := s.memPut w .ss (s.pushOff w) v) (t := s.pushed w v) rfl rfl]
  refine congrArg _ (s.bytesAt_putBytes_apart _ _ _ fun i hi => ?_)
  rw [leBytes_length]
  exact s.not_within_above .ss hi (by omega) (by omega)

theorem State.pushed_get_ne {a : Nat} (room : w.bytes ≤ s.sp.toNat)
    (apart : s.within (s.linOf .ss (s.sp - BitVec.ofNat 32 w.bytes)) w.bytes a = false) :
    memGet (s.pushed w v).mem a = memGet s.mem a := by
  rw [← State.spAdd_neg room] at apart
  exact s.putBytes_get_ne _ _ a (by rwa [leBytes_length])

theorem State.pushed_wf (wf : Memory.wf s.mem = true) : Memory.wf (s.pushed w v).mem = true := s.putBytes_wf _ _ wf

end

/-! Several pushes. -/

section
variable {s : State} {w : Width}

theorem State.pushedAll_frame (vs : List (Val w)) (s : State) : s.pushedAll w vs =
    ((s.setMem (s.pushedAll w vs).mem).setStored (s.pushedAll w vs).stored).setGpr (s.pushedAll w vs).gpr := by
  induction vs generalizing s with
  | nil => rfl
  | cons v vs ih =>
    have rest := ih (s.pushed w v)
    show (s.pushed w v).pushedAll w vs = ((s.setMem ((s.pushed w v).pushedAll w vs).mem).setStored
      ((s.pushed w v).pushedAll w vs).stored).setGpr ((s.pushed w v).pushedAll w vs).gpr
    generalize (s.pushed w v).pushedAll w vs = u at rest ⊢
    rw [rest, s.pushed_frame]
    rfl

theorem State.pushedAll_gprWithSp (vs : List (Val w)) (s : State) (u : BitVec 32) :
    (s.pushedAll w vs).gprWithSp u = s.gprWithSp u := by
  induction vs generalizing s with
  | nil => rfl
  | cons v vs ih => exact (ih _).trans (s.pushed_gprWithSp w v u)

theorem State.pushedAll_spAdd (vs : List (Val w)) (s : State) (d : BitVec 32) :
    (s.pushedAll w vs).spAdd d = s.spAdd (d - BitVec.ofNat 32 (w.bytes * vs.length)) := by
  induction vs generalizing s with
  | nil => simp [State.pushedAll]
  | cons v vs ih =>
    show ((s.pushed w v).pushedAll w vs).spAdd d = _
    rw [ih, State.pushed_spAdd, List.length_cons, Nat.mul_succ, BitVec.ofNat_add]
    congr 1
    bv_omega

theorem State.pushedAll_memVal_above {vs : List (Val w)} {off : BitVec 32} (room : w.bytes * vs.length ≤ s.sp.toNat)
    (above : s.sp.toNat ≤ off.toNat)
    (near : off.toNat + w.bytes * (vs.length + 1) ≤ s.sp.toNat + 2 ^ 20) :
    (s.pushedAll w vs).memVal w .ss off = s.memVal w .ss off := by
  induction vs generalizing s with
  | nil => rfl
  | cons v vs ih =>
    simp only [List.length_cons, Nat.mul_succ] at room near
    have first : w.bytes ≤ s.sp.toNat := by omega
    have top := State.pushed_sp_toNat v first
    rw [← State.pushed_memVal_above v first above (by omega)]
    exact ih (by omega) (by omega) (by rw [Nat.mul_succ]; omega)

/-- Each item stands below the old top, in the order of the pushes. -/
theorem State.pushedAll_memVal {vs : List (Val w)} (wf : Memory.wf s.mem = true)
    (room : w.bytes * vs.length ≤ s.sp.toNat) (small : w.bytes * (vs.length + 1) ≤ 2 ^ 20) {i : Nat}
    (hi : i < vs.length) :
    (s.pushedAll w vs).memVal w .ss (s.sp - BitVec.ofNat 32 (w.bytes * (i + 1))) = vs[i] := by
  induction vs generalizing s i with
  | nil => cases hi
  | cons v vs ih =>
    simp only [List.length_cons, Nat.mul_succ] at room small
    have first : w.bytes ≤ s.sp.toNat := by omega
    have top := State.pushed_sp v first
    have height := State.pushed_sp_toNat v first
    cases i with
    | zero =>
      rw [Nat.zero_add, Nat.mul_one, ← top]
      refine (State.pushedAll_memVal_above (s := s.pushed w v) (vs := vs) (by omega) (le_refl _)
        (by rw [Nat.mul_succ]; omega)).trans ?_
      rw [top]
      exact State.pushed_memVal v wf first
    | succ i =>
      rw [← State.pushed_sp_item v first]
      exact ih (State.pushed_wf v wf) (by omega) (by rw [Nat.mul_succ]; omega) (Nat.lt_of_succ_lt_succ hi)

/-- A byte of none of the items reads as before. -/
theorem State.pushedAll_get_ne {vs : List (Val w)} {a : Nat} (room : w.bytes * vs.length ≤ s.sp.toNat)
    (apart : ∀ i < vs.length,
      s.within (s.linOf .ss (s.sp - BitVec.ofNat 32 (w.bytes * (i + 1)))) w.bytes a = false) :
    memGet (s.pushedAll w vs).mem a = memGet s.mem a := by
  induction vs generalizing s with
  | nil => rfl
  | cons v vs ih =>
    simp only [List.length_cons, Nat.mul_succ] at room
    have first : w.bytes ≤ s.sp.toNat := by omega
    have height := State.pushed_sp_toNat v first
    have head := apart 0 (Nat.succ_pos _)
    rw [Nat.zero_add, Nat.mul_one] at head
    rw [← State.pushed_get_ne v first head]
    refine ih (by omega) fun i hi => ?_
    have later := apart (i + 1) (Nat.succ_lt_succ hi)
    rwa [State.within_congr (s.pushed_cfg w v), (sameAccess_pushed s w v).linOf, State.pushed_sp_item v first]

/-- After some pops the registers are those with the stack pointer moved once. -/
theorem State.poppedTimes_gpr (s : State) (w : Width) (n : Nat) :
    (s.poppedTimes w n).gpr = s.gprWithSp (s.spAdd (BitVec.ofNat 32 (n * w.bytes))) := by
  cases n with
  | zero =>
    rw [Nat.zero_mul, show BitVec.ofNat 32 0 = 0#32 from rfl, State.spAdd_zero]
    exact (congrArg State.gpr s.gprWithSp_sp).symm
  | succ n =>
    have last := s.gprWithSp_popped w n (BitVec.ofNat 32 w.bytes)
    rw [← BitVec.ofNat_add, ← Nat.succ_mul] at last
    exact last

end

end Sys2Proof.Machine
end

section
/-! INT n, INT 3 and INTO in real-address mode (R409 to R411, R610), and IRET undoing INT n (R413). -/

namespace Sys2Proof.Machine

/-! Entry in real-address mode (R610). -/

/-- What an entry pushes: FLAGS, CS and the return offset. -/
def State.realItems (s : State) (e : Event) : List (Val .w16) :=
  [(s.savedFlags e).extractLsb' 0 16, s.segs.cs.sel, e.ret.extractLsb' 0 16]

/-- The flags after an entry. -/
def State.realFlags (s : State) : Flags :=
  { s.flags with ie := false, tf := false, ac := s.flags.ac && !s.has486 }

/-- That the flags change between the pushes is as if they changed after them. -/
theorem State.realFrame_eq (s : State) (e : Event) :
    s.realFrame e = (s.pushedAll .w16 (s.realItems e)).setFlags s.realFlags := by
  have flags : (s.pushed .w16 ((s.savedFlags e).extractLsb' 0 16)).withFlags
      (fun f => { f with ie := false, tf := false, ac := f.ac && !s.has486 }) =
      (s.pushed .w16 ((s.savedFlags e).extractLsb' 0 16)).setFlags s.realFlags := by
    rw [State.withFlags, State.pushed_flags]
    rfl
  rw [State.realFrame, flags, State.pushed_setFlags, State.pushed_setFlags]
  rfl

theorem State.realFrame_cfg (s : State) (e : Event) : (s.realFrame e).cfg = s.cfg := by
  rw [State.realFrame_eq]
  exact (sameAccess_pushedAll _ s).cfg

theorem State.realFrame_sys (s : State) (e : Event) : (s.realFrame e).sys = s.sys := by
  rw [State.realFrame_eq]
  exact (sameAccess_pushedAll _ s).sys

/-- In real-address mode no flag decides about an access: there is neither VM nor an alignment check (R84, R110). -/
theorem State.reaches_setFlags {s : State} (real : s.sys.cr0.pe = false) (f : Flags) (k : SReg) (off : BitVec 32)
    (n : Nat) (write : Bool) (al : Nat) :
    (s.setFlags f).reaches k off n write al = s.reaches k off n write al := by
  have prot : (s.setFlags f).protMode = s.protMode := by simp [State.protMode, real]
  have level : (s.setFlags f).cpl = 0#2 ∧ s.cpl = 0#2 := by simp [State.cpl, real]
  have aligned (lin : BitVec 32) : (s.setFlags f).aligned lin al = s.aligned lin al := by
    simp [State.aligned, level]
  have plain (lin : BitVec 32) : (s.setFlags f).plain lin n = s.plain lin n :=
    State.plain_congr (s := s) (t := s.setFlags f) rfl rfl lin n
  have lin : (s.setFlags f).linOf k off = s.linOf k off := rfl
  rw [State.reaches, State.reaches, State.allows, State.allows, prot, lin, aligned, plain]
  rfl

theorem State.pushes_setFlags {s : State} (real : s.sys.cr0.pe = false) (f : Flags) (w : Width) :
    (s.setFlags f).pushes w = s.pushes w := by
  have off : (s.setFlags f).pushOff w = s.pushOff w := rfl
  rw [State.pushes, State.pushes, off, State.reaches_setFlags real]
  rfl

theorem push_setFlags {s : State} {w : Width} (real : s.sys.cr0.pe = false) (pushes : s.pushes w = true) (f : Flags)
    (v : Val w) : push w v (s.setFlags f) = .ok () ((s.pushed w v).setFlags f) := by
  rw [push_ok v ((State.pushes_setFlags real f w).trans pushes), State.pushed_setFlags]

theorem checkPushes_ok {s : State} {w : Width} {k : Nat} (h : s.has386 = true → s.holds w k = true) :
    checkPushes w k s = .ok () s := by
  rw [checkPushes, M.bind_run, getS_run]
  dsimp only
  split
  · next is386 => exact requireRoom_ok (h is386)
  · rfl

/-- The state after an entry, before the bookkeeping at its end. -/
def State.realEntry (s : State) (e : Event) : State :=
  let t := s.realFrame e
  (t.setSegs (t.segs.put .cs (s.segs.cs.toReal (leVal 16 (t.bytesAt
    (s.sys.idtr.base + BitVec.ofNat 32 (e.vector.toNat * 4 + 2)) 2))))).setEip
      (leVal 32 (t.bytesAt (s.vectorAt e.vector) 2))

theorem enterReal_ok {s : State} {e : Event} (h : s.entersReal e = true) :
    enterReal e s = .ok () (s.realEntry e) := by
  simp only [State.entersReal, Bool.and_eq_true] at h
  obtain ⟨⟨⟨⟨⟨⟨⟨mode, inTable⟩, room⟩, push1⟩, push2⟩, push3⟩, offset⟩, selector⟩ := h
  have real : s.sys.cr0.pe = false := by simpa using mode
  have entry : ¬ s.sys.idtr.limit.toNat < e.vector.toNat * 4 + 3 := by simpa using inTable
  have checked : checkPushes .w16 3 s = .ok () s :=
    checkPushes_ok fun is386 => by simpa [is386, State.holds] using room
  let s1 := s.pushed .w16 ((s.savedFlags e).extractLsb' 0 16)
  let s2 := s1.pushed .w16 s.segs.cs.sel
  have real1 : s1.sys.cr0.pe = false := by rw [State.pushed_sys]; exact real
  have real2 : s2.sys.cr0.pe = false := by rw [State.pushed_sys]; exact real1
  have first : orShutdown (push .w16 ((s.savedFlags e).extractLsb' 0 16)) s = .ok () s1 :=
    orShutdown_ok (push_ok _ push1)
  have clear : updFlags (fun f => { f with ie := false, tf := false, ac := f.ac && !s.has486 }) s1 =
      .ok () (s1.setFlags s.realFlags) := by
    rw [updFlags_run, State.pushed_flags]
    rfl
  have second : orShutdown (push .w16 s.segs.cs.sel) (s1.setFlags s.realFlags) = .ok () (s2.setFlags s.realFlags) := by
    exact orShutdown_ok (push_setFlags real1 push2 _ _)
  have third : orShutdown (push .w16 (e.ret.extractLsb' 0 16)) (s2.setFlags s.realFlags) = .ok () (s.realFrame e) := by
    rw [State.realFrame_eq]
    exact orShutdown_ok (push_setFlags real2 push3 _ _)
  have plain {lin : BitVec 32} (h : s.plain lin 2 = true) :
      sysRead lin 2 (s.realFrame e) = .ok ((s.realFrame e).bytesAt lin 2) (s.realFrame e) :=
    sysRead_plain ((State.plain_congr (s.realFrame_cfg e) (by rw [s.realFrame_sys]) lin 2).trans h)
  rw [State.vectorAt] at offset
  rw [enterReal, M.bind_ok (getS_run s), if_neg entry, M.bind_ok (orShutdown_ok checked), M.bind_ok first,
    M.bind_ok clear, M.bind_ok second, M.bind_ok third, M.bind_ok (plain offset), M.bind_ok (plain selector)]
  rfl

theorem State.real_of_entersReal {s : State} {e : Event} (h : s.entersReal e = true) : s.sys.cr0.pe = false := by
  simp only [State.entersReal, Bool.and_eq_true, Bool.not_eq_true'] at h
  obtain ⟨⟨⟨⟨⟨⟨⟨real, -⟩, -⟩, -⟩, -⟩, -⟩, -⟩, -⟩ := h
  exact real

/-- An event that passes the tests of R610 is entered. -/
theorem deliver_real {s : State} {e : Event} (h : s.entersReal e = true) : deliver e s = .next (s.enteredReal e) := by
  have real := State.real_of_entersReal h
  refine deliverWithin_ok ?_
  simp only [enter, M.bind_run, getS_run, real, Bool.false_eq_true, if_false, enterReal_ok h, flushQueue_run, updS_run]
  rfl

/-! IRET after INT n (R413). -/

theorem getElem_place {n : Nat} (b : Bool) (i : Nat) {j : Nat} (hj : j < n) :
    (place n b i)[j] = (b && decide (i = j)) := by
  rw [← BitVec.getLsbD_eq_getElem, getLsbD_place, decide_eq_true hj, Bool.true_and]

/-- The low word of the image of some flags, read back (R28). -/
theorem Flags.ofWord_word (f : Flags) : Flags.ofWord ((f.word.extractLsb' 0 16).setWidth 32) =
    { f with rf := false, vm := false, ac := false } := by
  have iopl : ((f.word.extractLsb' 0 16).setWidth 32).extractLsb' 12 2 = f.iopl := by
    apply BitVec.eq_of_getLsbD_eq
    intro i hi
    interval_cases i <;> simp [Flags.word, getElem_place]
  rw [Flags.ofWord, iopl]
  simp [bitOf, Flags.word, getElem_place]

/-- IRET of 16 bits loads what an entry saved but RF, VM and AC, which the word does not hold (R413). -/
theorem Flags.load16_word {f g : Flags} {r : FlagRights} (ifOk : r.ifOk = true) (nt : f.nt = g.nt)
    (iopl : f.iopl = g.iopl) : f.load16 ((g.word.extractLsb' 0 16).setWidth 32) r =
      { g with rf := f.rf, vm := f.vm, ac := f.ac } := by
  rw [Flags.load16, Flags.ofWord_word]
  simp only [ifOk, nt, iopl, ite_self, if_true]

/-- IRET of 16 bits outside protected mode (R413). -/
theorem iret_word {s : State} (mode : s.protMode = false) (notV86 : s.v86 = false) (os : s.os = .s16)
    (pops : s.popsTimes .w16 3 = true) : exec .iret s = .next ((((s.setGpr (s.gprWithSp (s.spAdd 6#32))).setFlags
      (s.flags.load16 ((s.popVals .w16 2).setWidth 32) s.flagRights)).setCtl s.ctl.afterIret).intoReal s.segs.cs
        (s.popVals .w16 1) ((s.popVals .w16 0).setWidth 32)) := by
  have width : s.os.width = .w16 := congrArg Size.width os
  have run := iret_within mode (.inl notV86) (width ▸ pops)
  rw [width, os, s.poppedTimes_frame, s.poppedTimes_gpr] at run
  have word (v : Val .w16) : v.setWidth 16 = v := BitVec.setWidth_eq v
  rw [word] at run
  have small : (s.popVals .w16 0).toNat < 65536 := (s.popVals .w16 0).isLt
  exact finish_ok (run (by rw [BitVec.toNat_setWidth]; omega))

/-- The state at the first instruction of the handler of INT n, one byte of which has been read. -/
def State.atHandler (s : State) (e : Event) : State := (s.enteredReal e).setCur { Cur.start with len := 1 }

/-- That state is the one after the pushes with other flags and another CS, and at another offset. -/
theorem State.atHandler_eq (s : State) (e : Event) : ∃ (sel : BitVec 16) (off : BitVec 32) (c : Ctl), s.atHandler e =
    ((((((s.pushedAll .w16 (s.realItems e)).setFlags s.realFlags).setSegs
      ((s.pushedAll .w16 (s.realItems e)).segs.put .cs (s.segs.cs.toReal sel))).setEip off).setStored []).setCtl
        c).setCur { Cur.start with len := 1 } := by
  unfold State.atHandler State.enteredReal
  rw [State.realFrame_eq]
  generalize s.pushedAll .w16 (s.realItems e) = t
  exact ⟨_, _, _, rfl⟩

/-- Pops of the handler take what was pushed, the last item first. -/
theorem State.atHandler_popVals {s : State} (e : Event) (wf : Memory.wf s.mem = true) (room : 6 ≤ s.sp.toNat) {k : Nat}
    (hk : k < 3) : (s.atHandler e).popVals .w16 k = (s.realItems e)[2 - k]'(by show 2 - k < 3; omega) := by
  obtain ⟨sel, off, c, eq⟩ := s.atHandler_eq e
  have same : (s.atHandler e).popVals .w16 k = (s.pushedAll .w16 (s.realItems e)).popVals .w16 k := by
    rw [eq, State.popVals_eq, State.popVals_eq]
    generalize s.pushedAll .w16 (s.realItems e) = t
    exact congrArg (leVal 16) (State.bytesAt_congr rfl rfl _ 2)
  have below : BitVec.ofNat 32 (k * 2) - BitVec.ofNat 32 (2 * 3) = -(BitVec.ofNat 32 (2 * (2 - k + 1))) := by
    interval_cases k <;> rfl
  have slot : (s.pushedAll .w16 (s.realItems e)).spAdd (BitVec.ofNat 32 (k * 2)) =
      s.sp - BitVec.ofNat 32 (2 * (2 - k + 1)) :=
    (State.pushedAll_spAdd (s.realItems e) s _).trans
      ((congrArg s.spAdd below).trans (State.spAdd_neg (by omega)))
  rw [same, State.popVals_eq, show k * Width.w16.bytes = k * 2 from rfl, slot]
  exact State.pushedAll_memVal (vs := s.realItems e) wf room (show 2 * (3 + 1) ≤ 2 ^ 20 by decide)
    (by show 2 - k < 3; omega)

/-- The entry changes memory in the six bytes of its frame alone. -/
theorem State.pushedAll_realItems_get_ne {s : State} {e : Event} {a : Nat} (room : 6 ≤ s.sp.toNat)
    (flags : s.within (s.linOf .ss (s.sp - 2#32)) 2 a = false) (cs : s.within (s.linOf .ss (s.sp - 4#32)) 2 a = false)
    (ip : s.within (s.linOf .ss (s.sp - 6#32)) 2 a = false) :
    memGet (s.pushedAll .w16 (s.realItems e)).mem a = memGet s.mem a := by
  refine State.pushedAll_get_ne room fun i hi => ?_
  have three : i < 3 := hi
  interval_cases i
  · exact flags
  · exact cs
  · exact ip

/-- Popping the frame gives the registers before the pushes. -/
theorem State.atHandler_gpr (s : State) (e : Event) :
    (s.atHandler e).gprWithSp ((s.atHandler e).spAdd 6#32) = s.gpr := by
  obtain ⟨sel, off, c, eq⟩ := s.atHandler_eq e
  have same : (s.atHandler e).gprWithSp ((s.atHandler e).spAdd 6#32) = (s.pushedAll .w16 (s.realItems e)).gprWithSp
      ((s.pushedAll .w16 (s.realItems e)).spAdd 6#32) := by
    rw [eq]
    generalize s.pushedAll .w16 (s.realItems e) = t
    rfl
  have back : (s.pushedAll .w16 (s.realItems e)).spAdd 6#32 = s.sp :=
    (State.pushedAll_spAdd (s.realItems e) s _).trans
      ((congrArg s.spAdd (show 6#32 - BitVec.ofNat 32 (2 * 3) = 0#32 from rfl)).trans s.spAdd_zero)
  rw [same, back, State.pushedAll_gprWithSp]
  exact congrArg State.gpr s.gprWithSp_sp

/-- What the entry and the first byte of the handler leave as it was, and what they make of the rest. -/
theorem State.atHandler_frame (s : State) (e : Event) :
    (s.atHandler e).sys = s.sys ∧ (s.atHandler e).fpu = s.fpu ∧ (s.atHandler e).link = s.link ∧
    (s.atHandler e).flags = s.realFlags ∧ (s.atHandler e).cur = { Cur.start with len := 1 } ∧
    (s.atHandler e).mem = (s.pushedAll .w16 (s.realItems e)).mem ∧
    ∃ sel, (s.atHandler e).segs = s.segs.put .cs (s.segs.cs.toReal sel) := by
  obtain ⟨sel, off, c, eq⟩ := s.atHandler_eq e
  have frame := State.pushedAll_frame (s.realItems e) s
  rw [eq]
  generalize s.pushedAll .w16 (s.realItems e) = t at frame
  have sys : t.sys = s.sys := (congrArg State.sys frame).trans rfl
  have fpu : t.fpu = s.fpu := (congrArg State.fpu frame).trans rfl
  have link : t.link = s.link := (congrArg State.link frame).trans rfl
  have segs : t.segs = s.segs := (congrArg State.segs frame).trans rfl
  exact ⟨sys, fpu, link, rfl, rfl, rfl, sel, congrArg (·.put .cs (s.segs.cs.toReal sel)) segs⟩

/-- IRET at the handler's first instruction: the registers before the pushes, and the three words that were pushed. -/
theorem iret_atHandler {s : State} (e : Event) (wf : Memory.wf s.mem = true)
    (real : s.sys.cr0.pe = false) (pops : (s.atHandler e).popsTimes .w16 3 = true) (room : 6 ≤ s.sp.toNat) :
    exec .iret (s.atHandler e) = .next (((((s.atHandler e).setGpr s.gpr).setFlags
      { s.flags with ac := s.flags.ac && !s.has486 }).setCtl (s.atHandler e).ctl.afterIret).intoReal
        (s.atHandler e).segs.cs s.segs.cs.sel ((e.ret.extractLsb' 0 16).setWidth 32)) := by
  obtain ⟨sys, -, -, flags, cur, -⟩ := s.atHandler_frame e
  have mode : (s.atHandler e).protMode = false := by simp [State.protMode, sys, real]
  have notV86 : (s.atHandler e).v86 = false := by simp [State.v86, sys, real]
  have os : (s.atHandler e).os = .s16 := by simp [State.os, State.defaultSize, mode, cur, Cur.start]
  have word : (s.atHandler e).popVals .w16 2 = (s.savedFlags e).extractLsb' 0 16 :=
    s.atHandler_popVals e wf room (k := 2) (by decide)
  have cs : (s.atHandler e).popVals .w16 1 = s.segs.cs.sel := s.atHandler_popVals e wf room (k := 1) (by decide)
  have ip : (s.atHandler e).popVals .w16 0 = e.ret.extractLsb' 0 16 :=
    s.atHandler_popVals e wf room (k := 0) (by decide)
  rw [iret_word mode notV86 os pops, s.atHandler_gpr, word, cs, ip, savedFlags_eq,
    Flags.load16_word (flagRights_ifOk mode (.inl notV86)) (by rw [flags]; rfl) (by rw [flags]; rfl), flags]
  rfl

/-- Settles O33: each instruction is the delivery of an event that R610 enters; IRET pops the three words that the entry
pushed. -/
theorem softwareInterruptsReal : Obligations.SoftwareInterruptsReal := by
  intro s v e t
  have notV86 (real : s.sys.cr0.pe = false) : s.v86 = false := by simp [State.v86, real]
  refine ⟨fun enters => ?_, fun enters => deliver_real enters, fun ovf enters => ?_, fun wf enters pops room => ?_⟩
  · have allowed : (s.v86 && s.flags.iopl != 3#2) = false := by rw [notV86 (State.real_of_entersReal enters)]; rfl
    show execIntN v s = _
    rw [execIntN, allowed]
    exact deliver_real enters
  · show execInto s = _
    rw [execInto, ovf]
    exact deliver_real enters
  · obtain ⟨sys, fpu, link, -, -, mem, sel, segs⟩ := s.atHandler_frame (e v)
    refine ⟨_, iret_atHandler (e v) wf (State.real_of_entersReal enters) pops room, by simp, ?_, by simp, by simp [sys],
      by simp [fpu], by simp [link], by simp [e], fun a flags cs ip => ?_⟩
    · simp only [State.intoReal_segs, State.setCtl_segs, State.setFlags_segs, State.setGpr_segs, segs]
      rfl
    · simp only [State.intoReal_mem, State.setCtl_mem, State.setFlags_mem, State.setGpr_mem, mem]
      exact State.pushedAll_realItems_get_ne room flags cs ip

end Sys2Proof.Machine
end

section
/-! Processor control (R420 to R434, R574 to R576): what the level allows, and the moves of the special registers. -/

namespace Sys2Proof.Machine

variable {s : State}

/-- At level 0 a privileged instruction goes on (R626). -/
theorem privileged_level0 (level : s.cpl = 0#2) : privileged s = .ok () s := by
  simp only [privileged, M.bind_run, getS_run, if_pos level, M.pure_run]

/-- A privileged instruction at level 0: what follows decides. -/
theorem complete_privileged {m : M Unit} (level : s.cpl = 0#2) :
    complete (do privileged; m) s = complete m s := by
  refine complete_congr ?_
  simp only [M.bind_run, privileged_level0 level]

/-- With no error to report and no wait the check of R641 passes. -/
theorem npxPending_quiet (noError : s.nativeErrors = true → s.fpu.status.es = false)
    (noWait : s.nativeErrors = false → s.link.busyLatch = false) : npxPending s = .ok () s := by
  simp only [npxPending, M.bind_run, getS_run]
  cases native : s.nativeErrors
  · simp [noWait native]
  · simp [noError native]

/-- The size prefixes turn the attributes over (R136, R137). -/
theorem State.sizes_prefixed (c : Cur) (newer : s.has386 = true) :
    (s.setCur { c with opSize := true }).os = s.defaultSize.toggle ∧
      (s.setCur { c with adSize := true }).adr = s.defaultSize.toggle := by
  have same (v : Cur) : (s.setCur v).has386 = true := newer
  exact ⟨by simp only [State.os, same]; rfl, by simp only [State.adr, same]; rfl⟩

/-- The 80286 has one size (R136, R137). -/
theorem State.sizes_286 (older : s.has386 = false) : s.os = .s16 ∧ s.adr = .s16 := by
  simp [State.os, State.adr, State.defaultSize, older]

/-- Settles O35: at level 0 each instruction is its one change of the state, WAIT passes the check of R641, and the bytes
that precede an instruction are recorded. -/
theorem processorInstructions : Obligations.ProcessorInstructions := by
  intro s m c
  refine ⟨fun level => ?_, complete_ok rfl, fun allowed noError noWait => ?_, rfl, rfl, rfl, rfl, rfl, rfl, rfl, rfl,
    rfl, rfl, rfl, State.sizes_prefixed c, State.sizes_286⟩
  · have alone : complete privileged s = .next s.advance := complete_ok (privileged_level0 level)
    exact ⟨(complete_privileged level).trans (complete_ok rfl), (complete_privileged level).trans (complete_ok rfl),
      alone, alone, (complete_privileged level).trans (complete_ok rfl)⟩
  · show execWait s = _
    rw [execWait, allowed]
    exact complete_ok (npxPending_quiet noError noWait)

end Sys2Proof.Machine
end

section
/-! MOV to and from the control, debug and test registers at level 0 (R428 to R433). -/

namespace Sys2Proof.Machine

variable {s t : State}

/-- The outcome of a move of a special register (R421): a state, its six status flags undefined, `k` values drawn. -/
def State.moveEnds (s t : State) (k : Nat) (o : Host.Outcome State Fault Refusal) : Prop :=
  ∃ f : Flags, f.sameControl s.flags = true ∧ o = .next (t.flagged f k).advance

/-- A move at level 0 that leaves the flags and draws nothing itself. -/
theorem specialMove_ends {m : M Unit} (level : s.cpl = 0#2) (moves : m s = .ok () t) (flags : t.flags = s.flags) :
    s.moveEnds t 6 (specialMove m s) := by
  obtain ⟨f, control, ends⟩ := undefStatus_run t
  refine ⟨f, flags ▸ control, (complete_privileged level).trans (complete_ok ?_)⟩
  simp only [M.bind_run, moves, ends]

/-- A move at level 0 that reads a value with free reserved bits into a register. -/
theorem specialMove_reads {m : M (BitVec 32)} {u : BitVec 32} (reg : RegNum) (level : s.cpl = 0#2)
    (reads : m s = .ok u (s.setDraws (s.draws + 1))) :
    s.moveEnds (s.regPut .w32 reg u) 7 (specialMove (do let v ← m; setReg .w32 reg v) s) := by
  obtain ⟨f, control, ends⟩ := undefStatus_run ((s.setDraws (s.draws + 1)).setGpr (regWrite s.gpr .w32 reg u))
  refine ⟨f, control, (complete_privileged level).trans (complete_ok ?_)⟩
  simp only [M.bind_run, reads, setReg_run, State.setDraws_gpr, ends]
  simp only [State.flagged, State.setGpr_draws, State.setDraws_draws, Nat.add_assoc]
  rfl

/-- Free reserved bits leave the defined ones as they are (U8). -/
theorem reserved_and (mask x u : BitVec 32) : ((x &&& mask) ||| (u &&& ~~~mask)) &&& mask = x &&& mask := by
  ext i hi
  simp only [BitVec.getElem_and, BitVec.getElem_or, BitVec.getElem_not]
  cases x[i] <;> cases mask[i] <;> simp

/-- A value with free reserved bits (U8): one draw, and the defined bits. -/
theorem withReserved_run (mask x : BitVec 32) (s : State) : ∃ u : BitVec 32, u &&& mask = x &&& mask ∧
    withReserved mask x s = .ok u (s.setDraws (s.draws + 1)) :=
  ⟨_, reserved_and mask x (Config.freeDword s.draws), rfl⟩

/-- A move of such a value into a register. -/
theorem specialMove_reserved {m : M (BitVec 32)} {mask x : BitVec 32} (reg : RegNum) (level : s.cpl = 0#2)
    (reads : m s = withReserved mask x s) :
    ∃ u : BitVec 32, u &&& mask = x &&& mask ∧ s.moveEnds (s.regPut .w32 reg u) 7
      (specialMove (do let v ← m; setReg .w32 reg v) s) := by
  obtain ⟨u, defined, run⟩ := withReserved_run mask x s
  exact ⟨u, defined, specialMove_reads reg level (reads.trans run)⟩

/-- Which CR0 a write takes (R428, R32, D20). -/
theorem writeCr0_ok {v : BitVec 32} (paging : (s.cr0From v).pg = true → (s.cr0From v).pe = true)
    (caches : s.has486 = true → (s.cr0From v).nw = true →
      (s.cr0From v).cd = true ∧ s.sys.cr0.nw = true ∧ s.sys.cr0.cd = true) :
    writeCr0 v s = .ok () (s.setCr0 (s.cr0From v)) := by
  simp only [writeCr0, M.bind_run, getS_run]
  have hp : ((s.cr0From v).pg && !(s.cr0From v).pe) = false := by
    cases pg : (s.cr0From v).pg
    · rfl
    · simp [paging pg]
  rw [hp]
  cases newest : s.has486
  · rfl
  · cases nw : (s.cr0From v).nw
    · simp
    · obtain ⟨cd, oldNw, oldCd⟩ := caches newest nw
      simp [cd, oldNw, oldCd]

/-- What replacing CR0 leaves and changes (R106, R428). -/
theorem State.setCr0_eq (s : State) (n : Cr0) : (s.setCr0 n).sys.cr0 = n ∧ (s.setCr0 n).flags = s.flags ∧
    (s.setCr0 n).tlb = (if n.pg ≠ s.sys.cr0.pg ∨ n.pe ≠ s.sys.cr0.pe ∨ n.wp ≠ s.sys.cr0.wp then [] else s.tlb) ∧
    s.setCr0 n = (s.setSys { s.sys with
      cr0 := n, cpl := if n.pe = true ∧ s.sys.cr0.pe = false then 0#2 else s.sys.cpl }).setTlb (s.setCr0 n).tlb := by
  have level : (n.pe && !s.sys.cr0.pe) = true ↔ n.pe = true ∧ s.sys.cr0.pe = false := by simp
  have change : (n.pg != s.sys.cr0.pg || n.pe != s.sys.cr0.pe || n.wp != s.sys.cr0.wp) = true ↔
      n.pg ≠ s.sys.cr0.pg ∨ n.pe ≠ s.sys.cr0.pe ∨ n.wp ≠ s.sys.cr0.wp := by simp [or_assoc]
  simp only [State.setCr0, change, level]
  split
  · exact ⟨rfl, rfl, rfl, rfl⟩
  · exact ⟨rfl, rfl, rfl, rfl⟩

/-- Without general detection the debug registers can be accessed (R430). -/
theorem debugGuard_off (off : s.sys.dr7.getLsbD 13 = false) : debugGuard s = .ok () s := by
  have bit : bitOf s.sys.dr7 13 = false := off
  simp only [debugGuard, M.bind_run, getS_run, bit]
  rfl

/-- What moves a debug register goes on behind that check. -/
theorem specialMove_guarded {m : M Unit} (level : s.cpl = 0#2) (off : s.sys.dr7.getLsbD 13 = false) :
    specialMove (do debugGuard; m) s = specialMove m s := by
  refine (complete_privileged level).trans ((complete_congr ?_).trans (complete_privileged level).symm)
  simp only [M.bind_run, debugGuard_off off]

/-- Settles O36: each move is the change of its register, or the read of it, before the flags become undefined. -/
theorem specialRegisterMoves : Obligations.SpecialRegisterMoves := by
  intro s reg dr tr v y n ends reads level
  have plain {m : M Unit} {t : State} (moves : m s = .ok () t) (flags : t.flags = s.flags) :
      ends t 6 (specialMove m s) := specialMove_ends level moves flags
  have free {m : M (BitVec 32)} {mask x : BitVec 32} (run : m s = withReserved mask x s) :
      reads mask x (specialMove (do let v ← m; setReg .w32 reg v) s) := specialMove_reserved reg level run
  refine ⟨fun paging caches => ?_, plain rfl rfl, plain rfl rfl, free rfl, plain rfl rfl, free rfl, fun off => ?_,
    plain rfl rfl, plain rfl rfl, ?_⟩
  · obtain ⟨cr0, flags, tlb, frame⟩ := s.setCr0_eq n
    exact ⟨s.setCr0 n, plain (writeCr0_ok paging caches) flags, cr0, tlb, frame⟩
  · have guarded {m : M Unit} {t : State} (moves : m s = .ok () t) (flags : t.flags = s.flags) :
        ends t 6 (specialMove (do debugGuard; m) s) := (specialMove_guarded level off).symm ▸ plain moves flags
    have guardedFree {m : M (BitVec 32)} {mask x : BitVec 32} (run : m s = withReserved mask x s) :
        reads mask x (specialMove (do debugGuard; let v ← m; setReg .w32 reg v) s) :=
      (specialMove_guarded level off).symm ▸ free run
    refine ⟨fun unarmed => ?_, guarded rfl rfl, guarded rfl rfl, guarded rfl rfl, guarded rfl rfl, guardedFree rfl,
      guardedFree rfl⟩
    have taken : ¬ (dr = .dr7 ∧ v.extractLsb' 0 8 ≠ 0#8) := fun ⟨isDr7, armed⟩ =>
      unarmed.elim (· isDr7) armed
    refine guarded ?_ rfl
    rw [if_neg taken]
    rfl
  · exact ⟨_, by simp, specialMove_reads reg level rfl⟩

end Sys2Proof.Machine
end

section
/-! The table registers and the machine status word (R438, R439, R441, R444, R445, R447). -/

namespace Sys2Proof.Machine

variable {s : State} {m : MemOp}

/-- A table register is read from six bytes (R438). -/
theorem readTable_ok (limit : s.reaches (s.memSeg m) (s.ea m) 2 false 1 = true)
    (base : s.reaches (s.memSeg m) (s.ea m + 2#32) 4 false 1 = true) :
    readTable m s = .ok
      ⟨if s.os = .s32 ∧ s.has386 = true then s.memVal .w32 (s.memSeg m) (s.ea m + 2#32)
        else s.memVal .w32 (s.memSeg m) (s.ea m + 2#32) &&& 0x00FFFFFF#32, s.memVal .w16 (s.memSeg m) (s.ea m)⟩ s := by
  simp only [readTable, M.bind_run, getS_run, segRead_ok limit, segRead_ok base, M.pure_run]
  rfl

/-- The state after a table register is stored in six bytes (R444). -/
def State.tableStored (s : State) (m : MemOp) (t : TableReg) : State :=
  (s.putBytes (s.linOf (s.memSeg m) (s.ea m)) (leBytes 2 t.limit.toNat)).putBytes
    (s.linOf (s.memSeg m) (s.ea m + 2#32)) (leBytes 4 (s.storedBase t.base).toNat)

theorem writeTable_ok (t : TableReg) (limit : s.reaches (s.memSeg m) (s.ea m) 2 true 1 = true)
    (base : s.reaches (s.memSeg m) (s.ea m + 2#32) 4 true 1 = true) :
    writeTable m t s = .ok () (s.tableStored m t) := by
  have same := sameAccess_putBytes s (s.linOf (s.memSeg m) (s.ea m)) (leBytes 2 t.limit.toNat)
  have first : segWrite (s.memSeg m) (s.ea m) (leBytes 2 t.limit.toNat) 1 s = .ok () _ :=
    segWrite_ok (by rw [leBytes_length]; exact limit)
  have second : segWrite (s.memSeg m) (s.ea m + 2#32) (leBytes 4 (s.storedBase t.base).toNat) 1 _ = .ok () _ :=
    segWrite_ok (by rw [leBytes_length, same.reaches]; exact base)
  simp only [writeTable, M.bind_run, getS_run, probeWrite_ok limit, probeWrite_ok base, first, second, same.linOf]
  rfl

/-- LMSW that leaves PE as it is (R441): MP, EM and TS alone. -/
theorem State.setCr0_same {c : Cr0} (pe : c.pe = s.sys.cr0.pe) (wp : c.wp = s.sys.cr0.wp) (pg : c.pg = s.sys.cr0.pg) :
    s.setCr0 c = s.setSys { s.sys with cr0 := c } := by
  obtain ⟨-, -, tlb, frame⟩ := s.setCr0_eq c
  rw [if_neg (by simp [pe, wp, pg])] at tlb
  rw [frame, tlb, if_neg (by simp [pe])]
  rfl

/-- Entering protected mode (R428): level 0, and the translation buffer empty. -/
theorem State.setCr0_enter {c : Cr0} (enters : c.pe = true) (real : s.sys.cr0.pe = false) :
    s.setCr0 c = (s.setSys { s.sys with cr0 := c, cpl := 0#2 }).setTlb [] := by
  obtain ⟨-, -, tlb, frame⟩ := s.setCr0_eq c
  rw [if_pos (by simp [enters, real])] at tlb
  rw [frame, tlb, if_pos ⟨enters, real⟩]

/-- CR0 with MP, EM, TS and PE as LMSW makes them (R441). -/
def Cr0.withMsw (c : Cr0) (v : BitVec 16) : Cr0 :=
  { c with mp := bitOf v 1, em := bitOf v 2, ts := bitOf v 3, pe := c.pe || bitOf v 0 }

/-- LMSW at level 0 (R441). -/
theorem lmsw_ok {rm : RM} (level : s.cpl = 0#2) (reads : s.rmReads .w16 rm = true) :
    exec (.lmsw rm) s = .next (s.setCr0 (s.sys.cr0.withMsw (s.rmVal .w16 rm))).advance := by
  refine (complete_privileged level).trans (complete_ok ?_)
  simp only [M.bind_run, readRM_ok reads, updS_run]
  rfl

/-- A selector stored in a register (R446): under a free half with OS = 32. -/
theorem storeSel_reg16 (r : RegNum) (x : BitVec 16) (os : s.os = .s16) :
    storeSel (.reg r) x s = .ok () (s.regPut .w16 r x) := by
  simp only [storeSel, M.bind_run, getS_run]
  rw [os]
  rfl

theorem storeSel_reg32 (r : RegNum) (x : BitVec 16) (os : s.os = .s32) : storeSel (.reg r) x s =
    .ok () ((s.setDraws (s.draws + 1)).regPut .w32 r (Config.freeWord s.draws ++ x)) := by
  simp only [storeSel, M.bind_run, getS_run]
  rw [os]
  rfl

theorem storeSel_mem (x : BitVec 16) (writes : s.rmWrites .w16 (.mem m) = true) :
    storeSel (.mem m) x s = .ok () (s.memPut .w16 (s.memSeg m) (s.ea m) x) := by
  simp only [storeSel, M.bind_run, getS_run]
  exact writeRM_ok (w := .w16) (rm := .mem m) x writes

/-- The machine status word of the 80386 and 80486 (R447): CR0 with free reserved bits. -/
theorem readMsw_386 (newer : s.has386 = true) : ∃ x : BitVec 32,
    x &&& cr0Defined s.has486 = s.sys.cr0.word &&& cr0Defined s.has486 ∧
      readMsw s = .ok x (s.setDraws (s.draws + 1)) := by
  obtain ⟨x, defined, run⟩ := withReserved_run (cr0Defined s.has486) s.sys.cr0.word s
  refine ⟨x, defined, ?_⟩
  simp only [readMsw, M.bind_run, getS_run, newer]
  exact run

/-- The machine status word of the 80286 (R447). -/
theorem readMsw_286 (older : s.has386 = false) : readMsw s = .ok (0xFFF0#32 ||| s.sys.cr0.word) s := by
  simp only [readMsw, M.bind_run, getS_run, older]
  rfl

theorem State.has486_of_not_386 (older : s.has386 = false) : s.has486 = false := by
  simp only [State.has386, bne_eq_false_iff_eq] at older
  simp [State.has486, older]

/-- SMSW to memory stores the low half (R447). -/
theorem smsw_mem {t : State} {x : BitVec 32} (reads : readMsw s = .ok x t)
    (writes : t.rmWrites .w16 (.mem m) = true) :
    exec (.smsw (.mem m)) s = .next (t.memPut .w16 (t.memSeg m) (t.ea m) (x.extractLsb' 0 16)).advance := by
  refine complete_ok ?_
  simp only [M.bind_run, reads]
  exact writeRM_ok (rm := .mem m) _ writes

/-- SMSW to a register is the store of a selector (R446), but for the whole of CR0 on the 80486 with OS = 32. -/
theorem smsw_reg {t u : State} {x : BitVec 32} {r : RegNum} (reads : readMsw s = .ok x t)
    (half : (s.has486 && s.os == .s32) = false) (stores : storeSel (.reg r) (x.extractLsb' 0 16) t = .ok () u) :
    exec (.smsw (.reg r)) s = .next u.advance := by
  refine complete_ok ?_
  simp only [M.bind_run, reads, half]
  exact stores

theorem smsw_whole {t : State} {x : BitVec 32} {r : RegNum} (reads : readMsw s = .ok x t)
    (whole : (s.has486 && s.os == .s32) = true) :
    exec (.smsw (.reg r)) s = .next (t.regPut .w32 r x).advance := by
  refine complete_ok ?_
  simp only [M.bind_run, reads, whole]
  rfl

/-- Settles O37: each table register is read or stored whole, LMSW replaces CR0, and SMSW stores what it reads. -/
theorem tableRegisters : Obligations.TableRegisters := by
  intro s m r rm k a y full t stored v c
  refine ⟨fun level limit base => ⟨(complete_privileged level).trans (complete_ok ?_),
      (complete_privileged level).trans (complete_ok ?_)⟩,
    fun limit base => ⟨complete_ok (writeTable_ok _ limit base), complete_ok (writeTable_ok _ limit base)⟩,
    fun level reads kept => ?_, fun reads real sets => ?_, fun newer => ?_, fun older => ?_⟩
  · simp only [M.bind_run, readTable_ok limit base, updSys_run]
    rfl
  · simp only [M.bind_run, readTable_ok limit base, updSys_run]
    rfl
  · have pe : (c.withMsw v).pe = c.pe := by
      obtain on | clear := kept
      · simp [Cr0.withMsw, on]
      · show (c.pe || v.getLsbD 0) = c.pe
        rw [clear, Bool.or_false]
    have value : c.withMsw v = { c with mp := v.getLsbD 1, em := v.getLsbD 2, ts := v.getLsbD 3 } :=
      congrArg (fun b => { c with mp := bitOf v 1, em := bitOf v 2, ts := bitOf v 3, pe := b }) pe
    rw [lmsw_ok level reads, State.setCr0_same pe rfl rfl]
    exact congrArg (fun n => Host.Outcome.next (s.setSys { y with cr0 := n }).advance) value
  · have level : s.cpl = 0#2 := by simp [State.cpl, show s.sys.cr0.pe = false from real]
    have pe : (c.withMsw v).pe = true := by simp [Cr0.withMsw, bitOf, sets]
    have value : c.withMsw v = { c with pe := true, mp := v.getLsbD 1, em := v.getLsbD 2, ts := v.getLsbD 3 } :=
      congrArg (fun b => { c with mp := bitOf v 1, em := bitOf v 2, ts := bitOf v 3, pe := b }) pe
    rw [lmsw_ok level reads, State.setCr0_enter pe real]
    exact congrArg (fun n => Host.Outcome.next ((s.setSys { y with cr0 := n, cpl := 0#2 }).setTlb []).advance) value
  · obtain ⟨x, defined, read⟩ := readMsw_386 newer
    refine ⟨x, defined, fun os => ?_, fun os newest => ?_, fun os older => ?_, fun writes => ?_⟩
    · exact smsw_reg read (by simp [os]) (storeSel_reg16 (s := s.setDraws (s.draws + 1)) r _ os)
    · exact smsw_whole read (by simp [os, newest])
    · exact smsw_reg read (by simp [older]) (storeSel_reg32 (s := s.setDraws (s.draws + 1)) r _ os)
    · exact smsw_mem read (((sameAccess_draws s _).rmWrites rfl rfl _ _).trans writes)
  · have low : (0xFFF0#32 ||| c.word).extractLsb' 0 16 = 0xFFF0#16 ||| c.word.extractLsb' 0 16 :=
      BitVec.extractLsb'_or
    refine ⟨?_, fun writes => ?_⟩
    · rw [← low]
      exact smsw_reg (readMsw_286 older) (by simp [State.has486_of_not_386 older])
        (storeSel_reg16 r _ (State.sizes_286 older).1)
    · rw [← low]
      exact smsw_mem (readMsw_286 older) writes

end Sys2Proof.Machine
end

section
/-! The instructions over selectors in protected mode (R435 to R437, R440, R442, R443, R446, R448 to R450). -/

namespace Sys2Proof.Machine

variable {s : State} {rm : RM} {m : MemOp}

/-- In protected mode the instructions that only it has go on (R170). -/
theorem protectedOnly_ok (mode : s.protMode = true) : protectedOnly s = .ok () s := by
  simp only [protectedOnly, M.bind_run, getS_run, if_pos mode, M.pure_run]

theorem complete_protected {m : M Unit} (mode : s.protMode = true) :
    complete (do protectedOnly; m) s = complete m s := by
  refine complete_congr ?_
  simp only [M.bind_run, protectedOnly_ok mode]

/-- The state with ZF alone changed. -/
def State.withZf (s : State) (z : Bool) : State := s.setFlags { s.flags with zf := z }

theorem setZf_run (z : Bool) (s : State) : setZf z s = .ok () (s.withZf z) := rfl

/-- The new selector of ARPL (R436). -/
theorem arpl_selector (dst src : BitVec 16) :
    selErr dst ||| (selRpl src).setWidth 16 = dst.extractLsb' 2 14 ++ src.extractLsb' 0 2 :=
  selErr_or_level dst (selRpl src)

/-- ARPL where the source asks for more privilege (R436). -/
theorem arpl_kept {reg : RegNum} (mode : s.protMode = true) (reads : s.rmReads .w16 rm = true)
    (low : (selRpl (s.reg .w16 reg)).toNat ≤ (selRpl (s.rmVal .w16 rm)).toNat) :
    exec (.arpl reg rm) s = .next (s.withZf false).advance := by
  refine (complete_protected mode).trans (complete_ok ?_)
  simp only [M.bind_run, readRM_ok reads]
  rw [if_neg (Nat.not_lt.mpr low), setZf_run]

/-- ARPL that raises the level of the destination (R436). -/
theorem arpl_raised {reg : RegNum} (mode : s.protMode = true) (reads : s.rmReads .w16 rm = true)
    (high : (selRpl (s.rmVal .w16 rm)).toNat < (selRpl (s.reg .w16 reg)).toNat)
    (writes : s.rmWrites .w16 rm = true) :
    exec (.arpl reg rm) s = .next ((s.rmPut .w16 rm ((s.rmVal .w16 rm).extractLsb' 2 14 ++
      (s.reg .w16 reg).extractLsb' 0 2)).setFlags { s.flags with zf := true }).advance := by
  refine (complete_protected mode).trans (complete_ok ?_)
  simp only [M.bind_run, readRM_ok reads]
  rw [if_pos high, arpl_selector]
  simp only [M.bind_run, writeRM_ok _ writes, setZf_run, State.withZf, State.rmPut_flags]

/-- The descriptor of a selector is looked up (R435). -/
theorem descIfOk_run {sel : BitVec 16} (found : selNull sel = true ∨ s.descPlain sel = true) :
    descIfOk sel s = .ok (s.descOf sel) s := by
  simp only [descIfOk, M.bind_run, getS_run, State.descOf]
  by_cases null : selNull sel = true
  · rw [if_pos null, if_pos null]
    rfl
  · have plain := found.resolve_left null
    rw [if_neg null, if_neg null]
    unfold State.descPlain at plain
    cases addr : s.descAddr sel with
    | none => rfl
    | some a =>
      rw [addr] at plain
      obtain ⟨lo, hi⟩ := Bool.and_eq_true_iff.mp plain
      simp only [M.bind_run, descAt_plain lo hi, M.pure_run, Option.map_some]

/-- What an instruction that looks at a descriptor does (R437, R442, R449). -/
theorem lookAt_ok {ok : State → Desc → Bool} {f : Desc → M Unit} {g : Desc → State → State} (mode : s.protMode = true)
    (reads : s.rmReads .w16 rm = true)
    (found : selNull (s.rmVal .w16 rm) = true ∨ s.descPlain (s.rmVal .w16 rm) = true)
    (follows : ∀ d, f d (s.withZf true) = .ok () (g d (s.withZf true))) :
    lookAt rm ok f s = .next (s.looked (s.descOf (s.rmVal .w16 rm)) (ok s) (s.rmVal .w16 rm) g).advance := by
  refine (complete_protected mode).trans (complete_ok ?_)
  simp only [M.bind_run, readRM_ok reads, descIfOk_run found]
  cases s.descOf (s.rmVal .w16 rm) with
  | none => rfl
  | some d =>
    show (if (ok s d && visible s.cpl (s.rmVal .w16 rm) d) = true then (do setZf true; f d) else setZf false) s = _
    simp only [State.looked]
    by_cases passes : (ok s d && visible s.cpl (s.rmVal .w16 rm) d) = true
    · rw [if_pos passes, if_pos passes]
      simp only [M.bind_run, setZf_run, follows]
      rfl
    · rw [if_neg passes, if_neg passes]
      rfl

/-- The access rights LAR gives by operand size (R437). -/
theorem larRights_eq (os : Size) (d : Desc) :
    larRights os d = d.hi &&& (if os = .s32 then 0x00F0FF00#32 else 0xFF00#32) := by
  cases os <;> rfl

/-- A selector that is not null and has a descriptor names it. -/
theorem State.names_of_descOf {sel : BitVec 16} {d : Desc} (plain : s.descPlain sel = true)
    (found : s.descOf sel = some d) : s.names sel d = true := by
  have nonNull : selNull sel = false := by
    by_contra null
    simp only [Bool.not_eq_false] at null
    simp [State.descOf, null] at found
  simp [State.names, nonNull, plain, found]

/-- LLDT and LTR find the descriptor in the global table (R440, R443). -/
theorem globalDesc_names {sel : BitVec 16} {d : Desc} (global : selLocal sel = false) (named : s.names sel d = true) :
    globalDesc sel s = .ok d s := by
  simp only [globalDesc, global, Bool.false_eq_true, if_false, readDesc_names _ named]

/-- LLDT of a null selector (R440). -/
theorem lldt_null (mode : s.protMode = true) (level : s.cpl = 0#2) (reads : s.rmReads .w16 rm = true)
    (null : selNull (s.rmVal .w16 rm) = true) : exec (.lldt rm) s =
      .next (s.setSys { s.sys with ldtr := s.sys.ldtr.toNull (s.rmVal .w16 rm) }).advance := by
  refine (complete_protected mode).trans ((complete_privileged level).trans (complete_ok ?_))
  simp only [M.bind_run, readRM_ok reads, null, if_true, updSys_run]

/-- LLDT of a descriptor of type 2 that is present (R440). -/
theorem lldt_named {d : Desc} (mode : s.protMode = true) (level : s.cpl = 0#2) (reads : s.rmReads .w16 rm = true)
    (global : selLocal (s.rmVal .w16 rm) = false) (named : s.names (s.rmVal .w16 rm) d = true)
    (present : arPresent d.access = true) (system : arSegment d.access = false) (table : arType d.access = 2) :
    exec (.lldt rm) s =
      .next (s.setSys { s.sys with ldtr := d.toSystem (s.rmVal .w16 rm) d.access }).advance := by
  refine (complete_protected mode).trans ((complete_privileged level).trans (complete_ok ?_))
  simp only [M.bind_run, readRM_ok reads, State.not_null_of_names named, Bool.false_eq_true, if_false,
    globalDesc_names global named, system, table, present, Bool.not_true, bne_self_eq_false, Bool.or_self, updSys_run]

/-- LTR of an available task state segment that is present (R443). -/
theorem ltr_named {d : Desc} (mode : s.protMode = true) (level : s.cpl = 0#2) (reads : s.rmReads .w16 rm = true)
    (global : selLocal (s.rmVal .w16 rm) = false) (named : s.names (s.rmVal .w16 rm) d = true)
    (present : arPresent d.access = true) (available : availableTss s.has386 d.access = true) :
    exec (.ltr rm) s = .next ((s.putBytes (d.addr + 5#32) [d.access ||| 2#8]).setSys
      { s.sys with tr := d.toSystem (s.rmVal .w16 rm) (d.access ||| 2#8) }).advance := by
  refine (complete_protected mode).trans ((complete_privileged level).trans (complete_ok ?_))
  have marks : sysWrite (d.addr + 5#32) [d.access ||| 2#8] s = .ok () _ := sysWrite_plain (State.plain_access named)
  simp only [M.bind_run, readRM_ok reads, State.not_null_of_names named, Bool.false_eq_true, if_false,
    globalDesc_names global named, available, present, Bool.not_true, marks, updSys_run, State.putBytes_sys]

/-- SLDT and STR, to a register by operand size, and to memory (R446, R448). -/
theorem storeSel_row {i : RM → Instr} {x : BitVec 16} (reg : RegNum) (m : MemOp) (mode : s.protMode = true)
    (row : ∀ rm, exec (i rm) s = complete (do protectedOnly; storeSel rm x) s) :
    (s.os = .s16 → exec (i (.reg reg)) s = .next (s.regPut .w16 reg x).advance) ∧
    (s.os = .s32 → exec (i (.reg reg)) s =
      .next ((s.setDraws (s.draws + 1)).regPut .w32 reg (Config.freeWord s.draws ++ x)).advance) ∧
    (s.rmWrites .w16 (.mem m) = true →
      exec (i (.mem m)) s = .next (s.memPut .w16 (s.memSeg m) (s.ea m) x).advance) := by
  have stored {rm : RM} {t : State} (h : storeSel rm x s = .ok () t) : exec (i rm) s = .next t.advance :=
    (row rm).trans ((complete_protected mode).trans (complete_ok h))
  exact ⟨fun os => stored (storeSel_reg16 reg x os), fun os => stored (storeSel_reg32 reg x os),
    fun writes => stored (storeSel_mem x writes)⟩

/-- Settles O38: ARPL compares two levels, four instructions look at a descriptor, two load a system segment register
from one, and two store a selector. -/
theorem selectorInstructions : Obligations.SelectorInstructions := by
  intro s reg rm m d sel ow src zf rights sysReg busy stores mode
  refine ⟨fun reads => ⟨arpl_kept mode reads, arpl_raised mode reads⟩, fun reads found => ⟨?_, ?_, ?_, ?_⟩,
    fun level reads null => lldt_null mode level reads null, fun level reads plain found global present system => ?_,
    storeSel_row reg m mode fun _ => rfl, storeSel_row reg m mode fun _ => rfl⟩
  · show execLar reg rm s = _
    refine lookAt_ok mode reads found fun d => ?_
    rw [larRights_eq]
    rfl
  · show execLsl reg rm s = _
    exact lookAt_ok mode reads found fun d => rfl
  · show execVerr rm s = _
    exact lookAt_ok mode reads found fun d => rfl
  · show execVerw rm s = _
    exact lookAt_ok mode reads found fun d => rfl
  · have named := State.names_of_descOf plain found
    refine ⟨fun table => lldt_named mode level reads global named present system table, fun task => ?_⟩
    refine ltr_named mode level reads global named present ?_
    obtain old | ⟨newer, new⟩ := task
    · simp [availableTss, system, old]
    · simp [availableTss, system, newer, new]

end Sys2Proof.Machine
end

section
/-! What stands around every coprocessor instruction (R424, R482, R640 to R642): the start and the end of each. -/

namespace Sys2Proof.Machine

variable {s t : State}

/-! A computation that ends. -/

/-- A computation ends with a value and a state of which `Q` holds. -/
def Ends {α : Type} (m : M α) (s : State) (Q : α → State → Prop) : Prop := ∃ a t, m s = .ok a t ∧ Q a t

section

variable {α β : Type} {m : M α} {k : α → M β} {Q : α → State → Prop} {R : β → State → Prop}

theorem Ends.of_run {a : α} (run : m s = .ok a t) (h : Q a t) : Ends m s Q := ⟨a, t, run, h⟩

theorem Ends.mono {P : α → State → Prop} (h : Ends m s P) (weaker : ∀ a t, P a t → Q a t) : Ends m s Q := by
  obtain ⟨a, t, run, p⟩ := h
  exact ⟨a, t, run, weaker a t p⟩

theorem Ends.bind (first : Ends m s Q) (next : ∀ a t, Q a t → Ends (k a) t R) : Ends (m >>= k) s R := by
  obtain ⟨a, t, run, q⟩ := first
  obtain ⟨b, u, run', r⟩ := next a t q
  exact ⟨b, u, by rw [M.bind_run, run]; exact run', r⟩

theorem Ends.congr {m' : M α} {s' : State} (h : Ends m s Q) (same : m' s' = m s) : Ends m' s' Q := by
  obtain ⟨a, t, run, q⟩ := h
  exact ⟨a, t, same.trans run, q⟩

/-- What follows a step that ran. -/
theorem Ends.after {a : α} (run : m s = .ok a t) (next : Ends (k a) t R) : Ends (m >>= k) s R :=
  (Ends.of_run (Q := fun b u => b = a ∧ u = t) run ⟨rfl, rfl⟩).bind fun _ _ ⟨ha, ht⟩ => by rw [ha, ht]; exact next

end

/-! The part of the state that a coprocessor instruction changes before its signals settle. -/

/-- The state with the coprocessor replaced and values drawn. -/
def State.npx (s : State) (f : Fpu) (d : Nat) : State := (s.setFpu f).setDraws d

@[simp] theorem State.npx_fpu (f : Fpu) (d : Nat) : (s.npx f d).fpu = f := rfl
@[simp] theorem State.npx_npx (f g : Fpu) (d e : Nat) : (s.npx f d).npx g e = s.npx g e := rfl
@[simp] theorem State.npx_n287 (f : Fpu) (d : Nat) : (s.npx f d).n287 = s.n287 := rfl

/-- Nothing but the coprocessor and the draws decides the rest of an access. -/
theorem sameAccess_npx (s : State) (f : Fpu) (d : Nat) : SameAccess s (s.npx f d) := ⟨rfl, rfl, rfl, rfl, rfl⟩

theorem State.npxReaches_npx (s : State) (f : Fpu) (d : Nat) (m : MemOp) (n : Nat) (write : Bool) (al : Nat) :
    (s.npx f d).npxReaches m n write al = s.npxReaches m n write al :=
  (sameAccess_npx s f d).reaches _ _ _ _ _

/-- The coprocessor with ES settled (R477). -/
def Fpu.settled (f : Fpu) : Fpu := { f with status := { f.status with es := f.status.es || f.unmasked } }

/-- Settling ES changes ES, and the signals where 'error' becomes active (R640, R641). -/
theorem settle_run (t : State) : ∃ l : NpxLink, settle t = .ok () ((t.setFpu t.fpu.settled).setLink l) := by
  simp only [settle, updS_run, State.signal, State.withFpu]
  split
  · exact ⟨_, rfl⟩
  · exact ⟨t.link, rfl⟩

/-! The start (R424, R482). -/

/-- The state in which the computation of a coprocessor instruction starts: its pointers are recorded (R44, R482). -/
def State.npxAt (s : State) (i : Instr) (m : Option MemOp) : State :=
  s.npx { s.fpu with
    fip := s.npxPtr s.segs.cs.sel (s.fipOffset i)
    fop := fopOf (encode i)
    fdp := match m with
      | some o => s.npxPtr (s.segs.get (s.memSeg o)).sel (s.ea o)
      | none => s.fpu.fdp } s.draws

theorem npxRecord_run (i : Instr) (m : Option MemOp) (s : State) : npxRecord i m s = .ok () (s.npxAt i m) := rfl

/-- What is ready to start has a coprocessor, no `#NM`, and nothing pending (R424, R641). -/
theorem State.npxReady_iff : s.npxReady = true ↔ (s.sys.cr0.em || s.sys.cr0.ts) = false ∧ s.cfg.npx ≠ .absent ∧
    (s.nativeErrors = true → s.fpu.status.es = false) ∧ (s.nativeErrors = false → s.link.busyLatch = false) := by
  simp only [State.npxReady, Bool.and_eq_true, Bool.not_eq_true', bne_iff_ne, Bool.or_eq_false_iff, and_assoc]
  cases s.nativeErrors <;> simp

theorem npxGate_pass (gate : (s.sys.cr0.em || s.sys.cr0.ts) = false) : npxGate s = .ok () s := by
  simp only [npxGate, M.bind_run, getS_run, gate]
  rfl

theorem npxGate_trap (gate : (s.sys.cr0.em || s.sys.cr0.ts) = true) : npxGate s = .error (.exc ⟨7#8, none⟩) s := by
  simp only [npxGate, M.bind_run, getS_run, gate]
  rfl

theorem whenFitted_trap {noNpx m : M Unit} (gate : (s.sys.cr0.em || s.sys.cr0.ts) = true) :
    whenFitted noNpx m s = .error (.exc ⟨7#8, none⟩) s := by
  simp only [whenFitted, M.bind_run, npxGate_trap gate]

theorem whenFitted_there {noNpx m : M Unit} (gate : (s.sys.cr0.em || s.sys.cr0.ts) = false)
    (fitted : s.cfg.npx ≠ .absent) : whenFitted noNpx m s = m s := by
  simp only [whenFitted, M.bind_run, npxGate_pass gate, getS_run, if_neg fitted]

theorem whenFitted_absent {noNpx m : M Unit} (missing : s.npxMissing = true) : whenFitted noNpx m s = noNpx s := by
  simp only [State.npxMissing, Bool.and_eq_true, Bool.not_eq_true', beq_iff_eq] at missing
  obtain ⟨⟨em, ts⟩, absent⟩ := missing
  simp only [whenFitted, M.bind_run, npxGate_pass (s := s) (by rw [em, ts]; rfl), getS_run, if_pos absent]

theorem State.npxAt_pending (i : Instr) (m : Option MemOp) (ready : s.npxReady = true) :
    npxPending (s.npxAt i m) = .ok () (s.npxAt i m) := by
  obtain ⟨-, -, noError, noWait⟩ := State.npxReady_iff.mp ready
  exact npxPending_quiet (s := s.npxAt i m) noError noWait

/-- Less of the operand lies within the segment too (R90). -/
theorem segHolds_mono {r : SegReg} {off : BitVec 32} {n k : Nat} (h : segHolds r off n = true) (less : k ≤ n) :
    segHolds r off k = true := by
  unfold segHolds at h ⊢
  split <;> simp_all <;> omega

/-- The checks of a coprocessor operand that can be accessed pass (R424, R121). -/
theorem npxProbe_ok {o : MemOp} {n al : Nat} {write : Bool} (reach : s.npxReaches o n write al = true) :
    npxProbe o n al write s = .ok () s := by
  obtain ⟨allowed, plain⟩ := Bool.and_eq_true_iff.mp reach
  simp only [State.allows, Bool.and_eq_true] at allowed
  obtain ⟨⟨granted, holds⟩, aligned⟩ := allowed
  have less : (if s.has486 then n else min n 2) ≤ n := by split <;> omega
  have first : s.allows (s.memSeg o) (s.ea o) (if s.has486 then n else min n 2) write al = true := by
    simp only [State.allows, Bool.and_eq_true]
    exact ⟨⟨granted, segHolds_mono holds less⟩, aligned⟩
  have page : pageCheck (s.linOf (s.memSeg o) (s.ea o)) n write al s =
      .ok (s.flats (s.linOf (s.memSeg o) (s.ea o)) n) s := by
    simp only [pageCheck, M.bind_run, getS_run, linAddrs_plain _ _ (State.plain_paging plain), alignCheck_ok aligned,
      M.pure_run]
  simp only [npxProbe, M.bind_run, getS_run, segCheck_ok first, holds, Bool.not_true, Bool.false_eq_true, if_false,
    page, M.pure_run]

/-! The whole instruction. -/

/-- A register instruction that is ready, from what its computation does. -/
theorem npxReg_ok {i : Instr} {m : M Unit} (ready : s.npxReady = true) (run : m (s.npxAt i none) = .ok () t) :
    ∃ l : NpxLink, npxReg i m s = .next ((t.setFpu t.fpu.settled).setLink l).advance := by
  obtain ⟨gate, fitted, -, -⟩ := State.npxReady_iff.mp ready
  obtain ⟨l, settles⟩ := settle_run t
  refine ⟨l, complete_ok ?_⟩
  rw [whenFitted_there gate fitted]
  simp only [M.bind_run, npxRecord_run, State.npxAt_pending i none ready, run, settles]

/-- One of those that settle nothing (R549 to R553). -/
theorem npxStack_ok {i : Instr} {m : M Unit} (ready : s.npxReady = true) (run : m (s.npxAt i none) = .ok () t) :
    npxStack i m s = .next t.advance := by
  obtain ⟨gate, fitted, -, -⟩ := State.npxReady_iff.mp ready
  refine complete_ok ?_
  rw [whenFitted_there gate fitted]
  simp only [M.bind_run, npxRecord_run, State.npxAt_pending i none ready, run]

/-- An instruction with a memory operand that is ready and reaches it, from what its computation does. -/
theorem npxMem_ok {i : Instr} {o : MemOp} {n al : Nat} {write : Bool} {m : M Unit} (ready : s.npxReady = true)
    (reach : s.npxReaches o n write al = true) (run : m (s.npxAt i (some o)) = .ok () t) :
    ∃ l : NpxLink, npxMem i o n al write m s = .next ((t.setFpu t.fpu.settled).setLink l).advance := by
  obtain ⟨gate, fitted, -, -⟩ := State.npxReady_iff.mp ready
  obtain ⟨l, settles⟩ := settle_run t
  refine ⟨l, complete_ok ?_⟩
  rw [whenFitted_there gate fitted]
  simp only [M.bind_run, npxProbe_ok reach, npxRecord_run, State.npxAt_pending i (some o) ready, run, settles]

/-- Without a coprocessor a register instruction is a no-operation (R424, U13). -/
theorem npxReg_missing {i : Instr} {m : M Unit} (missing : s.npxMissing = true) :
    npxReg i m s = .next s.advance ∧ npxStack i m s = .next s.advance :=
  ⟨complete_ok (whenFitted_absent missing), complete_ok (whenFitted_absent missing)⟩

/-- And so is one that reads memory. -/
theorem npxMem_missing {i : Instr} {o : MemOp} {n al : Nat} {m : M Unit} (missing : s.npxMissing = true) :
    npxMem i o n al false m s = .next s.advance := complete_ok (whenFitted_absent missing)

/-- A computation within the coprocessor: it changes the coprocessor and the draws, and of the result `P` holds. -/
def Becomes (m : M Unit) (s : State) (P : Fpu → Prop) : Prop := Ends m s fun _ t => ∃ f d, t = s.npx f d ∧ P f

theorem Becomes.of_run {m : M Unit} {P : Fpu → Prop} {f : Fpu} {d : Nat} (run : m s = .ok () (s.npx f d)) (h : P f) :
    Becomes m s P := Ends.of_run run ⟨f, d, rfl, h⟩

theorem npxReg_becomes {i : Instr} {m : M Unit} {P : Fpu → Prop} (ready : s.npxReady = true)
    (h : Becomes m (s.npxAt i none) P) :
    ∃ (f : Fpu) (l : NpxLink) (d : Nat), npxReg i m s = .next (s.npxDone f.settled l d) ∧ P f := by
  obtain ⟨_, _, run, f, d, rfl, p⟩ := h
  obtain ⟨l, done⟩ := npxReg_ok ready run
  exact ⟨f, l, d, done, p⟩

theorem npxMem_becomes {i : Instr} {o : MemOp} {n al : Nat} {write : Bool} {m : M Unit} {P : Fpu → Prop}
    (ready : s.npxReady = true) (reach : s.npxReaches o n write al = true) (h : Becomes m (s.npxAt i (some o)) P) :
    ∃ (f : Fpu) (l : NpxLink) (d : Nat), npxMem i o n al write m s = .next (s.npxDone f.settled l d) ∧ P f := by
  obtain ⟨_, _, run, f, d, rfl, p⟩ := h
  obtain ⟨l, done⟩ := npxMem_ok ready reach run
  exact ⟨f, l, d, done, p⟩

end Sys2Proof.Machine
end

section
/-! Every computation of the coprocessor over its stack ends, whatever the registers hold, and changes the coprocessor
and the draws alone: one lemma for each of the model's computations. -/

namespace Sys2Proof.Machine

variable {α β : Type}

/-- From a state a computation ends and changes the coprocessor and the draws alone. -/
def TotalAt (m : M α) (s : State) : Prop := ∃ a f d, m s = .ok a (s.npx f d)

/-- From every state it does. -/
def Total (m : M α) : Prop := ∀ s, TotalAt m s

theorem TotalAt.bind {m : M α} {k : α → M β} {s : State} (first : TotalAt m s) (next : ∀ a, Total (k a)) :
    TotalAt (m >>= k) s := by
  obtain ⟨a, f, d, run⟩ := first
  obtain ⟨b, g, e, run'⟩ := next a (s.npx f d)
  exact ⟨b, g, e, by rw [M.bind_run, run]; exact run'⟩

namespace Total

theorem pure (a : α) : Total (pure a : M α) := fun s => ⟨a, s.fpu, s.draws, rfl⟩

theorem bind {m : M α} {k : α → M β} (first : Total m) (next : ∀ a, Total (k a)) : Total (m >>= k) :=
  fun s => (first s).bind next

/-- Reading the state first. -/
theorem get {k : State → M β} (next : ∀ s, Total (k s)) : Total (getS >>= k) := fun s => next s s

theorem ite {c : Prop} [Decidable c] {a b : M α} (ha : Total a) (hb : Total b) : Total (if c then a else b) := by
  split
  · exact ha
  · exact hb

theorem updFpu (g : Fpu → Fpu) : Total (updFpu g) := fun s => ⟨(), g s.fpu, s.draws, rfl⟩
theorem updStatus (g : FpuStatus → FpuStatus) : Total (updStatus g) := updFpu _
theorem drawBit : Total drawBit := fun s => ⟨_, s.fpu, _, rfl⟩
theorem drawTemp : Total drawTemp := fun s => ⟨_, s.fpu, _, rfl⟩

/-! Exceptions and condition codes. -/

theorem codeNext (old : Bool) (c : Code) : Total (c.next old) := by
  cases c with
  | keep | val => exact pure _
  | undef => exact drawBit

theorem setCodes (c : Codes) : Total (setCodes c) := get fun _ =>
  bind (codeNext _ _) fun _ => bind (codeNext _ _) fun _ => bind (codeNext _ _) fun _ => bind (codeNext _ _) fun _ =>
    updStatus _

theorem raiseRounding (oe ue pe : Bool) : Total (raiseRounding oe ue pe) := updStatus _

theorem stackFault (c1 : Code) (c : Codes) : Total (stackFault c1 c) :=
  get fun _ => bind (updStatus _) fun _ => setCodes _

theorem putSt (i : BitVec 3) (pops : Bool) (v : Temp) : Total (putSt i pops v) := updFpu _

theorem denormalCheck (den : Bool) : Total (denormalCheck den) :=
  get fun _ => ite (bind (updStatus _) fun _ => pure _) (pure _)

/-- A masked response behind the detection of a denormal operand, if the exception is masked. -/
theorem maskedResponse {c : Prop} [Decidable c] (den : Bool) {m : M Unit} (hm : Total m) :
    Total (if c then do let go ← Machine.denormalCheck den; if go then m else Pure.pure () else Pure.pure ()) :=
  ite (bind (denormalCheck den) fun _ => ite hm (pure _)) (pure _)

theorem afterInvalid (den : Bool) {masked : M Unit} (hm : Total masked) : Total (afterInvalid den masked) :=
  get fun _ => maskedResponse den hm

theorem invalidOp (den : Bool) {masked : M Unit} (hm : Total masked) : Total (invalidOp den masked) :=
  bind (updStatus _) fun _ => bind (setCodes _) fun _ => afterInvalid den hm

theorem pushTemp (v : Temp) (den : Bool) (c : Codes) : Total (pushTemp v den c) := get fun _ =>
  ite (bind (stackFault _ _) fun _ => afterInvalid den (updFpu _)) (bind (updFpu _) fun _ => setCodes _)

theorem zeroDivideOp (den : Bool) {masked : M Unit} (hm : Total masked) : Total (zeroDivideOp den masked) :=
  get fun _ => bind (updStatus _) fun _ => bind (setCodes _) fun _ => maskedResponse den hm

section
variable {put : Temp → M Unit} (hp : ∀ v, Total (put v))
include hp

theorem valueOp (den : Bool) {v : M Temp} (hv : Total v) (oe ue pe up : Bool) (c : Code → Codes) :
    Total (valueOp den v oe ue pe up c put) :=
  bind (denormalCheck den) fun _ => ite
    (get fun _ => bind hv fun _ => bind (raiseRounding _ _ _) fun _ => bind (setCodes _) fun _ => hp _) (setCodes _)

theorem putDrawn : Total (do let v ← Machine.drawTemp; put v) := bind drawTemp fun v => hp v

theorem preStandardOp (c : Code → Codes) : Total (preStandardOp c put) :=
  bind drawBit fun _ => bind drawBit fun _ => ite (invalidOp _ (putDrawn hp))
    (bind drawBit fun _ => ite (zeroDivideOp _ (putDrawn hp))
      (bind drawBit fun _ => bind drawBit fun _ => bind drawBit fun _ => valueOp hp _ drawTemp _ _ _ _ c))

theorem deliverRes (den : Bool) (r : Res) (c : Code → Codes) : Total (deliverRes den r c put) := by
  cases r with
  | invalid v => exact invalidOp den (hp v)
  | zeroDivide v => exact zeroDivideOp den (hp v)
  | value v oe ue pe up => exact valueOp hp den (pure v) _ _ _ _ c
  | unstated oe ue pe up => exact valueOp hp den drawTemp _ _ _ _ c
  | preStandard => exact preStandardOp hp c

theorem maskedOf (vs : List Temp) : Total (maskedOf vs put) := get fun _ => ite (putDrawn hp) (by
  cases vs with
  | nil => exact hp _
  | cons a _ => exact hp _)

theorem underflowTo (pushes : Bool) (vs : List Temp) (den : Bool) : Total (underflowTo pushes vs den put) :=
  get fun _ => bind (stackFault _ _) fun _ => afterInvalid den (maskedOf hp vs)

theorem underflowPair (i j : BitVec 3) : Total (underflowPair i j put) := get fun _ => underflowTo hp _ _ _

end

/-! Transfers and comparisons. -/

theorem loadSt (i : BitVec 3) : Total (loadSt i) :=
  get fun _ => ite (underflowTo (fun _ => updFpu _) _ _ _) (pushTemp _ _ _)

theorem storeSt (i : BitVec 3) (pops : Bool) : Total (storeSt i pops) :=
  get fun _ => ite (underflowTo (putSt i pops) _ _ _) (bind (setCodes _) fun _ => putSt _ _ _)

theorem exchange (i : BitVec 3) : Total (exchange i) :=
  get fun _ => ite (bind (stackFault _ _) fun _ => afterInvalid _ (updFpu _)) (bind (setCodes _) fun _ => updFpu _)

theorem popTimes (n : Nat) : Total (popTimes n) := by
  induction n with
  | zero => exact pure _
  | succ n ih => exact bind (updFpu _) fun _ => ih

theorem compareEmpty (den : Bool) (pops : Nat) : Total (compareEmpty den pops) :=
  get fun _ => bind (stackFault _ _) fun _ => afterInvalid den (popTimes pops)

/-- A value that is drawn under a condition. -/
theorem bindIte {c : Prop} [Decidable c] {a b : M α} {k : α → M β} (ha : Total a) (hb : Total b)
    (next : ∀ x, Total (k x)) : Total (if c then a >>= k else b >>= k) := ite (bind ha next) (bind hb next)

theorem compareWith (quietOk : Bool) (b : Temp) (den : Bool) (pops : Nat) :
    Total (compareWith quietOk b den pops) := by
  refine get fun s => bindIte drawBit (pure _) fun bad => bindIte drawBit (pure _) fun _ => ?_
  refine bind (ite (updStatus _) (pure _)) fun _ => ite (setCodes _) ?_
  exact bind (denormalCheck _) fun _ => bind (setCodes _) fun _ => ite (popTimes _) (pure _)

theorem compareSt (quietOk : Bool) (i : BitVec 3) (pops : Nat) : Total (compareSt quietOk i pops) :=
  get fun _ => ite (compareEmpty _ _) (compareWith _ _ _ _)

theorem testZero : Total testZero := get fun _ => ite (compareEmpty _ _) (compareWith _ _ _ _)

theorem examine : Total examine := get fun _ => ite (setCodes _) (ite (setCodes _) (setCodes _))

theorem loadConst (k : NpxConst) : Total (loadConst k) := get fun _ => pushTemp _ _ _

theorem loadExact (v : Temp) : Total (loadExact v) := get fun _ => pushTemp _ _ _

/-! Arithmetic and the transcendental instructions. -/

theorem arithSt (op : ArOp) (rev d : Bool) (i : BitVec 3) (pops : Bool) : Total (arithSt op rev d i pops) :=
  get fun _ => ite (underflowPair (putSt _ _) _ _) (deliverRes (putSt _ _) _ _ _)

theorem unary (f : State → Temp → Res) : Total (unary f) :=
  get fun _ => ite (underflowTo (putSt _ _) _ _ _) (deliverRes (putSt _ _) _ _ _)

theorem scaleOp : Total scaleOp := get fun _ => ite (underflowPair (putSt _ _) _ _) (deliverRes (putSt _ _) _ _ _)

theorem premOp (ieee : Bool) : Total (premOp ieee) :=
  get fun _ => ite (underflowPair (putSt _ _) _ _) (deliverRes (putSt _ _) _ _ _)

theorem withPush (a : Temp) (r : Res) (second : Temp) (c : Code → Codes) : Total (withPush a r second c) := by
  refine get fun s => ite (bind (stackFault _ _) fun _ => afterInvalid _ (updFpu _)) (deliverRes (fun v => ?_) _ _ _)
  split
  · exact updFpu _
  · exact updFpu _

theorem underflowBoth : Total underflowBoth := underflowTo (fun _ => updFpu _) _ _ _

theorem extractOp : Total extractOp :=
  get fun _ => ite underflowBoth (bindIte drawTemp (pure _) fun _ => withPush _ _ _ _)

theorem signOp (f : Temp → Temp) : Total (signOp f) :=
  get fun _ => ite (underflowTo (putSt _ _) _ _ _) (bind (setCodes _) fun _ => putSt _ _ _)

theorem trigOp (k : Config.NpxFun) (atZero : Temp → Temp) : Total (trigOp k atZero) :=
  get fun _ => ite (underflowTo (putSt _ _) _ _ _) (ite (setCodes _) (deliverRes (putSt _ _) _ _ _))

theorem tanOp : Total tanOp :=
  get fun _ => ite underflowBoth (ite (withPush _ _ _ _) (ite (setCodes _) (withPush _ _ _ _)))

theorem sincosOp : Total sincosOp := get fun _ => ite underflowBoth (ite (setCodes _) (withPush _ _ _ _))

theorem binaryOp (f : State → Temp → Temp → Res) : Total (binaryOp f) :=
  get fun _ => ite (underflowPair (putSt _ _) _ _) (deliverRes (putSt _ _) _ _ _)

theorem exp2Op : Total exp2Op :=
  get fun _ => ite (underflowTo (putSt _ _) _ _ _) (deliverRes (putSt _ _) _ _ _)

end Total

/-! Computations that read a number from memory: they end where it can be read. -/

variable {s : State}

/-- A numeric operand that can be read. -/
theorem readMemBytes_ok {o : MemOp} {n al : Nat} (reach : s.npxReaches o n false al = true) :
    readMemBytes o n al s = .ok (s.bytesAt (s.linOf (s.memSeg o) (s.ea o)) n) s := by
  simp only [readMemBytes, M.bind_run, getS_run, segRead_ok reach]

/-- The number that an operand holds (R471, R483). -/
def State.numAt (s : State) (f : NumFmt) (o : MemOp) (keep : Bool) : Temp × Bool :=
  f.load keep (leNat (s.bytesAt (s.linOf (s.memSeg o) (s.ea o)) f.bytes))

theorem readNum_ok {f : NumFmt} {o : MemOp} (keep : Bool) (reach : s.npxReaches o f.bytes false f.bytes = true) :
    readNum f o keep s = .ok (s.numAt f o keep) s := by
  simp only [readNum, M.bind_run, readMemBytes_ok reach, M.pure_run]
  rfl

theorem TotalAt.readNum {f : NumFmt} {o : MemOp} (keep : Bool) (reach : s.npxReaches o f.bytes false f.bytes = true) :
    TotalAt (readNum f o keep) s := ⟨_, s.fpu, s.draws, readNum_ok keep reach⟩

theorem TotalAt.readMemBytes {o : MemOp} {n al : Nat} (reach : s.npxReaches o n false al = true) :
    TotalAt (readMemBytes o n al) s := ⟨_, s.fpu, s.draws, readMemBytes_ok reach⟩

/-- Reading the state first: what follows runs from that state. -/
theorem TotalAt.get {k : State → M α} (next : TotalAt (k s) s) : TotalAt (getS >>= k) s := next

theorem TotalAt.loadNum {f : NumFmt} {o : MemOp} (reach : s.npxReaches o f.bytes false f.bytes = true) :
    TotalAt (loadNum f o) s := by
  refine .get (.bind (.readNum _ reach) fun ⟨v, den⟩ => .ite (.pushTemp _ _ _) (.ite ?_ ?_))
  · exact .invalidOp false (.updFpu _)
  · exact .bind (.denormalCheck _) fun _ => .bind (.setCodes _) fun _ => .ite (.updFpu _) (.pure _)

theorem TotalAt.loadTemp {o : MemOp} (reach : s.npxReaches o 10 false 8 = true) : TotalAt (loadTemp o) s :=
  .bind (.readMemBytes reach) fun _ => .pushTemp _ _ _

theorem TotalAt.loadBcd {o : MemOp} (reach : s.npxReaches o 10 false 8 = true) : TotalAt (loadBcd o) s := by
  refine .bind (.readMemBytes reach) fun bs => ?_
  split
  · exact .pushTemp _ _ _
  · exact .bind .drawTemp fun _ => .pushTemp _ _ _

theorem TotalAt.compareNum {f : NumFmt} {o : MemOp} (pops : Nat) (reach : s.npxReaches o f.bytes false f.bytes = true) :
    TotalAt (compareNum f o pops) s :=
  .get (.bind (.readNum _ reach) fun ⟨_, _⟩ => .ite (.compareEmpty _ _) (.compareWith _ _ _ _))

theorem TotalAt.arithNum {f : NumFmt} {o : MemOp} (op : ArOp) (rev : Bool)
    (reach : s.npxReaches o f.bytes false f.bytes = true) : TotalAt (arithNum op rev f o) s :=
  .get (.bind (.readNum _ reach) fun ⟨_, _⟩ =>
    .ite (.underflowTo (.putSt _ _) _ _ _) (.deliverRes (.putSt _ _) _ _ _))

end Sys2Proof.Machine
end

section
/-! The rows of the coprocessor by what stands around them: register instructions, those that read a number from memory,
those that store one. -/

namespace Sys2Proof.Machine

/-- Every instruction over the register stack is the start of R424 and R482, a computation that ends, and, but for those
that can raise nothing, the settling of ES. -/
theorem exec_npxStackOp {i : Instr} (row : Instr.npxStackOp i = true) : ∃ m : M Unit, Total m ∧
    ((∀ s, exec i s = npxReg i m s) ∨ (∀ s, exec i s = npxStack i m s)) := by
  have reg {m : M Unit} (total : Total m) (same : ∀ s, exec i s = npxReg i m s) : ∃ m : M Unit, Total m ∧
      ((∀ s, exec i s = npxReg i m s) ∨ (∀ s, exec i s = npxStack i m s)) := ⟨m, total, .inl same⟩
  have stack {m : M Unit} (total : Total m) (same : ∀ s, exec i s = npxStack i m s) : ∃ m : M Unit, Total m ∧
      ((∀ s, exec i s = npxReg i m s) ∨ (∀ s, exec i s = npxStack i m s)) := ⟨m, total, .inr same⟩
  cases i with
  | fldSt k => exact reg (.loadSt k) fun _ => rfl
  | fstSt k => exact reg (.storeSt k false) fun _ => rfl
  | fstpSt k => exact reg (.storeSt k true) fun _ => rfl
  | fxch k => exact reg (.exchange k) fun _ => rfl
  | fcomSt k => exact reg (.compareSt false k 0) fun _ => rfl
  | fcompSt k => exact reg (.compareSt false k 1) fun _ => rfl
  | fcompp => exact reg (.compareSt false 1#3 2) fun _ => rfl
  | fucom k => exact reg (.compareSt true k 0) fun _ => rfl
  | fucomp k => exact reg (.compareSt true k 1) fun _ => rfl
  | fucompp => exact reg (.compareSt true 1#3 2) fun _ => rfl
  | ftst => exact reg .testZero fun _ => rfl
  | fxam => exact reg .examine fun _ => rfl
  | fldz => exact reg (.loadExact (tZero false)) fun _ => rfl
  | fld1 => exact reg (.loadExact tOne) fun _ => rfl
  | fldpi => exact reg (.loadConst .pi) fun _ => rfl
  | fldl2t => exact reg (.loadConst .l2t) fun _ => rfl
  | fldl2e => exact reg (.loadConst .l2e) fun _ => rfl
  | fldlg2 => exact reg (.loadConst .lg2) fun _ => rfl
  | fldln2 => exact reg (.loadConst .ln2) fun _ => rfl
  | faddSt d k => exact reg (.arithSt .add false d k false) fun _ => rfl
  | faddp k => exact reg (.arithSt .add false true k true) fun _ => rfl
  | fsubSt d k => exact reg (.arithSt .sub false d k false) fun _ => rfl
  | fsubp k => exact reg (.arithSt .sub false true k true) fun _ => rfl
  | fsubrSt d k => exact reg (.arithSt .sub true d k false) fun _ => rfl
  | fsubrp k => exact reg (.arithSt .sub true true k true) fun _ => rfl
  | fmulSt d k => exact reg (.arithSt .mul false d k false) fun _ => rfl
  | fmulp k => exact reg (.arithSt .mul false true k true) fun _ => rfl
  | fdivSt d k => exact reg (.arithSt .div false d k false) fun _ => rfl
  | fdivp k => exact reg (.arithSt .div false true k true) fun _ => rfl
  | fdivrSt d k => exact reg (.arithSt .div true d k false) fun _ => rfl
  | fdivrp k => exact reg (.arithSt .div true true k true) fun _ => rfl
  | fsqrt => exact reg (.unary _) fun _ => rfl
  | fscale => exact reg .scaleOp fun _ => rfl
  | fprem => exact reg (.premOp false) fun _ => rfl
  | fprem1 => exact reg (.premOp true) fun _ => rfl
  | frndint => exact reg (.unary _) fun _ => rfl
  | fxtract => exact reg .extractOp fun _ => rfl
  | fabs => exact reg (.signOp tAbs) fun _ => rfl
  | fchs => exact reg (.signOp tNeg) fun _ => rfl
  | fptan => exact reg .tanOp fun _ => rfl
  | fpatan => exact reg (.binaryOp atanRes) fun _ => rfl
  | fsin => exact reg (.trigOp .sin _) fun _ => rfl
  | fcos => exact reg (.trigOp .cos _) fun _ => rfl
  | fsincos => exact reg .sincosOp fun _ => rfl
  | f2xm1 => exact reg .exp2Op fun _ => rfl
  | fyl2x => exact reg (.binaryOp yl2xRes) fun _ => rfl
  | fyl2xp1 => exact reg (.binaryOp yl2xp1Res) fun _ => rfl
  | fincstp => exact stack (.bind (.updFpu _) fun _ => .setCodes _) fun _ => rfl
  | fdecstp => exact stack (.bind (.updFpu _) fun _ => .setCodes _) fun _ => rfl
  | ffree k => exact stack (.bind (.updFpu _) fun _ => .setCodes _) fun _ => rfl
  | fnop => exact stack (.pure ()) fun _ => rfl
  | _ => cases row

/-- Every instruction that reads a number from memory is one with a memory operand, whose computation ends where the
number can be read. -/
theorem exec_npxSource {i : Instr} {o : MemOp} {n al : Nat} (row : Instr.npxSource i = some (o, n, al)) :
    ∃ m : M Unit, (∀ s, exec i s = npxMem i o n al false m s) ∧
      ∀ s : State, s.npxReaches o n false al = true → TotalAt m s := by
  cases i with
  | fldMem | fild | fildM64 => cases row; exact ⟨_, fun _ => rfl, fun _ reach => .loadNum reach⟩
  | fldM80 => cases row; exact ⟨_, fun _ => rfl, fun _ reach => .loadTemp reach⟩
  | fbld => cases row; exact ⟨_, fun _ => rfl, fun _ reach => .loadBcd reach⟩
  | fcomMem | fcompMem | ficom | ficomp => cases row; exact ⟨_, fun _ => rfl, fun _ reach => .compareNum _ reach⟩
  | faddMem | fsubMem | fsubrMem | fmulMem | fdivMem | fdivrMem | fiadd | fisub | fisubr | fimul | fidiv | fidivr =>
    cases row; exact ⟨_, fun _ => rfl, fun _ reach => .arithNum _ _ reach⟩
  | _ => cases row

/-- Every instruction that stores a number is one with a memory operand. -/
theorem exec_npxDest {i : Instr} {o : MemOp} {n al : Nat} (row : Instr.npxDest i = some (o, n, al)) :
    ∃ m : M Unit, ∀ s, exec i s = npxMem i o n al true m s := by
  cases i with
  | fstMem | fstpMem | fist | fistp | fistpM64 | fstpM80 | fbstp => cases row; exact ⟨_, fun _ => rfl⟩
  | _ => cases row

end Sys2Proof.Machine
end

section
/-! When a coprocessor instruction is not executed (R423, R424, R552, R641, R642). -/

namespace Sys2Proof.Machine

variable {s : State}

/-- An exception without error code that is raised before anything outside the coprocessor changed is taken from the
unchanged state (R601, R606). -/
theorem complete_trap {m : M Unit} {f : Fpu} {v : BitVec 8} (raised : m s = .error (.exc ⟨v, none⟩) (s.setFpu f)) :
    complete m s = deliver (excEvent ⟨v, none⟩ s.eip) s :=
  (complete_exc raised).trans rfl

/-- With EM or TS there is no coprocessor to speak of: `#NM` (R424, R642). -/
theorem complete_whenFitted_trap {noNpx m : M Unit} (gate : (s.sys.cr0.em || s.sys.cr0.ts) = true) :
    complete (whenFitted noNpx m) s = deliver ⟨7#8, .fault, s.eip, none⟩ s :=
  complete_trap (f := s.fpu) (whenFitted_trap gate)

/-- A pending error that is reported by exception 16 (R641). -/
theorem npxPending_error (native : s.nativeErrors = true) (error : s.fpu.status.es = true) :
    npxPending s = .error (.exc ⟨16#8, none⟩) s := by
  simp only [npxPending, M.bind_run, getS_run, native, error]
  rfl

/-- An instruction that stands behind the check of R641: the check comes after the operand's (R424), and nothing but the
pointers is changed before it. -/
theorem complete_whenFitted_error {noNpx m : M Unit} {f : Fpu} (gate : (s.sys.cr0.em || s.sys.cr0.ts) = false)
    (fitted : s.cfg.npx ≠ .absent) (raised : m s = .error (.exc ⟨16#8, none⟩) (s.setFpu f)) :
    complete (whenFitted noNpx m) s = deliver ⟨16#8, .fault, s.eip, none⟩ s :=
  complete_trap ((whenFitted_there gate fitted).trans raised)

/-- An encoding that no row assigns is `#UD` on the 80486 (R552). -/
theorem esc_trap {ttt lll : BitVec 3} {rm : RM} (unit : s.cfg.npx = .integrated) :
    exec (.esc ttt lll rm) s = deliver ⟨6#8, .fault, s.eip, none⟩ s := by
  refine complete_trap (f := s.fpu) ?_
  rw [if_pos unit]
  rfl

/-- Settles O48: every coprocessor instruction starts with the test of EM and TS, and the waiting ones go on with that of
a pending error. -/
theorem npxTraps : Obligations.NpxTraps := by
  intro s i m ttt lll rm nm mf ud e ad
  refine ⟨fun off row => ?_, fun mp ts => ?_, fun native error em ts fitted => ?_, fun unit => ?_,
    fun unit enters => ?_⟩
  · have gate : (s.sys.cr0.em || s.sys.cr0.ts) = true := Bool.or_eq_true_iff.mpr off
    have trap {noNpx m : M Unit} : complete (whenFitted noNpx m) s = nm := complete_whenFitted_trap gate
    obtain stack | source | dest | control := row
    · obtain ⟨b, -, same | same⟩ := exec_npxStackOp stack
      · exact (same s).trans trap
      · exact (same s).trans trap
    · obtain ⟨⟨o, n, al⟩, row⟩ := Option.isSome_iff_exists.mp source
      obtain ⟨b, same, -⟩ := exec_npxSource row
      exact (same s).trans trap
    · obtain ⟨⟨o, n, al⟩, row⟩ := Option.isSome_iff_exists.mp dest
      obtain ⟨b, same⟩ := exec_npxDest row
      exact (same s).trans trap
    · simp only [List.mem_cons, List.not_mem_nil, or_false] at control
      obtain rfl | rfl | rfl | rfl | rfl | rfl | rfl | rfl | rfl | rfl | rfl := control <;> exact trap
  · refine complete_trap (f := s.fpu) ?_
    rw [mp, ts]
    rfl
  · have gate : (s.sys.cr0.em || s.sys.cr0.ts) = false := by rw [em, ts]; rfl
    have raised (i : Instr) (o : Option MemOp) : npxPending (s.npxAt i o) = .error (.exc ⟨16#8, none⟩) (s.npxAt i o) :=
      npxPending_error (s := s.npxAt i o) native error
    have onRegisters {i : Instr} {b : M Unit} : npxReg i b s = mf ∧ npxStack i b s = mf := by
      constructor <;> refine complete_whenFitted_error gate fitted (f := (s.npxAt i none).fpu) ?_ <;>
        simp only [M.bind_run, npxRecord_run, raised] <;> rfl
    have onMemory {i : Instr} {n al : Nat} {write : Bool} {b : M Unit} (reach : s.npxReaches m n write al = true) :
        npxMem i m n al write b s = mf := by
      refine complete_whenFitted_error gate fitted (f := (s.npxAt i (some m)).fpu) ?_
      simp only [M.bind_run, npxProbe_ok reach, npxRecord_run, raised]
      rfl
    have onControl {n al : Nat} {b : M Unit} (reach : s.npxReaches m n false al = true) :
        npxCtlMem true m n al false b s = mf := by
      refine complete_whenFitted_error gate fitted (f := s.fpu) ?_
      simp only [M.bind_run, npxProbe_ok reach, if_true, npxPending_error native error]
      rfl
    refine ⟨fun row => ?_, fun n al row reach => ?_, fun n al row reach => ?_, onControl, onControl, onControl⟩
    · obtain stack | rfl := row
      · obtain ⟨b, -, same | same⟩ := exec_npxStackOp stack
        · exact (same s).trans onRegisters.1
        · exact (same s).trans onRegisters.2
      · refine complete_trap (f := s.fpu) ?_
        rw [ts, Bool.and_false]
        exact npxPending_error native error
    · obtain ⟨b, same, -⟩ := exec_npxSource row
      exact (same s).trans (onMemory reach)
    · obtain ⟨b, same⟩ := exec_npxDest row
      exact (same s).trans (onMemory reach)
  · exact esc_trap unit
  · exact (esc_trap unit).trans (deliver_real enters)

end Sys2Proof.Machine
end

section
/-! Condition codes, exceptions and results (R476, R477, R479): what an operation delivers, what an invalid one and a stack
fault leave, and how an instruction ends from there. -/

namespace Sys2Proof.Machine

/-! Condition codes (R479). -/

/-- What an instruction makes of one condition code. -/
def Code.Fits (c : Code) (old new : Bool) : Prop :=
  match c with
  | .keep => new = old
  | .val b => new = b
  | .undef => True

/-- A status word with the four condition codes as given, and else the same. -/
structure FpuStatus.Coded (t : FpuStatus) (c : Codes) (u : FpuStatus) : Prop where
  ie : t.ie = u.ie
  de : t.de = u.de
  ze : t.ze = u.ze
  oe : t.oe = u.oe
  ue : t.ue = u.ue
  pe : t.pe = u.pe
  sf : t.sf = u.sf
  es : t.es = u.es
  top : t.top = u.top
  c3 : c.c3.Fits u.c3 t.c3
  c2 : c.c2.Fits u.c2 t.c2
  c1 : c.c1.Fits u.c1 t.c1
  c0 : c.c0.Fits u.c0 t.c0

/-- The coprocessor with another status word. -/
def Fpu.withStatus (f : Fpu) (t : FpuStatus) : Fpu := { f with status := t }

@[simp] theorem Fpu.withStatus_status (f : Fpu) (t : FpuStatus) : (f.withStatus t).status = t := rfl
@[simp] theorem Fpu.withStatus_cw (f : Fpu) (t : FpuStatus) : (f.withStatus t).cw = f.cw := rfl
@[simp] theorem Fpu.withStatus_regs (f : Fpu) (t : FpuStatus) : (f.withStatus t).regs = f.regs := rfl
@[simp] theorem Fpu.withStatus_tags (f : Fpu) (t : FpuStatus) : (f.withStatus t).tags = f.tags := rfl
@[simp] theorem Fpu.withStatus_withStatus (f : Fpu) (t u : FpuStatus) :
    (f.withStatus t).withStatus u = f.withStatus u := rfl

variable {s : State}

theorem updStatus_run (g : FpuStatus → FpuStatus) (s : State) :
    updStatus g s = .ok () (s.npx (s.fpu.withStatus (g s.fpu.status)) s.draws) := rfl

theorem codeNext_run (c : Code) (old : Bool) (s : State) :
    ∃ b d, c.Fits old b ∧ c.next old s = .ok b (s.setDraws d) := by
  cases c with
  | keep => exact ⟨old, s.draws, rfl, rfl⟩
  | val b => exact ⟨b, s.draws, rfl, rfl⟩
  | undef => exact ⟨_, _, trivial, rfl⟩

/-- The condition codes are set, and nothing else but draws is changed. -/
theorem setCodes_run (c : Codes) (s : State) : ∃ t d, t.Coded c s.fpu.status ∧
    setCodes c s = .ok () (s.npx (s.fpu.withStatus t) d) := by
  obtain ⟨b3, d3, f3, e3⟩ := codeNext_run c.c3 s.fpu.status.c3 s
  obtain ⟨b2, d2, f2, e2⟩ := codeNext_run c.c2 s.fpu.status.c2 (s.setDraws d3)
  obtain ⟨b1, d1, f1, e1⟩ := codeNext_run c.c1 s.fpu.status.c1 (s.setDraws d2)
  obtain ⟨b0, d0, f0, e0⟩ := codeNext_run c.c0 s.fpu.status.c0 (s.setDraws d1)
  refine ⟨{ s.fpu.status with c3 := b3, c2 := b2, c1 := b1, c0 := b0 }, d0,
    ⟨rfl, rfl, rfl, rfl, rfl, rfl, rfl, rfl, rfl, f3, f2, f1, f0⟩, ?_⟩
  simp only [setCodes, M.bind_run, getS_run, e3, State.setDraws_setDraws, e2, e1, e0, updStatus_run]
  rfl

section

variable {α : Type} {Q : α → State → Prop} {p : Fpu} {u : FpuStatus} {d : Nat}

/-- What follows the setting of the codes. -/
theorem Ends.codes {m : Unit → M α} (c : Codes) (h : ∀ t e, t.Coded c u → Ends (m ()) (s.npx (p.withStatus t) e) Q) :
    Ends (setCodes c >>= m) (s.npx (p.withStatus u) d) Q := by
  obtain ⟨t, e, coded, run⟩ := setCodes_run c (s.npx (p.withStatus u) d)
  exact .after run (h t e coded)

/-- What follows a change of the status word. -/
theorem Ends.status {m : Unit → M α} {g : FpuStatus → FpuStatus} (h : Ends (m ()) (s.npx (p.withStatus (g u)) d) Q) :
    Ends (updStatus g >>= m) (s.npx (p.withStatus u) d) Q := .after (updStatus_run g _) h

/-- What follows a draw. -/
theorem Ends.bit {m : Bool → M α} (h : ∀ b e, Ends (m b) (s.npx p e) Q) : Ends (drawBit >>= m) (s.npx p d) Q :=
  .after (drawBit_run _) (h _ _)

theorem Ends.temp {m : Temp → M α} (h : ∀ v e, Ends (m v) (s.npx p e) Q) : Ends (drawTemp >>= m) (s.npx p d) Q :=
  .after (drawTemp_run _) (h _ _)

end

/-! Exceptions and their masked responses (R476, R477). -/

/-- The status word with DE where an operand is a denormal. -/
def FpuStatus.withDe (t : FpuStatus) (den : Bool) : FpuStatus := { t with de := t.de || den }

/-- A denormal operand does not stop the instruction (R477). -/
def State.calm (s : State) (den : Bool) : Bool := !den || s.npxMask 1

theorem denormalCheck_run (den : Bool) (s : State) : denormalCheck den s =
    .ok (s.calm den) (s.npx (s.fpu.withStatus (s.fpu.status.withDe den)) s.draws) := by
  cases den
  · simp only [denormalCheck, M.bind_run, getS_run, FpuStatus.withDe, Bool.or_false]
    rfl
  · simp only [denormalCheck, M.bind_run, getS_run, FpuStatus.withDe, Bool.or_true]
    rfl

/-- What follows the detection of a denormal operand. -/
theorem Ends.denormal {α : Type} {Q : α → State → Prop} {p : Fpu} {u : FpuStatus} {d : Nat} {m : Bool → M α}
    {den : Bool}
    (h : Ends (m ((s.npx p d).calm den)) (s.npx (p.withStatus (u.withDe den)) d) Q) :
    Ends (denormalCheck den >>= m) (s.npx (p.withStatus u) d) Q := .after (denormalCheck_run den _) h

/-- What follows an invalid operation: the masked response, or nothing but what was raised. -/
theorem Ends.afterInvalid {Q : Unit → State → Prop} {den : Bool} {masked : M Unit}
    (goes : s.npxMask 0 = true → s.calm den = true →
      Ends masked (s.npx (s.fpu.withStatus (s.fpu.status.withDe den)) s.draws) Q)
    (stops : s.npxMask 0 = false → Q () s)
    (stopsDen : s.npxMask 0 = true → s.calm den = false →
      Q () (s.npx (s.fpu.withStatus (s.fpu.status.withDe den)) s.draws)) : Ends (afterInvalid den masked) s Q := by
  cases mask : s.npxMask 0
  · exact .of_run (by simp only [Machine.afterInvalid, M.bind_run, getS_run, mask]; rfl) (stops mask)
  · cases calm : s.calm den
    · refine .of_run ?_ (stopsDen mask calm)
      simp only [Machine.afterInvalid, M.bind_run, getS_run, mask, if_true, denormalCheck_run, calm]
      rfl
    · refine (goes mask calm).congr ?_
      simp only [Machine.afterInvalid, M.bind_run, getS_run, mask, if_true, denormalCheck_run, calm]

/-- DE beside other exceptions. -/
theorem FpuStatus.Coded.withDe {t u : FpuStatus} {c : Codes} (h : t.Coded c u) (den : Bool) :
    (t.withDe den).Coded c (u.withDe den) := { h with de := congrArg (· || den) h.de }

/-- Codes, then what follows an invalid operation. -/
theorem Ends.codesAfterInvalid {Q : Unit → State → Prop} {den : Bool} {masked : M Unit} (c : Codes)
    (goes : s.npxMask 0 = true → s.calm den = true → ∀ t d, t.Coded c (s.fpu.status.withDe den) →
      Ends masked (s.npx (s.fpu.withStatus t) d) Q)
    (stops : s.npxMask 0 = false → ∀ t d, t.Coded c s.fpu.status → Q () (s.npx (s.fpu.withStatus t) d))
    (stopsDen : s.npxMask 0 = true → s.calm den = false → ∀ t d, t.Coded c (s.fpu.status.withDe den) →
      Q () (s.npx (s.fpu.withStatus t) d)) :
    Ends (do setCodes c; Machine.afterInvalid den masked) s Q :=
  .codes (p := s.fpu) (u := s.fpu.status) (d := s.draws) c fun _ d coded =>
    .afterInvalid (fun mask calm => goes mask calm _ d (coded.withDe den))
      (fun mask => stops mask _ d coded) (fun mask calm => stopsDen mask calm _ d (coded.withDe den))

/-- The status word with IE. -/
def FpuStatus.withIe (u : FpuStatus) : FpuStatus := { u with ie := true }

/-- The status word with a stack fault (R476). -/
def FpuStatus.faulted (u : FpuStatus) (n287 : Bool) : FpuStatus := { u with ie := true, sf := u.sf || !n287 }

/-- An invalid operation (R476, R477). -/
theorem Ends.invalidOp {Q : Unit → State → Prop} {den : Bool} {masked : M Unit}
    (goes : s.npxMask 0 = true → s.calm den = true → ∀ t d, t.Coded noCodes (s.fpu.status.withIe.withDe den) →
      Ends masked (s.npx (s.fpu.withStatus t) d) Q)
    (stops : s.npxMask 0 = false → ∀ t d, t.Coded noCodes s.fpu.status.withIe →
      Q () (s.npx (s.fpu.withStatus t) d))
    (stopsDen : s.npxMask 0 = true → s.calm den = false → ∀ t d,
      t.Coded noCodes (s.fpu.status.withIe.withDe den) → Q () (s.npx (s.fpu.withStatus t) d)) :
    Ends (invalidOp den masked) s Q :=
  .after (updStatus_run _ s) (.codesAfterInvalid noCodes goes stops stopsDen)

/-- A stack fault, of whose other operand no denormal stops the instruction (R476). -/
theorem Ends.fault {Q : Unit → State → Prop} {c1 : Code} {den : Bool} {masked : M Unit} (calm : s.calm den = true)
    (goes : s.npxMask 0 = true → ∀ t d,
      t.Coded { noCodes with c1 := c1 } ((s.fpu.status.faulted s.n287).withDe den) →
      Ends masked (s.npx (s.fpu.withStatus t) d) Q)
    (stops : s.npxMask 0 = false → ∀ t d, t.Coded { noCodes with c1 := c1 } (s.fpu.status.faulted s.n287) →
      Q () (s.npx (s.fpu.withStatus t) d)) :
    Ends (do stackFault c1 noCodes; Machine.afterInvalid den masked) s Q := by
  have first : Ends (do setCodes { noCodes with c1 := c1 }; Machine.afterInvalid den masked)
      (s.npx (s.fpu.withStatus (s.fpu.status.faulted s.n287)) s.draws) Q :=
    .codesAfterInvalid _ (fun mask _ => goes mask) stops
      fun _ agitated => absurd (calm.symm.trans agitated) Bool.noConfusion
  refine first.congr ?_
  simp only [stackFault, M.bind_run, getS_run, updStatus_run]
  rfl

/-! Delivering a result (R477). -/

/-- The value that a result puts in its destination; any where the result leaves it free. -/
def Res.Gives : Res → Temp → Prop
  | .invalid w, v => v = w
  | .zeroDivide w, v => v = w
  | .value w _ _ _ _, v => v = w
  | .unstated _ _ _ _, _ => True
  | .preStandard, _ => True

/-- What a result that is delivered leaves in the status word. -/
structure Res.Reported (r : Res) (c : Code → Codes) (u t : FpuStatus) : Prop where
  invalid : r.isInvalid = true → t.ie = true
  zeroDivide : ∀ v, r = .zeroDivide v → t.ze = true
  code2 : ∀ v oe ue pe up, r = .value v oe ue pe up → ∃ c1, (c c1).c2.Fits u.c2 t.c2

/-- No exception of a result keeps it from its destination. -/
def State.delivers (s : State) (den : Bool) (r : Res) : Bool :=
  s.calm den &&
  match r with
  | .invalid _ => s.npxMask 0
  | .zeroDivide _ => s.npxMask 2
  | .value _ _ _ _ _ => true
  | .unstated _ _ _ _ => true
  | .preStandard => s.npxMask 0 && s.npxMask 1 && s.npxMask 2

/-- With all exceptions masked every result is delivered. -/
theorem State.delivers_of_masked (masked : ∀ j < 6, s.npxMask j = true) (den : Bool) (r : Res) :
    s.delivers den r = true := by
  have calm : s.calm den = true := by simp [State.calm, masked 1 (by decide)]
  unfold State.delivers
  rw [calm]
  cases r <;> simp [masked 0 (by decide), masked 1 (by decide), masked 2 (by decide)]

section

variable {Q : Unit → State → Prop} {den : Bool} {put : Temp → M Unit} {c : Code → Codes}

theorem Ends.valueOp {v : M Temp} {G : Temp → Prop} (oe ue pe up : Bool) (calm : s.calm den = true)
    (gives : ∀ (f : Fpu) (d : Nat), ∃ x e, G x ∧ v (s.npx f d) = .ok x (s.npx f e))
    (h : ∀ x t d, G x → t.top = s.fpu.status.top → (∃ c1, (c c1).c2.Fits s.fpu.status.c2 t.c2) →
      Ends (put x) (s.npx (s.fpu.withStatus t) d) Q) : Ends (valueOp den v oe ue pe up c put) s Q := by
  refine .denormal (s := s) (p := s.fpu) (u := s.fpu.status) (d := s.draws) ?_
  rw [if_pos (show (s.npx s.fpu _).calm den = true from calm)]
  obtain ⟨x, d, g, run⟩ := gives (s.fpu.withStatus (s.fpu.status.withDe den)) s.draws
  refine .after (getS_run _) (.after run (.status (.codes _ fun t e coded => ?_)))
  exact h x t e g coded.top ⟨_, coded.c2⟩

/-- An invalid operation with its response. -/
theorem Ends.invalidOp_masked {masked : M Unit} (mask : s.npxMask 0 = true) (calm : s.calm den = true)
    (h : ∀ t d, t.top = s.fpu.status.top → t.ie = true → Ends masked (s.npx (s.fpu.withStatus t) d) Q) :
    Ends (Machine.invalidOp den masked) s Q :=
  .invalidOp (fun _ _ t d coded => h t d coded.top coded.ie)
    (fun unmasked => absurd (mask.symm.trans unmasked) Bool.noConfusion)
    (fun _ agitated => absurd (calm.symm.trans agitated) Bool.noConfusion)

/-- A zero-divide with its response. -/
theorem Ends.zeroDivideOp_masked {masked : M Unit} (mask : s.npxMask 2 = true) (calm : s.calm den = true)
    (h : ∀ t d, t.top = s.fpu.status.top → t.ze = true → Ends masked (s.npx (s.fpu.withStatus t) d) Q) :
    Ends (zeroDivideOp den masked) s Q := by
  refine .after (getS_run s) ?_
  refine .status (s := s) (p := s.fpu) (u := s.fpu.status) (d := s.draws) (.codes _ fun t d coded => ?_)
  rw [if_pos mask]
  refine .denormal ?_
  rw [if_pos (show (s.npx s.fpu d).calm den = true from calm)]
  exact h _ d coded.top coded.ze

theorem drawTemp_gives (f : Fpu) (d : Nat) : ∃ x e, True ∧ drawTemp (s.npx f d) = .ok x (s.npx f e) :=
  ⟨_, _, trivial, rfl⟩

/-- A result of a pre-standard operand with its exceptions masked (R474, log entry 52). -/
theorem Ends.preStandardOp_masked (invalid : s.npxMask 0 = true) (denormal : s.npxMask 1 = true)
    (zero : s.npxMask 2 = true)
    (h : ∀ x t d, t.top = s.fpu.status.top → Ends (put x) (s.npx (s.fpu.withStatus t) d) Q) :
    Ends (preStandardOp c put) s Q := by
  have calm (den : Bool) : s.calm den = true := by simp [State.calm, denormal]
  have drawn (t : FpuStatus) (d : Nat) (top : t.top = s.fpu.status.top) :
      Ends (do let v ← drawTemp; put v) (s.npx (s.fpu.withStatus t) d) Q := .temp fun x e => h x t e top
  refine .bit (s := s) (p := s.fpu) (d := s.draws) fun ie d1 => .bit fun de d2 => ?_
  split
  · exact .invalidOp_masked (s := s.npx s.fpu d2) invalid (calm _) fun t d top _ => drawn t d top
  · refine .bit fun ze d3 => ?_
    split
    · exact .zeroDivideOp_masked (s := s.npx s.fpu d3) zero (calm _) fun t d top _ => drawn t d top
    · refine .bit fun oe d4 => .bit fun ue d5 => .bit fun pe d6 => ?_
      exact .valueOp (s := s.npx s.fpu d6) _ _ _ _ (calm _) drawTemp_gives fun x t d _ top _ => h x t d top

/-- A result that is delivered: its value is put in the destination behind the exceptions it reports. -/
theorem Ends.deliverRes {r : Res} (ok : s.delivers den r = true)
    (h : ∀ v t d, r.Gives v → t.top = s.fpu.status.top → r.Reported c s.fpu.status t →
      Ends (put v) (s.npx (s.fpu.withStatus t) d) Q) :
    Ends (deliverRes den r c put) s Q := by
  obtain ⟨calm, mask⟩ := Bool.and_eq_true_iff.mp ok
  cases r with
  | invalid v =>
    exact .invalidOp_masked mask calm fun t d top ie => h v t d rfl top ⟨fun _ => ie, nofun, nofun⟩
  | zeroDivide v =>
    exact .zeroDivideOp_masked mask calm fun t d top ze => h v t d rfl top ⟨nofun, fun _ _ => ze, nofun⟩
  | value v oe ue pe up =>
    exact .valueOp _ _ _ _ calm (G := (· = v)) (fun _ d => ⟨v, d, rfl, rfl⟩) fun x t d is top code =>
      h x t d is top ⟨nofun, nofun, fun _ _ _ _ _ _ => code⟩
  | unstated oe ue pe up =>
    exact .valueOp _ _ _ _ calm drawTemp_gives fun x t d _ top code =>
      h x t d trivial top ⟨nofun, nofun, fun _ _ _ _ _ _ => code⟩
  | preStandard =>
    simp only [Bool.and_eq_true] at mask
    obtain ⟨⟨invalid, denormal⟩, zero⟩ := mask
    exact .preStandardOp_masked invalid denormal zero fun x t d top => h x t d trivial top ⟨nofun, nofun, nofun⟩

/-- A result delivered by a change of the coprocessor. -/
theorem Becomes.deliverRes {r : Res} {g : Temp → Fpu → Fpu} (ok : s.delivers den r = true)
    (puts : ∀ v, put v = updFpu (g v)) : Becomes (Machine.deliverRes den r c put) s
      fun f => ∃ v t, r.Gives v ∧ t.top = s.fpu.status.top ∧ r.Reported c s.fpu.status t ∧
        f = g v (s.fpu.withStatus t) :=
  Ends.deliverRes ok fun v t d gives top reported => by
    rw [puts]
    exact .of_run rfl ⟨_, d, rfl, v, t, gives, top, reported, rfl⟩

end

end Sys2Proof.Machine
end

section
/-! How an instruction of the register stack ends: with a result put in its place, or with a stack fault (R476, R477). -/

namespace Sys2Proof.Machine

variable {s : State} {i : Instr}

/-! The stack after a result is put in its place. -/

/-- A value put in ST(j), with a pop if the instruction pops. -/
def Fpu.put (f : Fpu) (j : BitVec 3) (pops : Bool) (v : Temp) : Fpu := if pops then (f.setSt j v).pop else f.setSt j v

theorem putSt_eq (j : BitVec 3) (pops : Bool) (v : Temp) : putSt j pops v = updFpu (fun f => f.put j pops v) := rfl

section

variable (f : Fpu) (j : BitVec 3) (pops : Bool) (v w : Temp)

@[simp] theorem Fpu.put_cw : (f.put j pops v).cw = f.cw := by cases pops <;> rfl

@[simp] theorem Fpu.put_regs : (f.put j pops v).regs = f.regs.set (f.status.top + j) v := by cases pops <;> rfl

@[simp] theorem Fpu.put_tags : (f.put j pops v).tags =
    if pops then (f.tags.set (f.status.top + j) (tTag v)).set f.status.top .empty
    else f.tags.set (f.status.top + j) (tTag v) := by
  cases pops
  · rfl
  · show (f.tags.set (f.status.top + j) (tTag v)).set (f.status.top + 0#3) .empty = _
    rw [BitVec.add_zero]
    rfl

@[simp] theorem Fpu.put_status : (f.put j pops v).status =
    { f.status with top := if pops then f.status.top + 1#3 else f.status.top } := by cases pops <;> rfl

/-- The register below TOP. -/
theorem below_top (t : BitVec 3) : t + 7#3 + 0#3 = t - 1#3 := by
  revert t; decide

@[simp] theorem Fpu.pushRaw_cw : (f.pushRaw v).cw = f.cw := rfl

@[simp] theorem Fpu.pushRaw_regs : (f.pushRaw v).regs = f.regs.set (f.status.top - 1#3) v := by
  rw [← below_top]; rfl

@[simp] theorem Fpu.pushRaw_tags : (f.pushRaw v).tags = f.tags.set (f.status.top - 1#3) (tTag v) := by
  rw [← below_top]; rfl

@[simp] theorem Fpu.pushRaw_status : (f.pushRaw v).status = { f.status with top := f.status.top - 1#3 } := by
  rw [← below_top, BitVec.add_zero]; rfl

/-- A result in ST(0) and another one pushed on it. -/
def Fpu.putPair (f : Fpu) (v w : Temp) : Fpu := (f.put 0#3 false v).pushRaw w

end

/-! The end of an instruction. -/

/-- The instruction completes with the coprocessor as given, ES settled. -/
def State.Leaves (s : State) (i : Instr) (f : Fpu) : Prop :=
  ∃ (l : NpxLink) (d : Nat), exec i s = .next (s.npxDone f.settled l d)

/-- The instruction completes with these registers, TOP and tags, and with a status word of which `c` holds. -/
def State.EndsWith (s : State) (i : Instr) (r : Oct Temp) (t : BitVec 3) (g : Oct Tag) (c : FpuStatus → Prop) : Prop :=
  ∃ (f : Fpu) (l : NpxLink) (d : Nat), exec i s = .next (s.npxDone f l d) ∧ f.cw = s.fpu.cw ∧ f.regs = r ∧
    f.status.top = t ∧ f.tags = g ∧ c f.status

section

variable {r : Oct Temp} {t : BitVec 3} {g : Oct Tag} {c c' : FpuStatus → Prop}

theorem State.EndsWith.mono (h : s.EndsWith i r t g c) (weaker : ∀ u, c u → c' u) : s.EndsWith i r t g c' := by
  obtain ⟨f, l, d, run, cw, regs, top, tags, st⟩ := h
  exact ⟨f, l, d, run, cw, regs, top, tags, weaker _ st⟩

theorem State.Leaves.endsWith {f : Fpu} (h : s.Leaves i f) (cw : f.cw = s.fpu.cw) (regs : f.regs = r)
    (top : f.status.top = t) (tags : f.tags = g) (st : c f.settled.status) : s.EndsWith i r t g c := by
  obtain ⟨l, d, run⟩ := h
  exact ⟨f.settled, l, d, run, cw, regs, top, tags, st⟩

end

/-- Nothing of the stack changes. -/
def State.Unchanged (s : State) (i : Instr) (c : FpuStatus → Prop) : Prop :=
  s.EndsWith i s.fpu.regs s.fpu.status.top s.fpu.tags c

/-- ST(0) is replaced. -/
def State.Replaces (s : State) (i : Instr) (v : Temp) (c : FpuStatus → Prop) : Prop :=
  s.EndsWith i (s.fpu.regs.set s.fpu.status.top v) s.fpu.status.top (s.fpu.tags.set s.fpu.status.top (tTag v)) c

/-- ST(0) is replaced and a second value pushed on it. -/
def State.Pushes (s : State) (i : Instr) (v w : Temp) (c : FpuStatus → Prop) : Prop :=
  s.EndsWith i ((s.fpu.regs.set s.fpu.status.top v).set (s.fpu.status.top - 1#3) w) (s.fpu.status.top - 1#3)
    ((s.fpu.tags.set s.fpu.status.top (tTag v)).set (s.fpu.status.top - 1#3) (tTag w)) c

/-- ST(1) is replaced and ST(0) popped. -/
def State.Pops (s : State) (i : Instr) (v : Temp) (c : FpuStatus → Prop) : Prop :=
  s.EndsWith i (s.fpu.regs.set (s.fpu.status.top + 1#3) v) (s.fpu.status.top + 1#3)
    ((s.fpu.tags.set (s.fpu.status.top + 1#3) (tTag v)).set s.fpu.status.top .empty) c

/-- A value is pushed. -/
def State.PushesOne (s : State) (i : Instr) (v : Temp) (c : FpuStatus → Prop) : Prop :=
  s.EndsWith i (s.fpu.regs.set (s.fpu.status.top - 1#3) v) (s.fpu.status.top - 1#3)
    (s.fpu.tags.set (s.fpu.status.top - 1#3) (tTag v)) c

/-- What a computation of the coprocessor reaches, the instruction leaves. -/
def State.Runs (s : State) (i : Instr) (o : Option MemOp) (m : M Unit) : Prop :=
  ∀ P, Becomes m (s.npxAt i o) P → ∃ f, s.Leaves i f ∧ P f

theorem State.Runs.reg {m : M Unit} (ready : s.npxReady = true) (row : exec i s = npxReg i m s) : s.Runs i none m :=
  fun _ h => by
    obtain ⟨f, l, d, run, p⟩ := npxReg_becomes ready h
    exact ⟨f, ⟨l, d, row.trans run⟩, p⟩

theorem State.Runs.mem {m : M Unit} {o : MemOp} {n al : Nat} {write : Bool} (ready : s.npxReady = true)
    (reach : s.npxReaches o n write al = true) (row : exec i s = npxMem i o n al write m s) : s.Runs i (some o) m :=
  fun _ h => by
    obtain ⟨f, l, d, run, p⟩ := npxMem_becomes ready reach h
    exact ⟨f, ⟨l, d, row.trans run⟩, p⟩

section

variable {o : Option MemOp} {m : M Unit}

@[simp] theorem State.npxAt_cw : (s.npxAt i o).fpu.cw = s.fpu.cw := rfl
@[simp] theorem State.npxAt_regs : (s.npxAt i o).fpu.regs = s.fpu.regs := rfl
@[simp] theorem State.npxAt_tags : (s.npxAt i o).fpu.tags = s.fpu.tags := rfl
@[simp] theorem State.npxAt_status : (s.npxAt i o).fpu.status = s.fpu.status := rfl
@[simp] theorem State.npxAt_n287 : (s.npxAt i o).n287 = s.n287 := rfl
@[simp] theorem State.npxAt_isEmpty (j : BitVec 3) : (s.npxAt i o).fpu.isEmpty j = s.fpu.isEmpty j := rfl
@[simp] theorem State.npxAt_st (j : BitVec 3) : (s.npxAt i o).fpu.st j = s.fpu.st j := rfl

/-! A result. -/

section

variable {r : Res} {den : Bool} {c : Code → Codes}

theorem Res.Reported.settled {u t : FpuStatus} (h : r.Reported c u t) (es : Bool) (top : BitVec 3) :
    r.Reported c u { t with es := es, top := top } := ⟨h.invalid, h.zeroDivide, h.code2⟩

theorem State.Runs.deliverRes {put : Temp → M Unit} {g : Temp → Fpu → Fpu} (runs : s.Runs i o m)
    (run : m (s.npxAt i o) = Machine.deliverRes den r c put (s.npxAt i o)) (ok : s.delivers den r = true)
    (puts : ∀ v, put v = updFpu (g v)) :
    ∃ v t, r.Gives v ∧ t.top = s.fpu.status.top ∧ r.Reported c s.fpu.status t ∧
      s.Leaves i (g v ((s.npxAt i o).fpu.withStatus t)) := by
  obtain ⟨_, leaves, v, t, gives, top, reported, rfl⟩ :=
    runs _ (Ends.congr (Becomes.deliverRes (s := s.npxAt i o) (c := c) ok puts) run)
  exact ⟨v, t, gives, top, reported, leaves⟩

/-- A result that is delivered to ST(0). -/
theorem State.Runs.replaces (runs : s.Runs i o m)
    (run : m (s.npxAt i o) = Machine.deliverRes den r c (putSt 0#3 false) (s.npxAt i o))
    (ok : s.delivers den r = true) : ∃ v, r.Gives v ∧ s.Replaces i v (r.Reported c s.fpu.status) := by
  obtain ⟨v, t, gives, top, reported, leaves⟩ := runs.deliverRes run ok (putSt_eq 0#3 false)
  refine ⟨v, gives, leaves.endsWith (by simp) (by simp [top]) (by simp [top]) (by simp [top]) ?_⟩
  exact reported.settled _ _

/-- A result that is delivered to ST(1), with a pop. -/
theorem State.Runs.pops (runs : s.Runs i o m)
    (run : m (s.npxAt i o) = Machine.deliverRes den r c (putSt 1#3 true) (s.npxAt i o))
    (ok : s.delivers den r = true) : ∃ v, r.Gives v ∧ s.Pops i v (r.Reported c s.fpu.status) := by
  obtain ⟨v, t, gives, top, reported, leaves⟩ := runs.deliverRes run ok (putSt_eq 1#3 true)
  refine ⟨v, gives, leaves.endsWith (by simp) (by simp [top]) (by simp [top]) (by simp [top]) ?_⟩
  exact reported.settled _ _

/-- A result that is delivered to ST(0), and another value pushed on it. -/
theorem State.Runs.pushes {w : Temp → Temp} (runs : s.Runs i o m)
    (run : m (s.npxAt i o) =
      Machine.deliverRes den r c (fun v => updFpu (fun f => f.putPair v (w v))) (s.npxAt i o))
    (ok : s.delivers den r = true) : ∃ v, r.Gives v ∧ s.Pushes i v (w v) (r.Reported c s.fpu.status) := by
  obtain ⟨v, t, gives, top, reported, leaves⟩ := runs.deliverRes run ok fun _ => rfl
  refine ⟨v, gives, leaves.endsWith (by simp [Fpu.putPair]) (by simp [Fpu.putPair, top]) (by simp [Fpu.putPair, top])
    (by simp [Fpu.putPair, top]) ?_⟩
  exact reported.settled _ _

end

/-! A stack fault. -/

/-- The status word after a stack fault: IE, SF but on the 80287, C1 but on the 80287, ES if it is not masked (R476). -/
def State.Fault (s : State) (c1 : Bool) (t : FpuStatus) : Prop :=
  t.ie = true ∧ t.sf = (s.fpu.status.sf || !s.n287) ∧ (s.n287 = false → t.c1 = c1) ∧ (s.npxMask 0 = false → t.es = true)

/-- A stack overflow of a push. -/
def State.Overflows (s : State) (i : Instr) : Prop :=
  if s.npxMask 0 then
    s.EndsWith i (s.fpu.regs.set (s.fpu.status.top - 1#3) realIndefinite) (s.fpu.status.top - 1#3)
      (s.fpu.tags.set (s.fpu.status.top - 1#3) .special) (s.Fault true)
  else s.Unchanged i (s.Fault true)

/-- A stack underflow of an instruction with the destination ST(dst). -/
def State.Underflows (s : State) (i : Instr) (dst : BitVec 3) (popped : Bool) : Prop :=
  if s.npxMask 0 then
    s.EndsWith i (s.fpu.regs.set (s.fpu.status.top + dst) realIndefinite)
      (if popped then s.fpu.status.top + 1#3 else s.fpu.status.top)
      (if popped then (s.fpu.tags.set (s.fpu.status.top + dst) .special).set s.fpu.status.top .empty
        else s.fpu.tags.set (s.fpu.status.top + dst) .special) (s.Fault false)
  else s.Unchanged i (s.Fault false)

/-- The status word of a stack fault, with ES settled or a result put in its place. -/
theorem State.fault_of_coded {c1 den : Bool} {t : FpuStatus}
    (coded : t.Coded { noCodes with c1 := s.c1 c1 } ((s.fpu.status.faulted s.n287).withDe den)) {es : Bool}
    (err : s.npxMask 0 = false → es = true) (top : BitVec 3) : s.Fault c1 { t with es := es, top := top } := by
  refine ⟨coded.ie, coded.sf, fun h => ?_, err⟩
  have fits := coded.c1
  rw [State.c1, h] at fits
  exact fits

theorem FpuStatus.Coded.withoutDe {t u : FpuStatus} {c : Codes} (h : t.Coded c u) : t.Coded c (u.withDe false) :=
  { h with de := h.de.trans (Bool.or_false _).symm }

/-- A stack fault, behind draws, whose masked response is a change of the coprocessor: that, or nothing. -/
theorem State.Runs.fault {c1 den : Bool} {masked : M Unit} {h : Fpu → Fpu} {drawn : Nat} (runs : s.Runs i o m)
    (run : m (s.npxAt i o) =
      (do stackFault (s.c1 c1) noCodes; afterInvalid den masked) ((s.npxAt i o).setDraws drawn))
    (calm : s.calm den = true)
    (responds : ∀ f d, masked ((s.npxAt i o).npx f d) = .ok () ((s.npxAt i o).npx (h f) d)) :
    ∃ t, t.Coded { noCodes with c1 := s.c1 c1 } ((s.fpu.status.faulted s.n287).withDe (den && s.npxMask 0)) ∧
      s.Leaves i (if s.npxMask 0 then h ((s.npxAt i o).fpu.withStatus t) else (s.npxAt i o).fpu.withStatus t) := by
  obtain ⟨_, leaves, t, coded, rfl⟩ := runs (fun f => ∃ t,
      t.Coded { noCodes with c1 := s.c1 c1 } ((s.fpu.status.faulted s.n287).withDe (den && s.npxMask 0)) ∧
      f = if s.npxMask 0 then h ((s.npxAt i o).fpu.withStatus t) else (s.npxAt i o).fpu.withStatus t) <| by
    refine Ends.congr (Ends.fault (s := (s.npxAt i o).setDraws drawn) calm (fun mask t d coded => ?_)
      fun mask t d coded => ?_) run
    · refine .of_run (responds _ _) ⟨_, d, rfl, t, ?_, ?_⟩
      · rw [show s.npxMask 0 = true from mask, Bool.and_true]; exact coded
      · rw [if_pos (show s.npxMask 0 = true from mask)]; rfl
    · refine ⟨_, d, rfl, t, ?_, ?_⟩
      · rw [show s.npxMask 0 = false from mask, Bool.and_false]; exact coded.withoutDe
      · rw [if_neg (by rw [show s.npxMask 0 = false from mask]; exact Bool.noConfusion)]; rfl
  exact ⟨t, coded, leaves⟩

/-- An invalid operation that is not masked sets ES. -/
theorem Fpu.unmasked_of_ie {f : Fpu} (ie : f.status.ie = true) (mask : cwMask f.cw 0 = false) : f.unmasked = true := by
  simp [Fpu.unmasked, ie, mask]

/-- A stack fault that is not masked changes nothing of the stack. -/
theorem State.Leaves.unchanged_of_fault {c1 den : Bool} {t : FpuStatus}
    (coded : t.Coded { noCodes with c1 := s.c1 c1 } ((s.fpu.status.faulted s.n287).withDe den))
    (leaves : s.Leaves i ((s.npxAt i o).fpu.withStatus t)) (mask : s.npxMask 0 = false) :
    s.Unchanged i (s.Fault c1) := by
  refine leaves.endsWith rfl rfl coded.top rfl (s.fault_of_coded coded (fun _ => ?_) _)
  rw [Fpu.unmasked_of_ie (f := (s.npxAt i o).fpu.withStatus t) coded.ie mask, Bool.or_true]

/-- The two ends of a stack fault. -/
theorem State.Runs.faults {c1 den : Bool} {masked : M Unit} {h : Fpu → Fpu} {r : Oct Temp} {top : BitVec 3}
    {g : Oct Tag} {drawn : Nat} (runs : s.Runs i o m)
    (run : m (s.npxAt i o) =
      (do stackFault (s.c1 c1) noCodes; afterInvalid den masked) ((s.npxAt i o).setDraws drawn))
    (calm : s.calm den = true)
    (responds : ∀ f d, masked ((s.npxAt i o).npx f d) = .ok () ((s.npxAt i o).npx (h f) d))
    (put : ∀ f : Fpu, f.cw = s.fpu.cw → f.regs = s.fpu.regs → f.status.top = s.fpu.status.top →
      f.tags = s.fpu.tags → (h f).cw = s.fpu.cw ∧ (h f).regs = r ∧ (h f).tags = g ∧
        (h f).status = { f.status with top := top }) :
    if s.npxMask 0 then s.EndsWith i r top g (s.Fault c1) else s.Unchanged i (s.Fault c1) := by
  obtain ⟨t, coded, leaves⟩ := runs.fault run calm responds
  cases mask : s.npxMask 0
  · rw [mask, if_neg Bool.noConfusion] at leaves
    rw [if_neg Bool.noConfusion]
    exact leaves.unchanged_of_fault coded mask
  · rw [mask, if_pos rfl] at leaves
    rw [if_pos rfl]
    obtain ⟨cw, regs, tags, status⟩ := put ((s.npxAt i o).fpu.withStatus t) rfl rfl coded.top rfl
    refine leaves.endsWith cw regs (by rw [status]) tags ?_
    rw [Fpu.settled, status]
    exact s.fault_of_coded coded (fun unmasked => absurd (mask.symm.trans unmasked) Bool.noConfusion) _

/-- The masked response of a stack overflow is the real indefinite, pushed. -/
theorem State.Runs.overflows {den : Bool} {drawn : Nat} (runs : s.Runs i o m)
    (run : m (s.npxAt i o) = (do
      stackFault (s.c1 true) noCodes
      afterInvalid den (updFpu (fun f => f.pushRaw realIndefinite))) ((s.npxAt i o).setDraws drawn))
    (calm : s.calm den = true) : s.Overflows i :=
  runs.faults (h := fun f => f.pushRaw realIndefinite) run calm (fun _ _ => rfl) fun f cw regs top tags => by
    refine ⟨cw, ?_, ?_, ?_⟩
    · rw [Fpu.pushRaw_regs, regs, top]
    · rw [Fpu.pushRaw_tags, tags, top]; rfl
    · rw [Fpu.pushRaw_status, top]

/-- Operands for which the masked response of a stack underflow is the real indefinite. -/
def Clean (vs : List Temp) : Prop := ∀ v ∈ vs, tIsNan v = false ∧ tUnsupported v = false

theorem pickNan_clean {a b : Temp} (ha : tIsNan a = false) (hb : tIsNan b = false) : pickNan a b = realIndefinite := by
  simp [pickNan, ha, hb]

theorem maskedOf_run {vs : List Temp} {put : Temp → M Unit} (clean : Clean vs) (s : State) :
    maskedOf vs put s = put realIndefinite s := by
  have standard : s.preStandard vs = false := by
    rw [State.preStandard, List.any_eq_false.mpr fun v mem => by rw [(clean v mem).2]; exact Bool.noConfusion,
      Bool.and_false]
  simp only [maskedOf, M.bind_run, getS_run, standard, Bool.false_eq_true, if_false]
  cases vs with
  | nil => rfl
  | cons a _ =>
    show put (pickNan a a) s = _
    rw [pickNan_clean (clean a (.head _)).1 (clean a (.head _)).1]

/-- The masked response of a stack underflow is the real indefinite in the destination. -/
theorem State.Runs.underflows {vs : List Temp} {den pops : Bool} {dst : BitVec 3} (runs : s.Runs i o m)
    (run : m (s.npxAt i o) = underflowTo false vs den (putSt dst pops) (s.npxAt i o)) (calm : s.calm den = true)
    (clean : Clean vs) : s.Underflows i dst pops :=
  runs.faults (drawn := s.draws) (h := fun f => f.put dst pops realIndefinite) run calm
    (fun _ _ => maskedOf_run clean _)
    fun f cw regs top tags => by
      refine ⟨(Fpu.put_cw ..).trans cw, ?_, ?_, ?_⟩
      · rw [Fpu.put_regs, regs, top]
      · rw [Fpu.put_tags, tags, top]; rfl
      · rw [Fpu.put_status, top]

end

end Sys2Proof.Machine
end

section
/-! The values of the transcendental functions (R530 to R537) and the classes of their operands. -/

namespace Sys2Proof.Machine

variable {v a b x y : Temp} {n287 : Bool} {cw : BitVec 16} {k : Config.NpxFun} {z : Temp} {s : State}

/-! Classes (R472). -/

/-- A value that is neither a NaN nor of an unsupported format. -/
structure IsNumber (v : Temp) : Prop where
  nan : tIsNan v = false
  supported : tUnsupported v = false

theorem IsNumber.signaling (h : IsNumber v) : tIsSignaling v = false := by
  have not := h.nan
  rw [tIsNan, Bool.or_eq_false_iff] at not
  exact not.2

theorem class_of_zero (h : tIsZero v = true) : tClass v = .zero := by simpa [tIsZero] using h

theorem isNumber_of_zero (h : tIsZero v = true) : IsNumber v := by
  constructor <;> simp [tIsNan, tUnsupported, class_of_zero h]

theorem isInf_of_zero (h : tIsZero v = true) : tIsInf v = false := by simp [tIsInf, class_of_zero h]

theorem isDenormal_of_zero (h : tIsZero v = true) : tIsDenormal v = false := by simp [tIsDenormal, class_of_zero h]

/-- A zero has exponent and significand zero. -/
theorem fields_of_zero (h : tIsZero v = true) : tExp v = 0 ∧ tSig v = 0 := by
  have class_ := class_of_zero h
  dsimp only [tClass] at class_
  split at class_
  · next exp =>
    split at class_
    · next sig => exact ⟨exp, sig⟩
    · cases class_
  · (repeat' split at class_) <;> cases class_

/-- Operands that are numbers pass the checks of R476. -/
theorem nanCase_numbers (ha : IsNumber a) (hb : IsNumber b) : nanCase n287 a b = none := by
  simp [nanCase, ha.nan, ha.supported, ha.signaling, hb.nan, hb.supported, hb.signaling]

/-! The fields of a value that is put together (R472). -/

section

variable {neg : Bool} {e sig : Nat}

theorem mkTemp_exp (small : e < 32768) : tExp (mkTemp neg e sig) = e := by
  have field : (mkTemp neg e sig).extractLsb' 64 15 = BitVec.ofNat 15 e := by
    ext j hj
    have inside : ¬ 64 + j < 64 := by omega
    rw [BitVec.getElem_extractLsb', mkTemp, BitVec.getLsbD_append, if_neg inside, BitVec.getLsbD_append,
      Nat.add_sub_cancel_left, if_pos hj, BitVec.getLsbD_eq_getElem]
  rw [tExp, field, BitVec.toNat_ofNat]
  omega

theorem mkTemp_sig (small : sig < 2 ^ 64) : tSig (mkTemp neg e sig) = sig := by
  have field : (mkTemp neg e sig).extractLsb' 0 64 = BitVec.ofNat 64 sig := BitVec.extractLsb'_append_eq_right
  rw [tSig, field, BitVec.toNat_ofNat]
  omega

theorem mkTemp_sign : tSign (mkTemp neg e sig) = neg := by
  rw [tSign, bitOf, mkTemp, BitVec.getLsbD_append, BitVec.getLsbD_append]
  cases neg <;> rfl

/-- The integer bit is the top bit of the significand. -/
theorem integerBit (v : Temp) : bitOf v 63 = decide (2 ^ 63 ≤ tSig v) := by
  rw [tSig, BitVec.extractLsb'_toNat, bitOf, ← BitVec.testBit_toNat, Nat.testBit_eq_decide_div_mod_eq]
  generalize v.toNat = n
  rw [Nat.shiftRight_zero, decide_eq_decide]
  omega

theorem mkTemp_normal (least : 0 < e) (most : e < 32767) (top : 2 ^ 63 ≤ sig) (small : sig < 2 ^ 64) :
    tClass (mkTemp neg e sig) = .normal := by
  simp only [tClass, mkTemp_exp (neg := neg) (sig := sig) (show e < 32768 by omega), integerBit,
    mkTemp_sig (neg := neg) (e := e) small]
  rw [if_neg (by omega), if_neg (by omega), if_pos (decide_eq_true top)]

/-- Without a significand a value is a zero or of an unsupported format. -/
theorem class_of_sig_zero (none : tSig v = 0) : tIsZero v = true ∨ tUnsupported v = true := by
  have bit : bitOf v 63 = false := by rw [integerBit, none]; rfl
  simp only [tIsZero, tUnsupported, tClass, bit, none]
  split
  · exact .inl rfl
  · split <;> exact .inr rfl

/-- A number that is not zero has a significand. -/
theorem sig_of_number (h : IsNumber v) (zero : tIsZero v = false) : tSig v ≠ 0 := fun none =>
  (class_of_sig_zero none).elim (fun is => Bool.noConfusion (zero.symm.trans is))
    fun is => Bool.noConfusion (h.supported.symm.trans is)

end

/-! FSIN, FCOS, FPTAN, FSINCOS. -/

theorem tooLarge_iff : tooLarge a = true ↔ IsNumber a ∧ tIsInf a = false ∧ 16446 ≤ tExp a := by
  simp only [tooLarge, trigInRange, Bool.and_eq_true, Bool.not_eq_true', decide_eq_false_iff_not, Nat.not_lt]
  constructor
  · rintro ⟨⟨⟨nan, inf⟩, supported⟩, exp⟩
    exact ⟨⟨nan, supported⟩, inf, exp⟩
  · rintro ⟨⟨nan, supported⟩, inf, exp⟩
    exact ⟨⟨⟨nan, inf⟩, supported⟩, exp⟩

theorem tooLarge_zero (h : tIsZero a = true) : tooLarge a = false :=
  Bool.eq_false_iff.mpr fun large => by
    obtain ⟨-, -, exp⟩ := tooLarge_iff.mp large
    rw [(fields_of_zero h).1] at exp
    omega

theorem trigRes_zero (h : tIsZero a = true) : trigRes n287 cw k z a = .exact z := by
  simp [trigRes, nanCase_numbers (isNumber_of_zero h) (isNumber_of_zero h), isInf_of_zero h, h]

/-- The function of a finite number has a value. -/
theorem trigRes_valid (h : IsNumber a) (inf : tIsInf a = false) : (trigRes n287 cw k z a).isInvalid = false := by
  simp only [trigRes, nanCase_numbers h h, inf, Bool.false_eq_true, if_false]
  split <;> rfl

/-! F2XM1. -/

theorem exp2Res_zero (h : tIsZero a = true) : exp2Res s a = .exact a := by
  simp [exp2Res, nanCase_numbers (isNumber_of_zero h) (isNumber_of_zero h), h]

theorem nanCase_one (neg : Bool) :
    nanCase n287 (if neg then tNeg tOne else tOne) (if neg then tNeg tOne else tOne) = none := by
  revert n287 neg; decide

theorem exp2Domain_one (new : s.n287 = false) : exp2Domain s tOne = true ∧ exp2Domain s (tNeg tOne) = true := by
  rw [exp2Domain, exp2Domain, new]
  decide

theorem exp2Res_one (new : s.n287 = false) : exp2Res s tOne = .exact tOne := by
  have zero : tIsZero tOne = false := by decide
  have none : nanCase s.n287 tOne tOne = none := nanCase_one false
  simp [exp2Res, none, zero, (exp2Domain_one new).1]

theorem exp2Res_negOne (new : s.n287 = false) : exp2Res s (tNeg tOne) = .exact (packTemp true 1 (-1)) := by
  have zero : tIsZero (tNeg tOne) = false := by decide
  have differ : tNeg tOne ≠ tOne := by decide
  have none : nanCase s.n287 (tNeg tOne) (tNeg tOne) = none := nanCase_one true
  simp [exp2Res, none, zero, (exp2Domain_one new).2, differ]

/-! FYL2X and FYL2XP1. -/

theorem yl2xRes_one (hy : IsNumber y) (inf : tIsInf y = false) : yl2xRes s tOne y = .exact (tZero (tSign y)) := by
  have sign : tSign tOne = false := by decide
  have zero : tIsZero tOne = false := by decide
  have one : IsNumber tOne := ⟨by decide, by decide⟩
  simp [yl2xRes, nanCase_numbers hy one, sign, zero, inf]

theorem yl2xRes_zero (hx : tIsZero x = true) (hy : IsNumber y) (zero : tIsZero y = false) (inf : tIsInf y = false) :
    yl2xRes s x y = .zeroDivide (tInf (!tSign y)) := by
  simp [yl2xRes, nanCase_numbers hy (isNumber_of_zero hx), hx, zero, inf]

theorem yl2xRes_negative (hx : IsNumber x) (hy : IsNumber y) (sign : tSign x = true) (zero : tIsZero x = false) :
    yl2xRes s x y = .invalid realIndefinite := by
  simp [yl2xRes, nanCase_numbers hy hx, sign, zero]

theorem yl2xRes_exact {n : Int} (hx : IsNumber x) (h : log2Exact x = some n) (differ : x ≠ tOne) :
    yl2xRes s x tOne = .exact (ofInt n) := by
  have one : IsNumber tOne := ⟨by decide, by decide⟩
  have finite : tIsInf tOne = false := by decide
  have oneZero : tIsZero tOne = false := by decide
  have positive : (tSign x || tIsInf x || tIsZero x) = false := by
    by_contra not
    rw [log2Exact, if_pos (Bool.not_eq_false _ ▸ not)] at h
    cases h
  simp only [Bool.or_eq_false_iff] at positive
  obtain ⟨⟨sign, inf⟩, zero⟩ := positive
  simp [yl2xRes, nanCase_numbers one hx, sign, zero, differ, inf, h]

/-- A power of two in the range of the normal numbers. -/
def powTwo (n : Int) : Temp := 0#1 ++ BitVec.ofInt 15 (n + 16383) ++ 0x8000000000000000#64

theorem powTwo_eq {n : Int} (low : -16382 ≤ n) : powTwo n = mkTemp false (n + 16383).toNat (2 ^ 63) := by
  have exp : BitVec.ofInt 15 (n + 16383) = BitVec.ofNat 15 (n + 16383).toNat := by
    apply BitVec.eq_of_toNat_eq
    rw [BitVec.toNat_ofInt, BitVec.toNat_ofNat]
    omega
  rw [powTwo, exp]
  rfl

theorem tOne_eq : tOne = powTwo 0 := by decide

section

variable {n : Int} (low : -16382 ≤ n) (high : n ≤ 16383)
include low high

theorem powTwo_normal : tClass (powTwo n) = .normal := by
  rw [powTwo_eq low]
  exact mkTemp_normal (by omega) (by omega) (by decide) (by decide)

theorem log2Exact_powTwo : log2Exact (powTwo n) = some n := by
  have normal := powTwo_normal low high
  have exp : tExp (powTwo n) = (n + 16383).toNat := by rw [powTwo_eq low, mkTemp_exp (by omega)]
  have sig : tSig (powTwo n) = 2 ^ 63 := by rw [powTwo_eq low, mkTemp_sig (by decide)]
  have sign : tSign (powTwo n) = false := by rw [powTwo_eq low, mkTemp_sign]
  have lsb : tLsb (powTwo n) = n - 63 := by
    rw [tLsb, exp, if_neg (by omega)]
    omega
  have positive : (tSign (powTwo n) || tIsInf (powTwo n) || tIsZero (powTwo n)) = false := by
    simp [sign, tIsInf, tIsZero, normal]
  simp only [log2Exact, positive, sig, lsb, Nat.log2_two_pow]
  simp

end

theorem yl2xp1Res_zero (hx : tIsZero x = true) (hy : IsNumber y) (inf : tIsInf y = false) :
    yl2xp1Res s x y = .exact (tZero (tSign x ^^ tSign y)) := by
  simp [yl2xp1Res, nanCase_numbers hy (isNumber_of_zero hx), hx, inf]

/-! FPATAN. -/

theorem tSign_append (neg : Bool) (m : BitVec 79) : tSign (BitVec.ofBool neg ++ m) = neg := by
  rw [tSign, bitOf, BitVec.getLsbD_append]
  cases neg <;> rfl

theorem within_sign (top : BitVec 79) (y v : Temp) : tSign (within top y v) = tSign y := tSign_append _ _

theorem within_le (top : BitVec 79) (y v : Temp) : ((within top y v).extractLsb' 0 79).toNat ≤ top.toNat := by
  have low (b : Bool) (m : BitVec 79) : (BitVec.ofBool b ++ m).extractLsb' 0 79 = m :=
    BitVec.extractLsb'_append_eq_right
  unfold within
  rw [low]
  split
  · next inside => exact of_decide_eq_true (Bool.and_eq_true_iff.mp inside).2
  · exact le_refl _

theorem cmpValues_zero (hy : tIsZero y = true) (hx : IsNumber x) (zero : tIsZero x = false) (inf : tIsInf x = false)
    (sign : tSign x = false) : cmpValues y x = .less := by
  have none (lo : Int) : tScaled y lo = 0 := by simp [tScaled, (fields_of_zero hy).2]
  have some (lo : Int) : 0 < tScaled x lo := by
    have sig := Nat.pos_of_ne_zero (sig_of_number hx zero)
    simp only [tScaled, sign, Bool.false_eq_true, if_false]
    positivity
  simp only [cmpValues, isInf_of_zero hy, inf, none, some, Bool.or_self, Bool.false_eq_true, if_false, if_true]
  rw [if_neg (by have := some (min (tLsb y) (tLsb x)); omega)]

theorem atanRes_zero (hx : IsNumber x) (hy : tIsZero y = true) (sign : tSign x = false) (zero : tIsZero x = false)
    (inf : s.n287 = true → tIsInf x = false) : atanRes s x y = .exact y := by
  have inside : atanDomain s x y = true := by
    cases n287 : s.n287
    · simp [atanDomain, n287]
    · simp [atanDomain, hy, inf n287, isInf_of_zero hy, cmpValues_zero hy hx zero (inf n287) sign]
  simp [atanRes, nanCase_numbers (isNumber_of_zero hy) hx, inside, hy, sign, zero]

/-- An angle has the sign of ST(1) and is at most π where no unmasked underflow raises its exponent. -/
theorem atanRes_gives (hx : IsNumber x) (hy : IsNumber y) (new : s.n287 = false) (mask : s.npxMask 4 = true)
    (h : (atanRes s x y).Gives v) : tSign v = tSign y ∧ (v.extractLsb' 0 79).toNat ≤ 0x4000C90FDAA22168C235 := by
  have inside : atanDomain s x y = true := by simp [atanDomain, new]
  simp only [atanRes, nanCase_numbers hy hx, inside, Bool.not_true, Bool.false_eq_true, if_false] at h
  split at h
  · next zero =>
    simp only [Bool.and_eq_true] at zero
    obtain ⟨exp, sig⟩ := fields_of_zero zero.1.1
    rw [show v = y from h]
    refine ⟨rfl, ?_⟩
    rw [tExp, BitVec.extractLsb'_toNat] at exp
    rw [tSig, BitVec.extractLsb'_toNat] at sig
    rw [BitVec.extractLsb'_toNat]
    generalize y.toNat = n at exp sig ⊢
    rw [Nat.shiftRight_eq_div_pow] at exp sig ⊢
    omega
  · have top (b : Bool) : angleTop (b && !cwMask s.fpu.cw 4) = angleTop false := by
      rw [show cwMask s.fpu.cw 4 = true from mask, Bool.not_true, Bool.and_false]
    simp only [npxCall, Res.asAngle, top] at h
    rw [show v = _ from h]
    exact ⟨within_sign _ _ _, within_le _ _ _⟩

end Sys2Proof.Machine
end

section
/-! The computations of the register stack where their registers are there, and where one is empty. -/

namespace Sys2Proof.Machine

variable {s : State} {i : Instr} {o : Option MemOp}

/-! Where the operands are there, an operation delivers its result. -/

/-- The second value of an instruction with two results (log entry 31). -/
def Res.second (r : Res) (a second v : Temp) : Temp := if r.isInvalid || tIsNan a then v else second

theorem withPush_room {a second : Temp} {r : Res} {c : Code → Codes} (room : s.fpu.isEmpty 7#3 = true) :
    withPush a r second c s =
      deliverRes (tIsDenormal a) r c (fun v => updFpu (fun f => f.putPair v (r.second a second v))) s := by
  have free : s.fpu.full = false := by rw [Fpu.full, room]; rfl
  simp only [withPush, M.bind_run, getS_run, free, Bool.false_eq_true, if_false, Res.second]
  split <;> rfl

section

variable (there : s.fpu.isEmpty 0#3 = false)
include there

theorem trigOp_there {k : Config.NpxFun} {z : Temp → Temp} (small : tooLarge (s.fpu.st 0#3) = false) :
    trigOp k z s = deliverRes (tIsDenormal (s.fpu.st 0#3)) (trigRes s.n287 s.fpu.cw k (z (s.fpu.st 0#3)) (s.fpu.st 0#3))
      (reduced (s.fpu.st 0#3)) (putSt 0#3 false) s := by
  simp only [trigOp, M.bind_run, getS_run, there, small, Bool.false_eq_true, if_false]

theorem trigOp_large {k : Config.NpxFun} {z : Temp → Temp} (large : tooLarge (s.fpu.st 0#3) = true) :
    trigOp k z s = outOfReach1 s := by
  simp only [trigOp, M.bind_run, getS_run, there, large, Bool.false_eq_true, if_false, if_true]

theorem exp2Op_there : exp2Op s =
    deliverRes (tIsDenormal (s.fpu.st 0#3)) (exp2Res s (s.fpu.st 0#3)) onlyC1 (putSt 0#3 false) s := by
  simp only [exp2Op, M.bind_run, getS_run, there, Bool.false_eq_true, if_false]

theorem tanOp_there (new : s.n287 = false) (small : tooLarge (s.fpu.st 0#3) = false) : tanOp s =
    withPush (s.fpu.st 0#3) (trigRes false s.fpu.cw .tan (s.fpu.st 0#3) (s.fpu.st 0#3)) tOne
      (reduced (s.fpu.st 0#3)) s := by
  simp only [tanOp, M.bind_run, getS_run, there, new, small, Bool.false_eq_true, if_false]

theorem tanOp_large (new : s.n287 = false) (large : tooLarge (s.fpu.st 0#3) = true) : tanOp s = outOfReach s := by
  simp only [tanOp, M.bind_run, getS_run, there, new, large, Bool.false_eq_true, if_false, if_true]

/-- The numerator of FPTAN on the 80287 (R530). -/
def tan287Res (cw : BitVec 16) (a : Temp) : Res :=
  match nanCase true a a with
  | some e => e
  | none =>
    if tIsInf a then .invalid realIndefinite
    else if tIsZero a then .exact a
    else .value (Config.npx287Tan a cw).1 false (Config.npxFun .tan a (tZero false) cw).ue
      (Config.npxFun .tan a (tZero false) cw).pe (Config.npxFun .tan a (tZero false) cw).up

theorem tanOp_287 (old : s.n287 = true) : tanOp s = withPush (s.fpu.st 0#3) (tan287Res s.fpu.cw (s.fpu.st 0#3))
    (Config.npx287Tan (s.fpu.st 0#3) s.fpu.cw).2 onlyC1 s := by
  simp only [tanOp, M.bind_run, getS_run, there, old, Bool.false_eq_true, if_false, if_true]
  rfl

/-- The two results of FSINCOS with their exceptions (R534). -/
def sincosRes (n287 : Bool) (cw : BitVec 16) (a : Temp) : Res :=
  (trigRes n287 cw .sin a a).join (trigRes n287 cw .cos tOne a)

theorem sincosOp_there (small : tooLarge (s.fpu.st 0#3) = false) : sincosOp s =
    withPush (s.fpu.st 0#3) (sincosRes s.n287 s.fpu.cw (s.fpu.st 0#3))
      (trigRes s.n287 s.fpu.cw .cos tOne (s.fpu.st 0#3)).temp (fun _ => reduced (s.fpu.st 0#3) .undef) s := by
  simp only [sincosOp, M.bind_run, getS_run, there, small, Bool.false_eq_true, if_false]
  rfl

theorem sincosOp_large (large : tooLarge (s.fpu.st 0#3) = true) : sincosOp s = outOfReach s := by
  simp only [sincosOp, M.bind_run, getS_run, there, large, Bool.false_eq_true, if_false, if_true]

theorem binaryOp_there {f : State → Temp → Temp → Res} (second : s.fpu.isEmpty 1#3 = false) : binaryOp f s =
    deliverRes (tIsDenormal (s.fpu.st 0#3) || tIsDenormal (s.fpu.st 1#3)) (f s (s.fpu.st 0#3) (s.fpu.st 1#3)) onlyC1
      (putSt 1#3 true) s := by
  have none : s.anyEmpty [0#3, 1#3] = false := by simp [State.anyEmpty, there, second]
  simp only [binaryOp, M.bind_run, getS_run, none, Bool.false_eq_true, if_false]

end

/-! Where the operand of an operation on ST(0) is not there. -/

section

variable (empty : s.fpu.isEmpty 0#3 = true)
include empty

theorem unary_empty (f : State → Temp → Res) : unary f s = underflowTo false [] false (putSt 0#3 false) s := by
  simp only [unary, M.bind_run, getS_run, empty, if_true]

theorem signOp_empty (f : Temp → Temp) : signOp f s = underflowTo false [] false (putSt 0#3 false) s := by
  simp only [signOp, M.bind_run, getS_run, empty, if_true]

theorem exp2Op_empty : exp2Op s = underflowTo false [] false (putSt 0#3 false) s := by
  simp only [exp2Op, M.bind_run, getS_run, empty, if_true]

theorem trigOp_empty (k : Config.NpxFun) (z : Temp → Temp) :
    trigOp k z s = underflowTo false [] false (putSt 0#3 false) s := by
  simp only [trigOp, M.bind_run, getS_run, empty, if_true]

theorem storeSt_empty (j : BitVec 3) (pops : Bool) : storeSt j pops s = underflowTo false [] false (putSt j pops) s := by
  simp only [storeSt, M.bind_run, getS_run, empty, if_true]

end

/-! Where one of two operands is not there. -/

theorem anyEmpty_pair {j k : BitVec 3} (empty : s.fpu.isEmpty j = true ∨ s.fpu.isEmpty k = true) :
    s.anyEmpty [j, k] = true := by
  simpa [State.anyEmpty] using empty

theorem arithSt_empty (op : ArOp) (rev e pops : Bool) {k : BitVec 3}
    (empty : s.fpu.isEmpty 0#3 = true ∨ s.fpu.isEmpty k = true) :
    arithSt op rev e k pops s =
      underflowPair (if e then k else 0#3) (if e then 0#3 else k) (putSt (if e then k else 0#3) pops) s := by
  have any : s.anyEmpty [if e then k else 0#3, if e then 0#3 else k] = true := by
    cases e
    · exact anyEmpty_pair empty
    · exact anyEmpty_pair empty.symm
  simp only [arithSt, M.bind_run, getS_run, any, if_true]

section

variable (empty : s.fpu.isEmpty 0#3 = true ∨ s.fpu.isEmpty 1#3 = true)
include empty

theorem scaleOp_empty : scaleOp s = underflowPair 0#3 1#3 (putSt 0#3 false) s := by
  simp only [scaleOp, M.bind_run, getS_run, anyEmpty_pair empty, if_true]

theorem premOp_empty (ieee : Bool) : premOp ieee s = underflowPair 0#3 1#3 (putSt 0#3 false) s := by
  simp only [premOp, M.bind_run, getS_run, anyEmpty_pair empty, if_true]

theorem binaryOp_empty (f : State → Temp → Temp → Res) : binaryOp f s = underflowPair 1#3 0#3 (putSt 1#3 true) s := by
  simp only [binaryOp, M.bind_run, getS_run, anyEmpty_pair empty, if_true]

end

/-! A push onto a register that is not empty. -/

theorem pushTemp_full {v : Temp} {den : Bool} {c : Codes} (full : s.fpu.isEmpty 7#3 = false) :
    pushTemp v den c s = (do
      stackFault (s.c1 true) noCodes
      afterInvalid den (updFpu (fun f => f.pushRaw realIndefinite))) s := by
  have occupied : s.fpu.full = true := by rw [Fpu.full, full]; rfl
  simp only [pushTemp, M.bind_run, getS_run, occupied, if_true]

/-- An operand that is no NaN, of no unsupported format, and no denormal that is not masked. -/
structure State.Quiet (s : State) (v : Temp) : Prop extends IsNumber v where
  calm : tIsDenormal v = true → s.npxMask 1 = true

theorem State.calm_false : s.calm false = true := rfl

theorem State.calm_of_imp {den : Bool} (h : den = true → s.npxMask 1 = true) : s.calm den = true := by
  cases den
  · rfl
  · exact h rfl

/-- A stack underflow of two operands of which none that is there disturbs it. -/
theorem State.Runs.underflowsPair {m : M Unit} {j k dst : BitVec 3} {pops : Bool} (runs : s.Runs i o m)
    (run : m (s.npxAt i o) = underflowPair j k (putSt dst pops) (s.npxAt i o))
    (hj : s.fpu.isEmpty j = false → s.Quiet (s.fpu.st j)) (hk : s.fpu.isEmpty k = false → s.Quiet (s.fpu.st k)) :
    s.Underflows i dst pops := by
  have quiet : ∀ v ∈ s.operands [j, k], s.Quiet v := by
    intro v mem
    simp only [State.operands, List.mem_map, List.mem_filter, List.mem_cons, List.not_mem_nil, or_false,
      Bool.not_eq_true'] at mem
    obtain ⟨n, ⟨rfl | rfl, there⟩, rfl⟩ := mem
    · exact hj there
    · exact hk there
  refine runs.underflows (vs := s.operands [j, k]) (den := (s.operands [j, k]).any tIsDenormal) run ?_ ?_
  · refine s.calm_of_imp fun den => ?_
    obtain ⟨v, mem, is⟩ := List.any_eq_true.mp den
    exact (quiet v mem).calm is
  · exact fun v mem => ⟨(quiet v mem).nan, (quiet v mem).supported⟩

end Sys2Proof.Machine
end

section
/-! The transcendental instructions on their operands (R530 to R537). -/

namespace Sys2Proof.Machine

variable {s : State} {i : Instr}

/-! What a value that is stated leaves. -/

theorem State.EndsWith.any {r : Oct Temp} {t : BitVec 3} {g : Oct Tag} {c : FpuStatus → Prop}
    (h : s.EndsWith i r t g c) : s.EndsWith i r t g fun _ => True := h.mono fun _ _ => trivial

/-- A value without exception is delivered where no denormal stops the instruction. -/
theorem State.delivers_exact {den : Bool} (v : Temp) (calm : s.calm den = true) : s.delivers den (.exact v) = true := by
  unfold State.delivers
  rw [calm]
  rfl

section

variable {m : M Unit} {den : Bool} {r : Res} {c : Code → Codes} {v : Temp} (runs : s.Runs i none m) (is : r = .exact v)
  (calm : s.calm den = true)
include runs is calm

theorem State.Runs.replaces_exact
    (run : m (s.npxAt i none) = Machine.deliverRes den r c (putSt 0#3 false) (s.npxAt i none)) :
    s.Replaces i v ((Res.exact v).Reported c s.fpu.status) := by
  subst is
  obtain ⟨_, rfl, ends⟩ := runs.replaces run (s.delivers_exact v calm)
  exact ends

theorem State.Runs.pushes_exact {w : Temp → Temp} (run : m (s.npxAt i none) =
    Machine.deliverRes den r c (fun v => updFpu (fun f => f.putPair v (w v))) (s.npxAt i none)) :
    s.Pushes i v (w v) ((Res.exact v).Reported c s.fpu.status) := by
  subst is
  obtain ⟨_, rfl, ends⟩ := runs.pushes run (s.delivers_exact v calm)
  exact ends

end

theorem FpuStatus.Coded.eq {t u : FpuStatus} {c : Codes} (h : t.Coded c u) :
    t = { u with c3 := t.c3, c2 := t.c2, c1 := t.c1, c0 := t.c0 } := by
  rw [← h.ie, ← h.de, ← h.ze, ← h.oe, ← h.ue, ← h.pe, ← h.sf, ← h.es, ← h.top]

/-- An instruction that sets condition codes alone. -/
theorem State.Runs.codes {m : M Unit} {c : Codes} (runs : s.Runs i none m)
    (run : m (s.npxAt i none) = setCodes c (s.npxAt i none)) : ∃ t : FpuStatus, t.Coded c s.fpu.status ∧
      s.Unchanged i fun u => u = { t with es := s.fpu.status.es || s.fpu.unmasked } := by
  obtain ⟨t, d, coded, sets⟩ := setCodes_run c (s.npxAt i none)
  obtain ⟨_, leaves, rfl⟩ := runs (fun f => f = (s.npxAt i none).fpu.withStatus t) (.of_run (run.trans sets) rfl)
  have pending : ((s.npxAt i none).fpu.withStatus t).unmasked = s.fpu.unmasked := by
    simp only [Fpu.unmasked, Fpu.withStatus_status, Fpu.withStatus_cw, coded.ie, coded.de, coded.ze, coded.oe, coded.ue,
      coded.pe, State.npxAt_status, State.npxAt_cw]
  refine ⟨t, coded, leaves.endsWith rfl rfl coded.top rfl ?_⟩
  rw [Fpu.settled, pending, Fpu.withStatus_status, coded.es]
  rfl

/-- C2 beside a value of an operand that is no NaN (R530, R532). -/
theorem Res.Reported.reduced {v a : Temp} {c : Code → Codes} {u t : FpuStatus} (h : (Res.exact v).Reported c u t)
    (codes : ∀ c1, (c c1).c2 = (Machine.reduced a c1).c2) (nan : tIsNan a = false) : t.c2 = false := by
  obtain ⟨c1, fits⟩ := h.code2 _ _ _ _ _ rfl
  rw [codes, Machine.reduced, nan] at fits
  exact fits

theorem calm_of_zero {a : Temp} (zero : tIsZero a = true) : s.calm (tIsDenormal a) = true := by
  rw [isDenormal_of_zero zero]
  rfl

/-- An operand of at least 2^63 of an instruction with two results: C2 = 1, and nothing else. -/
theorem outOfReach_unchanged {m : M Unit} (runs : s.Runs i none m)
    (run : m (s.npxAt i none) = outOfReach (s.npxAt i none)) : s.Unchanged i fun t =>
    t = { s.fpu.status with c2 := true, es := s.fpu.status.es || s.fpu.unmasked } := by
  obtain ⟨t, coded, ends⟩ := runs.codes run
  refine ends.mono fun u is => ?_
  have set : t.c2 = true := coded.c2
  have kept3 : t.c3 = s.fpu.status.c3 := coded.c3
  have kept1 : t.c1 = s.fpu.status.c1 := coded.c1
  have kept0 : t.c0 = s.fpu.status.c0 := coded.c0
  rw [is, coded.eq, set, kept3, kept1, kept0]

/-! The two results of FPTAN and FSINCOS. -/

theorem second_exact {a v w : Temp} (nan : tIsNan a = false) (x : Temp) : (Res.exact x).second a w v = w := by
  rw [Res.second, nan]; rfl

theorem sincosRes_zero {n287 : Bool} {cw : BitVec 16} {a : Temp} (zero : tIsZero a = true) :
    sincosRes n287 cw a = .exact a := by
  rw [sincosRes, trigRes_zero zero, trigRes_zero zero]; rfl

theorem tan287Res_zero {cw : BitVec 16} {a : Temp} (zero : tIsZero a = true) : tan287Res cw a = .exact a := by
  rw [tan287Res, nanCase_numbers (isNumber_of_zero zero) (isNumber_of_zero zero), isInf_of_zero zero, zero]; rfl

/-! The rows. -/

section

variable (ready : s.npxReady = true)
include ready

theorem runs_fsin : s.Runs .fsin none (trigOp .sin (fun a => a)) := .reg ready rfl
theorem runs_fcos : s.Runs .fcos none (trigOp .cos (fun _ => tOne)) := .reg ready rfl
theorem runs_fsincos : s.Runs .fsincos none sincosOp := .reg ready rfl
theorem runs_fptan : s.Runs .fptan none tanOp := .reg ready rfl
theorem runs_f2xm1 : s.Runs .f2xm1 none exp2Op := .reg ready rfl
theorem runs_fpatan : s.Runs .fpatan none (binaryOp atanRes) := .reg ready rfl
theorem runs_fyl2x : s.Runs .fyl2x none (binaryOp yl2xRes) := .reg ready rfl
theorem runs_fyl2xp1 : s.Runs .fyl2xp1 none (binaryOp yl2xp1Res) := .reg ready rfl

section

variable (there : s.fpu.isEmpty 0#3 = false)
include there

/-! FSIN and FCOS. -/

section

variable {k : Config.NpxFun} {z : Temp → Temp} (runs : s.Runs i none (trigOp k z))
include runs
omit ready

theorem trig_zero (zero : tIsZero (s.fpu.st 0#3) = true) :
    s.Replaces i (z (s.fpu.st 0#3)) fun t => t.c2 = false := by
  have calm : s.calm (tIsDenormal (s.fpu.st 0#3)) = true := calm_of_zero zero
  have ends := runs.replaces_exact (trigRes_zero zero) calm
    (trigOp_there (s := s.npxAt i none) there (tooLarge_zero zero))
  exact ends.mono fun _ reported => reported.reduced (fun _ => rfl) (isNumber_of_zero zero).nan

theorem trig_masked (masked : ∀ j < 6, s.npxMask j = true) (small : tooLarge (s.fpu.st 0#3) = false) :
    ∃ v, s.Replaces i v fun _ => True := by
  obtain ⟨v, -, ends⟩ := runs.replaces (trigOp_there (s := s.npxAt i none) there small)
    (State.delivers_of_masked masked _ _)
  exact ⟨v, ends.any⟩

/-- An operand of at least 2^63: C2 = 1, and the registers are kept. -/
theorem trig_large (large : tooLarge (s.fpu.st 0#3) = true) : s.Unchanged i fun t =>
    t = { s.fpu.status with c3 := t.c3, c2 := true, c1 := t.c1, c0 := t.c0, es := s.fpu.status.es || s.fpu.unmasked } := by
  obtain ⟨t, coded, ends⟩ := runs.codes (trigOp_large (s := s.npxAt i none) there large)
  refine ends.mono fun u is => ?_
  have set : t.c2 = true := coded.c2
  rw [is, coded.eq, set]

end

/-! FPTAN and FSINCOS. -/

theorem sincos_large (large : tooLarge (s.fpu.st 0#3) = true) : s.Unchanged .fsincos fun t =>
    t = { s.fpu.status with c2 := true, es := s.fpu.status.es || s.fpu.unmasked } := by
  exact outOfReach_unchanged (runs_fsincos ready) (sincosOp_large (s := s.npxAt .fsincos none) there large)

theorem tan_large (new : s.n287 = false) (large : tooLarge (s.fpu.st 0#3) = true) : s.Unchanged .fptan fun t =>
    t = { s.fpu.status with c2 := true, es := s.fpu.status.es || s.fpu.unmasked } :=
  outOfReach_unchanged (runs_fptan ready) (tanOp_large (s := s.npxAt .fptan none) there new large)

section

variable (room : s.fpu.isEmpty 7#3 = true)
include room

theorem sincos_zero (zero : tIsZero (s.fpu.st 0#3) = true) :
    s.Pushes .fsincos (s.fpu.st 0#3) tOne fun t => t.c2 = false := by
  have nan := (isNumber_of_zero zero).nan
  have run := (sincosOp_there (s := s.npxAt .fsincos none) there (tooLarge_zero zero)).trans (withPush_room room)
  have ends := (runs_fsincos ready).pushes_exact (sincosRes_zero zero) (calm_of_zero zero) run
  rw [State.npxAt_st, sincosRes_zero zero, trigRes_zero zero, second_exact nan] at ends
  exact ends.mono fun _ reported => reported.reduced (fun _ => rfl) nan

theorem tan_zero (new : s.n287 = false) (zero : tIsZero (s.fpu.st 0#3) = true) :
    s.Pushes .fptan (s.fpu.st 0#3) tOne fun t => t.c2 = false := by
  have nan := (isNumber_of_zero zero).nan
  have run := (tanOp_there (s := s.npxAt .fptan none) there new (tooLarge_zero zero)).trans (withPush_room room)
  have ends := (runs_fptan ready).pushes_exact (trigRes_zero zero) (calm_of_zero zero) run
  rw [State.npxAt_st, trigRes_zero zero, second_exact nan] at ends
  exact ends.mono fun _ reported => reported.reduced (fun _ => rfl) nan

theorem tan287_zero (old : s.n287 = true) (zero : tIsZero (s.fpu.st 0#3) = true) :
    ∃ w, s.Pushes .fptan (s.fpu.st 0#3) w fun _ => True := by
  have run := (tanOp_287 (s := s.npxAt .fptan none) there old).trans (withPush_room room)
  exact ⟨_, ((runs_fptan ready).pushes_exact (tan287Res_zero zero) (calm_of_zero zero) run).any⟩

section

variable (masked : ∀ j < 6, s.npxMask j = true)
include masked

theorem sincos_masked (small : tooLarge (s.fpu.st 0#3) = false) : ∃ v w, s.Pushes .fsincos v w fun _ => True := by
  have run := (sincosOp_there (s := s.npxAt .fsincos none) there small).trans (withPush_room room)
  obtain ⟨v, -, ends⟩ := (runs_fsincos ready).pushes run (State.delivers_of_masked masked _ _)
  exact ⟨v, _, ends.any⟩

/-- The second value is one for a finite number (R530). -/
theorem tan_masked (new : s.n287 = false) (small : tooLarge (s.fpu.st 0#3) = false) :
    ∃ v w, (s.Pushes .fptan v w fun _ => True) ∧
      (IsNumber (s.fpu.st 0#3) → tIsInf (s.fpu.st 0#3) = false → w = tOne) := by
  have run := (tanOp_there (s := s.npxAt .fptan none) there new small).trans (withPush_room room)
  obtain ⟨v, -, ends⟩ := (runs_fptan ready).pushes run (State.delivers_of_masked masked _ _)
  refine ⟨v, _, ends.any, fun number inf => ?_⟩
  rw [Res.second, State.npxAt_st, trigRes_valid number inf, number.nan]
  rfl

theorem tan287_masked (old : s.n287 = true) : ∃ v w, s.Pushes .fptan v w fun _ => True := by
  have run := (tanOp_287 (s := s.npxAt .fptan none) there old).trans (withPush_room room)
  obtain ⟨v, -, ends⟩ := (runs_fptan ready).pushes run (State.delivers_of_masked masked _ _)
  exact ⟨v, _, ends.any⟩

end

end

/-! F2XM1. -/

theorem exp2_exact {v : Temp} (is : exp2Res s (s.fpu.st 0#3) = .exact v)
    (calm : s.calm (tIsDenormal (s.fpu.st 0#3)) = true) : s.Replaces .f2xm1 v fun _ => True :=
  ((runs_f2xm1 ready).replaces_exact is calm (exp2Op_there (s := s.npxAt .f2xm1 none) there)).any

theorem exp2_masked (masked : ∀ j < 6, s.npxMask j = true) : ∃ v, s.Replaces .f2xm1 v fun _ => True := by
  obtain ⟨v, -, ends⟩ :=
    (runs_f2xm1 ready).replaces (exp2Op_there (s := s.npxAt .f2xm1 none) there) (State.delivers_of_masked masked _ _)
  exact ⟨v, ends.any⟩

/-! FYL2X, FYL2XP1 and FPATAN. -/

section

variable {f : State → Temp → Temp → Res} {r : Res} (runs : s.Runs i none (binaryOp f))
  (second : s.fpu.isEmpty 1#3 = false) (is : f (s.npxAt i none) (s.fpu.st 0#3) (s.fpu.st 1#3) = r)
include runs second is
omit ready

theorem binary_delivers (ok : s.delivers (tIsDenormal (s.fpu.st 0#3) || tIsDenormal (s.fpu.st 1#3)) r = true) :
    ∃ v, r.Gives v ∧ s.Pops i v (r.Reported onlyC1 s.fpu.status) := by
  have run := binaryOp_there (s := s.npxAt i none) (f := f) there second
  rw [State.npxAt_st, State.npxAt_st, is] at run
  exact runs.pops run ok

theorem binary_exact {v : Temp} (exact_ : r = .exact v)
    (calm : s.calm (tIsDenormal (s.fpu.st 0#3) || tIsDenormal (s.fpu.st 1#3)) = true) : s.Pops i v fun _ => True := by
  subst exact_
  obtain ⟨_, rfl, ends⟩ := binary_delivers there runs second is (s.delivers_exact v calm)
  exact ends.any

theorem binary_masked (masked : ∀ j < 6, s.npxMask j = true) : ∃ v, r.Gives v ∧ s.Pops i v fun _ => True := by
  obtain ⟨v, gives, ends⟩ := binary_delivers there runs second is (State.delivers_of_masked masked _ _)
  exact ⟨v, gives, ends.any⟩

end

end

end

end Sys2Proof.Machine
end

section
/-! Stack faults of the instructions over the register stack (R476), and the statement about all of them. -/

namespace Sys2Proof.Machine

variable {s : State} {i : Instr}

/-! What the faults of several rows have in common. -/

theorem push_overflows {m : M Unit} {v : Temp} {c : Codes} (runs : s.Runs i none m)
    (run : m (s.npxAt i none) = pushTemp v false c (s.npxAt i none)) (full : s.fpu.isEmpty 7#3 = false) :
    s.Overflows i := runs.overflows (run.trans (pushTemp_full (s := s.npxAt i none) full)) s.calm_false

/-- An underflow of an instruction whose only operand is not there. -/
theorem underflows_alone {m : M Unit} {dst : BitVec 3} {pops : Bool} (runs : s.Runs i none m)
    (run : m (s.npxAt i none) = underflowTo false [] false (putSt dst pops) (s.npxAt i none)) :
    s.Underflows i dst pops := runs.underflows run s.calm_false fun _ mem => absurd mem List.not_mem_nil

theorem arith_underflows_of_runs {k : BitVec 3} {op : ArOp} {rev e pops : Bool}
    (runs : s.Runs i none (arithSt op rev e k pops)) (empty : s.fpu.isEmpty 0#3 = true ∨ s.fpu.isEmpty k = true)
    (h0 : s.fpu.isEmpty 0#3 = false → s.Quiet (s.fpu.st 0#3))
    (hk : s.fpu.isEmpty k = false → s.Quiet (s.fpu.st k)) :
    s.Underflows i (if e then k else 0#3) pops := by
  refine runs.underflowsPair (arithSt_empty op rev e pops (s := s.npxAt i none) empty) ?_ ?_
  · cases e
    · exact h0
    · exact hk
  · cases e
    · exact hk
    · exact h0

section

variable (ready : s.npxReady = true)
include ready

/-! A push onto a register that is not empty. -/

theorem fldSt_overflows {k : BitVec 3} (full : s.fpu.isEmpty 7#3 = false) (there : s.fpu.isEmpty k = false) :
    s.Overflows (.fldSt k) := by
  have run : loadSt k (s.npxAt (.fldSt k) none) = pushTemp (s.fpu.st k) false noCodes (s.npxAt (.fldSt k) none) := by
    simp only [loadSt, M.bind_run, getS_run, State.npxAt_isEmpty, there, Bool.false_eq_true, if_false]
    rfl
  exact push_overflows (.reg ready rfl) run full

theorem constants_overflow (full : s.fpu.isEmpty 7#3 = false)
    (row : i ∈ ([.fldz, .fld1, .fldpi, .fldl2t, .fldl2e, .fldlg2, .fldln2] : List Instr)) : s.Overflows i := by
  have exact_ (v : Temp) (runs : s.Runs i none (loadExact v)) : s.Overflows i := push_overflows runs rfl full
  have rounded (k : NpxConst) (runs : s.Runs i none (loadConst k)) : s.Overflows i := push_overflows runs rfl full
  simp only [List.mem_cons, List.not_mem_nil, or_false] at row
  obtain rfl | rfl | rfl | rfl | rfl | rfl | rfl := row
  · exact exact_ (tZero false) (.reg ready rfl)
  · exact exact_ tOne (.reg ready rfl)
  · exact rounded .pi (.reg ready rfl)
  · exact rounded .l2t (.reg ready rfl)
  · exact rounded .l2e (.reg ready rfl)
  · exact rounded .lg2 (.reg ready rfl)
  · exact rounded .ln2 (.reg ready rfl)

/-! An operand that is not there. -/

theorem unary_underflows (empty : s.fpu.isEmpty 0#3 = true)
    (row : i ∈ ([.fsqrt, .frndint, .fabs, .fchs, .f2xm1, .fsin, .fcos] : List Instr)) : s.Underflows i 0#3 false := by
  simp only [List.mem_cons, List.not_mem_nil, or_false] at row
  obtain rfl | rfl | rfl | rfl | rfl | rfl | rfl := row
  · exact underflows_alone (.reg ready rfl) (unary_empty (s := s.npxAt .fsqrt none) empty _)
  · exact underflows_alone (.reg ready rfl) (unary_empty (s := s.npxAt .frndint none) empty _)
  · exact underflows_alone (.reg ready rfl) (signOp_empty (s := s.npxAt .fabs none) empty tAbs)
  · exact underflows_alone (.reg ready rfl) (signOp_empty (s := s.npxAt .fchs none) empty tNeg)
  · exact underflows_alone (runs_f2xm1 ready) (exp2Op_empty (s := s.npxAt .f2xm1 none) empty)
  · exact underflows_alone (runs_fsin ready) (trigOp_empty (s := s.npxAt .fsin none) empty _ _)
  · exact underflows_alone (runs_fcos ready) (trigOp_empty (s := s.npxAt .fcos none) empty _ _)

theorem store_underflows (empty : s.fpu.isEmpty 0#3 = true) (k : BitVec 3) :
    s.Underflows (.fstSt k) k false ∧ s.Underflows (.fstpSt k) k true :=
  ⟨underflows_alone (.reg ready rfl) (storeSt_empty (s := s.npxAt (.fstSt k) none) empty k false),
    underflows_alone (.reg ready rfl) (storeSt_empty (s := s.npxAt (.fstpSt k) none) empty k true)⟩

section

variable {k : BitVec 3} (empty : s.fpu.isEmpty 0#3 = true ∨ s.fpu.isEmpty k = true)
  (h0 : s.fpu.isEmpty 0#3 = false → s.Quiet (s.fpu.st 0#3)) (hk : s.fpu.isEmpty k = false → s.Quiet (s.fpu.st k))
include empty h0 hk

theorem arith_underflows {e : Bool}
    (row : i ∈ ([.faddSt e k, .fsubSt e k, .fsubrSt e k, .fmulSt e k, .fdivSt e k, .fdivrSt e k] : List Instr)) :
    s.Underflows i (if e then k else 0#3) false := by
  have done (op : ArOp) (rev : Bool) (runs : s.Runs i none (arithSt op rev e k false)) :=
    arith_underflows_of_runs runs empty h0 hk
  simp only [List.mem_cons, List.not_mem_nil, or_false] at row
  obtain rfl | rfl | rfl | rfl | rfl | rfl := row
  · exact done .add false (.reg ready rfl)
  · exact done .sub false (.reg ready rfl)
  · exact done .sub true (.reg ready rfl)
  · exact done .mul false (.reg ready rfl)
  · exact done .div false (.reg ready rfl)
  · exact done .div true (.reg ready rfl)

theorem arithPop_underflows
    (row : i ∈ ([.faddp k, .fsubp k, .fsubrp k, .fmulp k, .fdivp k, .fdivrp k] : List Instr)) :
    s.Underflows i k true := by
  have done (op : ArOp) (rev : Bool) (runs : s.Runs i none (arithSt op rev true k true)) :=
    arith_underflows_of_runs runs empty h0 hk
  simp only [List.mem_cons, List.not_mem_nil, or_false] at row
  obtain rfl | rfl | rfl | rfl | rfl | rfl := row
  · exact done .add false (.reg ready rfl)
  · exact done .sub false (.reg ready rfl)
  · exact done .sub true (.reg ready rfl)
  · exact done .mul false (.reg ready rfl)
  · exact done .div false (.reg ready rfl)
  · exact done .div true (.reg ready rfl)

end

section

variable (empty : s.fpu.isEmpty 0#3 = true ∨ s.fpu.isEmpty 1#3 = true)
  (h0 : s.fpu.isEmpty 0#3 = false → s.Quiet (s.fpu.st 0#3)) (h1 : s.fpu.isEmpty 1#3 = false → s.Quiet (s.fpu.st 1#3))
include empty h0 h1

theorem scale_underflows (row : i ∈ ([.fscale, .fprem, .fprem1] : List Instr)) : s.Underflows i 0#3 false := by
  simp only [List.mem_cons, List.not_mem_nil, or_false] at row
  obtain rfl | rfl | rfl := row
  · exact State.Runs.underflowsPair (.reg ready rfl) (scaleOp_empty (s := s.npxAt .fscale none) empty) h0 h1
  · exact State.Runs.underflowsPair (.reg ready rfl) (premOp_empty (s := s.npxAt .fprem none) empty false) h0 h1
  · exact State.Runs.underflowsPair (.reg ready rfl) (premOp_empty (s := s.npxAt .fprem1 none) empty true) h0 h1

theorem binary_underflows (row : i ∈ ([.fpatan, .fyl2x, .fyl2xp1] : List Instr)) : s.Underflows i 1#3 true := by
  have done {f : State → Temp → Temp → Res} (runs : s.Runs i none (binaryOp f)) : s.Underflows i 1#3 true :=
    runs.underflowsPair (binaryOp_empty (s := s.npxAt i none) empty f) h1 h0
  simp only [List.mem_cons, List.not_mem_nil, or_false] at row
  obtain rfl | rfl | rfl := row
  · exact done (runs_fpatan ready)
  · exact done (runs_fyl2x ready)
  · exact done (runs_fyl2xp1 ready)

end

end

/-! Completion. -/

theorem stackOp_completes (row : Instr.npxStackOp i = true) (ready : s.npxReady = true) :
    ∃ (f : Fpu) (l : NpxLink) (d : Nat), exec i s = .next (s.npxDone f l d) := by
  obtain ⟨m, total, shape⟩ := exec_npxStackOp row
  obtain ⟨_, f, d, run⟩ := total (s.npxAt i none)
  obtain same | same := shape
  · obtain ⟨l, done⟩ := npxReg_ok ready run
    exact ⟨f.settled, l, d, (same s).trans done⟩
  · exact ⟨f, s.link, d, (same s).trans (npxStack_ok ready run)⟩

theorem stackOp_missing (row : Instr.npxStackOp i = true) (missing : s.npxMissing = true) :
    exec i s = .next s.advance := by
  obtain ⟨m, -, shape⟩ := exec_npxStackOp row
  obtain ⟨reg, stack⟩ := npxReg_missing (i := i) (m := m) missing
  obtain same | same := shape
  · exact (same s).trans reg
  · exact (same s).trans stack

/-- Without a number of at least 2^63 there is no reduction to be made, the exceptions being masked. -/
theorem tooLarge_of_not {a : Temp} (masked : ∀ j < 6, s.npxMask j = true)
    (not : ¬ ((((tIsNan a = false ∧ tUnsupported a = false ∧ (tIsDenormal a = true → s.npxMask 1 = true)) ∧
      tIsInf a = false) ∧ 16446 ≤ tExp a))) : tooLarge a = false :=
  Bool.eq_false_iff.mpr fun large => by
    obtain ⟨number, inf, exp⟩ := tooLarge_iff.mp large
    exact not ⟨⟨⟨number.nan, number.supported, fun _ => masked 1 (by decide)⟩, inf⟩, exp⟩

theorem calm_pair {a b : Temp} (ha : s.Quiet a) (hb : s.Quiet b) :
    s.calm (tIsDenormal a || tIsDenormal b) = true :=
  s.calm_of_imp fun den => (Bool.or_eq_true _ _ ▸ den).elim ha.calm hb.calm

/-- The statement's words for an operand that does not disturb a stack fault. -/
theorem State.quiet_of {s : State} {p : Prop} {a : Temp}
    (h : p → tIsNan a = false ∧ tUnsupported a = false ∧ (tIsDenormal a = true → s.npxMask 1 = true)) :
    p → s.Quiet a := fun there => by
  obtain ⟨nan, supported, calm⟩ := h there
  exact ⟨⟨nan, supported⟩, calm⟩

/-! FYL2X and FYL2XP1 of numbers. -/

section

variable (ready : s.npxReady = true) (there : s.fpu.isEmpty 0#3 = false) (second : s.fpu.isEmpty 1#3 = false)
  (ha : s.Quiet (s.fpu.st 0#3)) (hy : s.Quiet (s.fpu.st 1#3))
include ready there second ha hy

theorem yl2x_power {n : Int} (low : -16382 ≤ n) (high : n ≤ 16383) (hx : s.fpu.st 0#3 = powTwo n)
    (h1 : s.fpu.st 1#3 = tOne) : s.Pops .fyl2x (ofInt n) fun _ => True := by
  refine binary_exact there (runs_fyl2x ready) second rfl ?_ (calm_pair ha hy)
  rw [h1]
  by_cases one : s.fpu.st 0#3 = tOne
  · have n0 : n = 0 := by
      have logs := log2Exact_powTwo low high
      rw [← hx, one, tOne_eq, log2Exact_powTwo (by decide) (by decide)] at logs
      exact (Option.some.inj logs).symm
    rw [one, yl2xRes_one ⟨by decide, by decide⟩ (by decide), n0]
    decide
  · exact yl2xRes_exact ha.toIsNumber (by rw [hx]; exact log2Exact_powTwo low high) one

theorem yl2x_zero (zero : tIsZero (s.fpu.st 0#3) = true) (nonzero : tIsZero (s.fpu.st 1#3) = false)
    (inf : tIsInf (s.fpu.st 1#3) = false) (mask : s.npxMask 2 = true) :
    s.Pops .fyl2x (tInf (!tSign (s.fpu.st 1#3))) fun t => t.ze = true := by
  obtain ⟨_, rfl, ends⟩ := binary_delivers there (runs_fyl2x ready) second (yl2xRes_zero zero hy.toIsNumber nonzero inf)
    (Bool.and_eq_true_iff.mpr ⟨calm_pair ha hy, mask⟩)
  exact ends.mono fun _ reported => reported.zeroDivide _ rfl

theorem yl2x_negative (sign : tSign (s.fpu.st 0#3) = true) (nonzero : tIsZero (s.fpu.st 0#3) = false)
    (mask : s.npxMask 0 = true) : s.Pops .fyl2x realIndefinite fun t => t.ie = true := by
  obtain ⟨_, rfl, ends⟩ := binary_delivers there (runs_fyl2x ready) second
    (yl2xRes_negative ha.toIsNumber hy.toIsNumber sign nonzero) (Bool.and_eq_true_iff.mpr ⟨calm_pair ha hy, mask⟩)
  exact ends.mono fun _ reported => reported.invalid rfl

theorem yl2xp1_zero (zero : tIsZero (s.fpu.st 0#3) = true) (inf : tIsInf (s.fpu.st 1#3) = false) :
    s.Pops .fyl2xp1 (tZero (tSign (s.fpu.st 0#3) ^^ tSign (s.fpu.st 1#3))) fun _ => True :=
  binary_exact there (runs_fyl2xp1 ready) second rfl (yl2xp1Res_zero zero hy.toIsNumber inf) (calm_pair ha hy)

end

/-- An infinity as the statement writes it. -/
theorem tInf_not (neg : Bool) : tInf (!neg) =
    if neg then 0x7FFF8000000000000000#80 else 0x7FFF8000000000000000#80 ||| 0x80000000000000000000#80 := by
  cases neg <;> rfl

/-- Settles O40: each clause is an instruction's result, delivered, or its stack fault. -/
theorem npxStackComplete : Obligations.NpxStackComplete := by
  intro i s k n e
  refine ⟨fun row => ⟨stackOp_completes row, stackOp_missing row⟩, ?_, ?_, ?_, ?_, ?_, ?_, ?_⟩
  · intro ready there
    refine ⟨fun zero => ⟨?_, ?_, ?_⟩, fun zero room => ⟨?_, ?_, ?_⟩, ?_, ?_, ?_, ?_, ?_⟩
    · exact trig_zero there (runs_fsin ready) zero
    · exact trig_zero there (runs_fcos ready) zero
    · exact exp2_exact ready there (exp2Res_zero zero) (calm_of_zero zero)
    · exact sincos_zero ready there room zero
    · exact fun new => tan_zero ready there room new zero
    · exact fun old => tan287_zero ready there room old zero
    · intro new one
      exact exp2_exact ready there (by rw [one]; exact exp2Res_one new) (by rw [one]; rfl)
    · intro new one
      exact exp2_exact ready there (by rw [one]; exact exp2Res_negOne new) (by rw [one]; rfl)
    · rintro ⟨⟨⟨nan, supported, -⟩, inf⟩, exp⟩
      have large : tooLarge (s.fpu.st 0#3) = true := tooLarge_iff.mpr ⟨⟨nan, supported⟩, inf, exp⟩
      exact ⟨trig_large there (runs_fsin ready) large, trig_large there (runs_fcos ready) large,
        sincos_large ready there large, fun new => tan_large ready there new large⟩
    · intro masked not
      have small := tooLarge_of_not masked not
      exact ⟨trig_masked there (runs_fsin ready) masked small, trig_masked there (runs_fcos ready) masked small,
        fun room => sincos_masked ready there room masked small⟩
    · intro masked
      refine ⟨exp2_masked ready there masked, fun room new not => ?_,
        fun room old => tan287_masked ready there room masked old⟩
      obtain ⟨v, w, ends, one⟩ := tan_masked ready there room masked new (tooLarge_of_not masked not)
      exact ⟨v, w, ends, fun ⟨⟨nan, supported, _⟩, inf⟩ => one ⟨nan, supported⟩ inf⟩
  · rintro ready there second ⟨nanA, supportedA, calmA⟩ ⟨nanY, supportedY, calmY⟩
    have ha : s.Quiet (s.fpu.st 0#3) := ⟨⟨nanA, supportedA⟩, calmA⟩
    have hy : s.Quiet (s.fpu.st 1#3) := ⟨⟨nanY, supportedY⟩, calmY⟩
    have calm := calm_pair ha hy
    refine ⟨?_, ?_, ?_, ?_, ?_, ?_, ?_⟩
    · intro one inf
      exact binary_exact there (runs_fyl2x ready) second rfl (by rw [one]; exact yl2xRes_one hy.toIsNumber inf) calm
    · intro low high power one
      exact yl2x_power ready there second ha hy low high power one
    · intro zero nonzero inf mask
      have ends := yl2x_zero ready there second ha hy zero nonzero inf mask
      rw [tInf_not] at ends
      exact ends
    · exact yl2x_negative ready there second ha hy
    · intro zero inf
      exact ⟨_, yl2xp1_zero ready there second ha hy zero inf, fun signA signY => by rw [signA, signY]; rfl⟩
    · intro zero sign nonzero inf
      exact binary_exact there (runs_fpatan ready) second rfl (atanRes_zero ha.toIsNumber zero sign nonzero inf) calm
    · intro masked new
      obtain ⟨v, gives, ends⟩ := binary_masked there (runs_fpatan ready) second rfl masked
      exact ⟨v, ends, atanRes_gives ha.toIsNumber hy.toIsNumber new (masked 4 (by decide)) gives⟩
  · intro ready there second masked
    have done {i : Instr} {f : State → Temp → Temp → Res} (runs : s.Runs i none (binaryOp f)) :
        ∃ v, s.Pops i v fun _ => True := by
      obtain ⟨v, -, ends⟩ := binary_masked there runs second rfl masked
      exact ⟨v, ends⟩
    exact ⟨done (runs_fpatan ready), done (runs_fyl2x ready), done (runs_fyl2xp1 ready)⟩
  · exact fun ready full => ⟨fldSt_overflows ready full, constants_overflow ready full⟩
  · exact fun ready empty => ⟨unary_underflows ready empty, store_underflows ready empty k⟩
  · intro ready empty h0 hk
    have q0 := s.quiet_of h0
    have qk := s.quiet_of hk
    exact ⟨arith_underflows ready empty q0 qk, arithPop_underflows ready empty q0 qk⟩
  · intro ready empty h0 h1
    have q0 := s.quiet_of h0
    have q1 := s.quiet_of h1
    exact ⟨scale_underflows ready empty q0 q1, binary_underflows ready empty q0 q1⟩

end Sys2Proof.Machine
end

section
/-! The numbers that a memory operand stands for (R471, R483, R486): integers and reals are of a supported class, and
packed decimal has the value of its digits. -/

namespace Sys2Proof.Machine

variable {neg : Bool} {m : Nat} {x : Int}

/-! Classes of what is put together. -/

theorem class_tZero (neg : Bool) : tClass (tZero neg) = .zero := by cases neg <;> decide

/-- The significand of a number of at most 64 bits, moved to the top. -/
theorem aligned_sig (some : m ≠ 0) (small : m < 2 ^ 64) :
    bitLen m ≤ 64 ∧ 2 ^ 63 ≤ m * 2 ^ (64 - bitLen m) ∧ m * 2 ^ (64 - bitLen m) < 2 ^ 64 := by
  have least : 2 ^ m.log2 ≤ m := Nat.log2_self_le some
  have most : m < 2 ^ (m.log2 + 1) := Nat.lt_log2_self
  have bits : m.log2 < 64 := (Nat.log2_lt some).mpr small
  have len : bitLen m = m.log2 + 1 := by rw [bitLen, if_neg some]
  rw [len]
  refine ⟨bits, ?_, ?_⟩
  · calc 2 ^ 63 = 2 ^ m.log2 * 2 ^ (64 - (m.log2 + 1)) := by rw [← pow_add]; congr 1; omega
      _ ≤ m * 2 ^ (64 - (m.log2 + 1)) := Nat.mul_le_mul_right _ least
  · calc m * 2 ^ (64 - (m.log2 + 1)) < 2 ^ (m.log2 + 1) * 2 ^ (64 - (m.log2 + 1)) :=
          Nat.mul_lt_mul_of_pos_right most (Nat.two_pow_pos _)
      _ = 2 ^ 64 := by rw [← pow_add]; congr 1; omega

/-- A number in the range of the normal ones is one. -/
theorem packTemp_normal (some : m ≠ 0) (small : m < 2 ^ 64) (low : -16382 ≤ x + bitLen m - 1)
    (high : x + bitLen m - 1 < 16384) : tClass (packTemp neg m x) = .normal := by
  obtain ⟨len, least, most⟩ := aligned_sig some small
  rw [packTemp, if_neg some, if_neg (by omega), if_pos len]
  exact mkTemp_normal (by omega) (by omega) least most

/-- A zero and a normal number are numbers. -/
theorem isNumber_of_class {v : Temp} (h : tClass v = .zero ∨ tClass v = .normal) : IsNumber v := by
  obtain h | h := h <;> constructor <;> simp [tIsNan, tUnsupported, h]

theorem isNumber_ofInt {n : Int} (small : n.natAbs < 2 ^ 64) : IsNumber (ofInt n) := by
  refine isNumber_of_class ?_
  rw [ofInt]
  by_cases zero : n.natAbs = 0
  · rw [zero, packTemp, if_pos rfl]
    exact .inl (class_tZero _)
  · obtain ⟨len, -, -⟩ := aligned_sig zero small
    exact .inr (packTemp_normal zero small (by omega) (by omega))

theorem isNumber_toInt {w : Nat} (v : BitVec w) (fits : w ≤ 64) : IsNumber (ofInt v.toInt) := by
  have low := BitVec.le_toInt v
  have high := BitVec.toInt_lt (x := v)
  have width : (2 : Int) ^ (w - 1) ≤ 2 ^ 63 := pow_le_pow_right₀ (by decide) (by omega)
  exact isNumber_ofInt (by omega)

/-! Packed decimal (R486). -/

/-- A decimal digit of a number whose bytes are BCD. -/
def bcdDigit (n k : Nat) : Nat := n / 16 ^ k % 16

theorem bcdDigit_cons (b : Byte) (n : Nat) (k : Nat) : bcdDigit (b.toNat + 256 * n) (k + 2) = bcdDigit n k := by
  have byte := b.isLt
  have shift : (b.toNat + 256 * n) / 256 = n := by omega
  have power : (16 : Nat) ^ (k + 2) = 256 * 16 ^ k := by ring
  rw [bcdDigit, bcdDigit, power, ← Nat.div_div_eq_div_mul, shift]

/-- BCD bytes stand for the sum of their digits (R486). -/
theorem bcdVal_digits : ∀ bs : List Byte, (∀ k < 2 * bs.length, bcdDigit (leNat bs) k < 10) →
    bcdVal bs = some ((List.range (2 * bs.length)).map fun k => bcdDigit (leNat bs) k * 10 ^ k).sum
  | [], _ => rfl
  | b :: rest, h => by
    have byte := b.isLt
    have lo : bcdDigit (leNat (b :: rest)) 0 = b.toNat % 16 := by
      rw [bcdDigit, leNat]; omega
    have hi : bcdDigit (leNat (b :: rest)) 1 = b.toNat / 16 := by
      rw [bcdDigit, leNat]; omega
    have tail (k : Nat) : bcdDigit (leNat (b :: rest)) (k + 2) = bcdDigit (leNat rest) k := bcdDigit_cons b _ k
    have length : 2 * (b :: rest).length = 2 * rest.length + 2 := by simp; omega
    have ih := bcdVal_digits rest fun k less => by
      rw [← tail]; exact h _ (by omega)
    have first : b.toNat % 16 < 10 ∧ b.toNat / 16 < 10 := by
      rw [← lo, ← hi]; exact ⟨h 0 (by omega), h 1 (by omega)⟩
    rw [bcdVal, ih, length, List.range_succ_eq_map, List.range_succ_eq_map]
    have power (k : Nat) : (10 : Nat) ^ (k + 1 + 1) = 100 * 10 ^ k := by ring
    simp only [first, and_self, if_true, List.map_cons, List.map_map, List.sum_cons, Function.comp_def,
      Nat.succ_eq_add_one, lo, hi, zero_add, tail, pow_zero, mul_one, pow_one, power]
    simp only [Nat.mul_left_comm _ 100, List.sum_map_mul_left]
    congr 1
    omega

/-- The bytes before the last of ten, and the sign in the last. -/
theorem leNat_sign (bs : List Byte) (length : bs.length = 10) :
    (leNat bs).testBit 79 = decide (128 ≤ leNat (bs.drop 9)) := by
  match bs, length with
  | [b0, b1, b2, b3, b4, b5, b6, b7, b8, b9], _ =>
    have := b0.isLt; have := b1.isLt; have := b2.isLt; have := b3.isLt; have := b4.isLt
    have := b5.isLt; have := b6.isLt; have := b7.isLt; have := b8.isLt; have := b9.isLt
    rw [Nat.testBit_eq_decide_div_mod_eq, decide_eq_decide]
    simp only [leNat, List.drop_succ_cons, List.drop_zero]
    omega

theorem State.bytesAt_take (s : State) (lin : BitVec 32) (n k : Nat) :
    (s.bytesAt lin (n + k)).take n = s.bytesAt lin n := by
  induction n generalizing lin with
  | zero => rfl
  | succ n ih =>
    rw [Nat.add_right_comm, State.bytesAt, State.bytesAt, List.take_succ_cons, ih]

/-! Reals (R471, R483). -/

/-- A number with all ones in the exponent and the integer bit is an infinity or a NaN. -/
theorem mkTemp_top_supported {sig : Nat} (top : 2 ^ 63 ≤ sig) (small : sig < 2 ^ 64) :
    tUnsupported (mkTemp neg 32767 sig) = false := by
  have exp : tExp (mkTemp neg 32767 sig) = 32767 := mkTemp_exp (by decide)
  have bit : bitOf (mkTemp neg 32767 sig) 63 = true := by rw [integerBit, mkTemp_sig small, decide_eq_true top]
  simp only [tUnsupported, tClass, exp, bit, Bool.not_true, Bool.false_eq_true, if_false, if_true]
  split_ifs <;> rfl

/-- A number whose exponent is that of a short or long real is of a supported class. -/
theorem packTemp_supported (some : m ≠ 0) (small : m < 2 ^ 64) (low : -3000 ≤ x) (high : x ≤ 3000) :
    tUnsupported (packTemp neg m x) = false := by
  obtain ⟨len, -, -⟩ := aligned_sig some small
  exact (isNumber_of_class (.inr (packTemp_normal some small (by omega) (by omega)))).supported

/-- A real of a memory format is of a supported class. -/
theorem ofReal_supported {f : RealFmt} (least : 1 ≤ f.p) (most : f.p ≤ 64) (exps : f.ebits ≤ 11) (v : Nat) :
    tUnsupported (ofReal f false v).1 = false := by
  have frac : v % 2 ^ (f.p - 1) < 2 ^ (f.p - 1) := Nat.mod_lt _ (Nat.two_pow_pos _)
  have aligned : 2 ^ (f.p - 1) * 2 ^ (64 - f.p) = 2 ^ 63 := by rw [← pow_add]; congr 1; omega
  have top : v % 2 ^ (f.p - 1) * 2 ^ (64 - f.p) < 2 ^ 63 := by
    rw [← aligned]
    exact Nat.mul_lt_mul_of_pos_right frac (Nat.two_pow_pos _)
  have half : 2 ^ (f.p - 1) ≤ 2 ^ 63 := Nat.pow_le_pow_right (by decide) (by omega)
  have bias : f.bias < 1024 := by
    have := Nat.pow_le_pow_right (n := 2) (by decide) (show f.ebits - 1 ≤ 10 by omega)
    rw [RealFmt.bias]; omega
  have exp : v / 2 ^ (f.p - 1) % 2 ^ f.ebits < 2048 :=
    lt_of_lt_of_le (Nat.mod_lt _ (Nat.two_pow_pos _)) (Nat.pow_le_pow_right (by decide) exps)
  unfold ofReal
  simp only [Bool.false_eq_true, if_false]
  split_ifs with ones none zero <;> dsimp only
  · exact mkTemp_top_supported (by omega) (by omega)
  · exact (isNumber_of_class (.inl (class_tZero _))).supported
  · exact packTemp_supported zero (by omega) (by omega) (by omega)
  · exact packTemp_supported (by omega) (by omega) (by omega) (by omega)

end Sys2Proof.Machine
end

section
/-! The loads and the arithmetic with a number from memory (R483 to R486, R514 to R520): what a load pushes, and the stack
faults of both. -/

namespace Sys2Proof.Machine

variable {s : State} {i : Instr} {o : MemOp}

/-! What is read is read before anything changes. -/

theorem State.npxAt_bytes (k : Instr) (q : Option MemOp) (lin : BitVec 32) (n : Nat) :
    (s.npxAt k q).bytesAt lin n = s.bytesAt lin n :=
  State.bytesAt_congr (s := s) (t := s.npxAt k q) rfl rfl lin n

/-- The number that the bytes of an operand stand for. -/
def State.bits (s : State) (o : MemOp) (n : Nat) : Nat := leNat (s.bytesAt (s.linOf (s.memSeg o) (s.ea o)) n)

theorem State.npxAt_numAt (k : Instr) (f : NumFmt) (keep : Bool) :
    (s.npxAt k (some o)).numAt f o keep = f.load keep (s.bits o f.bytes) :=
  congrArg (fun bs => f.load keep (leNat bs)) (State.npxAt_bytes k (some o) _ _)

theorem State.npxAt_reaches {n al : Nat} {write : Bool} (k : Instr) (reach : s.npxReaches o n write al = true) :
    (s.npxAt k (some o)).npxReaches o n write al = true := (s.npxReaches_npx _ _ o n write al).trans reach

theorem readMemBytes_at {n al : Nat} (k : Instr) (reach : s.npxReaches o n false al = true) :
    readMemBytes o n al (s.npxAt k (some o)) =
      .ok (s.bytesAt (s.linOf (s.memSeg o) (s.ea o)) n) (s.npxAt k (some o)) := by
  rw [readMemBytes_ok (State.npxAt_reaches k reach), State.npxAt_bytes]
  rfl

theorem readNum_at {f : NumFmt} (k : Instr) (keep : Bool) (reach : s.npxReaches o f.bytes false f.bytes = true) :
    readNum f o keep (s.npxAt k (some o)) = .ok (f.load keep (s.bits o f.bytes)) (s.npxAt k (some o)) := by
  rw [readNum_ok keep (State.npxAt_reaches k reach), State.npxAt_numAt]

/-! A push onto an empty register. -/

/-- IE and DE after a load: what was set stays. -/
def State.Raised (s : State) (ie de : Bool) (t : FpuStatus) : Prop :=
  t.ie = (s.fpu.status.ie || ie) ∧ t.de = (s.fpu.status.de || de)

/-- A load that an exception that is not masked stops. -/
def State.Stopped (s : State) (i : Instr) (ie de : Bool) : Prop :=
  s.Unchanged i fun t => t.ie = (s.fpu.status.ie || ie) ∧ t.de = (s.fpu.status.de || de) ∧ t.es = true

section

variable {q : Option MemOp} {m : M Unit}

/-- The coprocessor after a push of a value that was not there. -/
structure State.PushedOne (s : State) (v : Temp) (ie de : Bool) (f : Fpu) : Prop where
  cw : f.cw = s.fpu.cw
  regs : f.regs = s.fpu.regs.set (s.fpu.status.top - 1#3) v
  top : f.status.top = s.fpu.status.top - 1#3
  tags : f.tags = s.fpu.tags.set (s.fpu.status.top - 1#3) (tTag v)
  raised : s.Raised ie de f.status

/-- A push behind what is raised. -/
theorem State.pushedOne_of_raised {v : Temp} {ie de : Bool} {t : FpuStatus} (raised : s.Raised ie de t)
    (top : t.top = s.fpu.status.top) : s.PushedOne v ie de (((s.npxAt i q).fpu.withStatus t).pushRaw v) where
  cw := rfl
  regs := by rw [Fpu.pushRaw_regs, Fpu.withStatus_status, top]; rfl
  top := by rw [Fpu.pushRaw_status, Fpu.withStatus_status, top]
  tags := by rw [Fpu.pushRaw_tags, Fpu.withStatus_status, top]; rfl
  raised := raised

/-- A computation that pushes. -/
theorem State.Runs.pushesOne {v : Temp} {ie de : Bool} (runs : s.Runs i q m)
    (h : Becomes m (s.npxAt i q) (s.PushedOne v ie de)) : s.PushesOne i v (s.Raised ie de) := by
  obtain ⟨_, leaves, cw, regs, top, tags, raised⟩ := runs _ h
  exact leaves.endsWith cw regs top tags raised

theorem es_of_unmasked {f : Fpu} (pending : f.unmasked = true) : f.settled.status.es = true := by
  show (f.status.es || f.unmasked) = true
  rw [pending, Bool.or_true]

/-- A computation that stops at an exception that is not masked. -/
theorem State.Runs.stopped {ie de : Bool} (runs : s.Runs i q m)
    (h : Becomes m (s.npxAt i q) fun f => ∃ t : FpuStatus, s.Raised ie de t ∧ t.top = s.fpu.status.top ∧
      f = (s.npxAt i q).fpu.withStatus t ∧ f.unmasked = true) : s.Stopped i ie de := by
  obtain ⟨_, leaves, t, raised, top, rfl, pending⟩ := runs _ h
  obtain ⟨isIe, isDe⟩ := raised
  exact State.Leaves.endsWith (c := fun u => u.ie = _ ∧ u.de = _ ∧ u.es = true) leaves rfl rfl top rfl
    ⟨isIe, isDe, es_of_unmasked pending⟩

/-- A value, perhaps a drawn one, that is pushed as it is. -/
theorem State.Runs.pushTemp {v : Temp} {den : Bool} {c : Codes} {drawn : Nat} (runs : s.Runs i q m)
    (run : m (s.npxAt i q) = Machine.pushTemp v den c ((s.npxAt i q).setDraws drawn))
    (room : s.fpu.isEmpty 7#3 = true) : s.PushesOne i v (s.Raised false false) := by
  have free : ((s.npxAt i q).setDraws drawn).fpu.full = false := by
    rw [State.setDraws_fpu, Fpu.full, State.npxAt_isEmpty, room]; rfl
  obtain ⟨t, d, coded, sets⟩ := setCodes_run c ((s.npxAt i q).npx ((s.npxAt i q).fpu.pushRaw v) drawn)
  refine runs.pushesOne (.of_run (f := ((s.npxAt i q).fpu.pushRaw v).withStatus t) (d := d) ?_ ?_)
  · rw [run]
    simp only [Machine.pushTemp, M.bind_run, getS_run, free, Bool.false_eq_true, if_false]
    exact sets
  · have pushed := State.pushedOne_of_raised (s := s) (i := i) (q := q) (v := v) (ie := false) (de := false)
      (t := s.fpu.status) (And.intro (Bool.or_false _).symm (Bool.or_false _).symm) rfl
    exact ⟨pushed.cw, pushed.regs, coded.top.trans pushed.top, pushed.tags, coded.ie.trans pushed.raised.1,
      coded.de.trans pushed.raised.2⟩

end

/-! FLD and FILD of a number in memory (R483, R484). -/

/-- A denormal that is not masked sets ES. -/
theorem Fpu.unmasked_of_de {f : Fpu} (de : f.status.de = true) (mask : cwMask f.cw 1 = false) : f.unmasked = true := by
  simp [Fpu.unmasked, de, mask]

/-- A number that is no NaN to be quieted: DE, then the push unless that stops it. -/
theorem Ends.checkedPush {Q : Unit → State → Prop} {den : Bool} {v : Temp}
    (goes : s.calm den = true → ∀ (t : FpuStatus) d, t.Coded noCodes (s.fpu.status.withDe den) →
      Q () (s.npx ((s.fpu.withStatus t).pushRaw v) d))
    (stops : s.calm den = false → ∀ (t : FpuStatus) d, t.Coded noCodes (s.fpu.status.withDe den) →
      Q () (s.npx (s.fpu.withStatus t) d)) :
    Ends (do
      let go ← denormalCheck den
      setCodes noCodes
      (if go then updFpu (fun p => p.pushRaw v) else pure ())) s Q := by
  refine .denormal (s := s) (p := s.fpu) (u := s.fpu.status) (d := s.draws) (.codes noCodes fun t d coded => ?_)
  cases calm : s.calm den
  · rw [if_neg (show ¬ (s.npx s.fpu s.draws).calm den = true from
      fun is => Bool.noConfusion (calm.symm.trans is))]
    exact .of_run rfl (stops calm t d coded)
  · rw [if_pos (show (s.npx s.fpu s.draws).calm den = true from calm)]
    exact .of_run rfl (goes calm t d coded)

/-- IE and DE of a load that is no invalid operation. -/
theorem State.raised_de {den : Bool} {t : FpuStatus} (coded : t.Coded noCodes (s.fpu.status.withDe den)) :
    s.Raised false den t :=
  ⟨coded.ie.trans (Bool.or_false _).symm, coded.de⟩

section

variable {f : NumFmt} (reach : s.npxReaches o f.bytes false f.bytes = true)
include reach

/-- What a load onto an empty register does with its number. -/
theorem loadNum_room {v : Temp} {den : Bool} (i : Instr) (room : s.fpu.isEmpty 7#3 = true)
    (loaded : f.load s.n287 (s.bits o f.bytes) = (v, den)) : loadNum f o (s.npxAt i (some o)) =
    (if tIsSignaling v || (s.n287 && tIsNan v) then invalidOp false (updFpu (fun p => p.pushRaw (tQuiet v)))
    else do
      let go ← denormalCheck den
      setCodes noCodes
      (if go then updFpu (fun p => p.pushRaw v) else pure ())) (s.npxAt i (some o)) := by
  have free : (s.npxAt i (some o)).fpu.full = false := by rw [Fpu.full, State.npxAt_isEmpty, room]; rfl
  simp only [loadNum, M.bind_run, getS_run, readNum_at i _ reach, State.npxAt_n287, free, loaded,
    Bool.false_eq_true, if_false]
  rfl

variable (runs : s.Runs i (some o) (loadNum f o))
include runs

/-- Onto a register that is not empty. -/
theorem loadNum_overflows (full : s.fpu.isEmpty 7#3 = false)
    (calm : s.calm (f.load s.n287 (s.bits o f.bytes)).2 = true) : s.Overflows i := by
  have occupied : (s.npxAt i (some o)).fpu.full = true := by rw [Fpu.full, State.npxAt_isEmpty, full]; rfl
  refine runs.overflows (den := (f.load s.n287 (s.bits o f.bytes)).2) (drawn := s.draws) ?_ calm
  refine Eq.trans ?_ (pushTemp_full (v := (f.load s.n287 (s.bits o f.bytes)).1) (c := noCodes)
    (s := s.npxAt i (some o)) full)
  simp only [loadNum, M.bind_run, getS_run, readNum_at i _ reach, State.npxAt_n287, occupied, if_true]

section

variable (room : s.fpu.isEmpty 7#3 = true) {v : Temp} {den : Bool} (loaded : f.load s.n287 (s.bits o f.bytes) = (v, den))
include room loaded

/-- A NaN that is quieted is an invalid operation (R483, R474 (b)). -/
theorem loadNum_quiets (nan : (tIsSignaling v || (s.n287 && tIsNan v)) = true) :
    if s.npxMask 0 then s.PushesOne i (tQuiet v) (s.Raised true false) else s.Stopped i true false := by
  have run := loadNum_room reach i room loaded
  rw [if_pos nan] at run
  have raised {t : FpuStatus} (coded : t.Coded noCodes s.fpu.status.withIe) : s.Raised true false t :=
    ⟨coded.ie.trans (Bool.or_true _).symm, coded.de.trans (Bool.or_false _).symm⟩
  cases mask : s.npxMask 0
  · rw [if_neg Bool.noConfusion]
    refine runs.stopped (Ends.congr (Ends.invalidOp (s := s.npxAt i (some o)) ?_ ?_ ?_) run)
    · exact fun masked => absurd (mask.symm.trans masked) Bool.noConfusion
    · exact fun _ t d coded =>
        ⟨_, d, rfl, t, raised coded, coded.top, rfl, Fpu.unmasked_of_ie coded.ie mask⟩
    · exact fun _ agitated => Bool.noConfusion agitated
  · rw [if_pos rfl]
    refine runs.pushesOne (Ends.congr (Ends.invalidOp (s := s.npxAt i (some o)) ?_ ?_ ?_) run)
    · intro _ _ t d coded
      refine .of_run rfl ⟨_, d, rfl, State.pushedOne_of_raised ⟨?_, ?_⟩ coded.top⟩
      · exact coded.ie.trans (Bool.or_true _).symm
      · exact coded.de.trans (show (s.fpu.status.de || false) = _ from rfl)
    · exact fun unmasked => absurd (mask.symm.trans unmasked) Bool.noConfusion
    · exact fun _ agitated => Bool.noConfusion agitated

/-- A denormal that is not masked stops the load (R483). -/
theorem loadNum_stops (quiet : (tIsSignaling v || (s.n287 && tIsNan v)) = false) (agitated : s.calm den = false) :
    s.Stopped i false true := by
  have run := loadNum_room reach i room loaded
  rw [if_neg (by rw [quiet]; exact Bool.noConfusion)] at run
  obtain ⟨isDen, mask⟩ : den = true ∧ s.npxMask 1 = false := by simpa [State.calm] using agitated
  subst isDen
  refine runs.stopped (Ends.congr (Ends.checkedPush (s := s.npxAt i (some o)) ?_ ?_) run)
  · exact fun calm => absurd (agitated.symm.trans calm) Bool.noConfusion
  · exact fun _ t d coded => ⟨_, d, rfl, t, State.raised_de coded, coded.top, rfl,
      Fpu.unmasked_of_de (coded.de.trans (Bool.or_true _)) mask⟩

/-- Any other number is pushed. -/
theorem loadNum_pushes (quiet : (tIsSignaling v || (s.n287 && tIsNan v)) = false) (calm : s.calm den = true) :
    s.PushesOne i v (s.Raised false den) := by
  have run := loadNum_room reach i room loaded
  rw [if_neg (by rw [quiet]; exact Bool.noConfusion)] at run
  refine runs.pushesOne (Ends.congr (Ends.checkedPush (s := s.npxAt i (some o)) ?_ ?_) run)
  · exact fun _ t d coded => ⟨_, d, rfl, State.pushedOne_of_raised (State.raised_de coded) coded.top⟩
  · exact fun agitated => absurd (calm.symm.trans agitated) Bool.noConfusion

end

end

end Sys2Proof.Machine
end

section
/-! The statement about the instructions that read a number from memory (R483 to R486, R514 to R520). -/

namespace Sys2Proof.Machine

variable {s : State} {i : Instr} {o : MemOp}

/-! Completion. -/

theorem source_completes {n al : Nat} (row : Instr.npxSource i = some (o, n, al)) (ready : s.npxReady = true)
    (reach : s.npxReaches o n false al = true) :
    ∃ (f : Fpu) (l : NpxLink) (d : Nat), exec i s = .next (s.npxDone f l d) := by
  obtain ⟨m, same, total⟩ := exec_npxSource row
  obtain ⟨_, f, d, run⟩ := total _ (State.npxAt_reaches i reach)
  obtain ⟨l, done⟩ := npxMem_ok ready reach run
  exact ⟨f.settled, l, d, (same s).trans done⟩

theorem source_missing {n al : Nat} (row : Instr.npxSource i = some (o, n, al)) (missing : s.npxMissing = true) :
    exec i s = .next s.advance := by
  obtain ⟨m, same, -⟩ := exec_npxSource row
  exact (same s).trans (npxMem_missing missing)

/-! Temporary reals and packed decimal. -/

section

variable (reach : s.npxReaches o 10 false 8 = true)
include reach

theorem fldM80_run : loadTemp o (s.npxAt (.fldM80 o) (some o)) =
    pushTemp (BitVec.ofNat 80 (s.bits o 10)) false noCodes (s.npxAt (.fldM80 o) (some o)) := by
  simp only [loadTemp, M.bind_run, readMemBytes_at (.fldM80 o) reach]
  rfl

/-- FBLD pushes the value of its digits, or where one is above 9 a free value (R486). -/
theorem fbld_run : ∃ v d, loadBcd o (s.npxAt (.fbld o) (some o)) =
      pushTemp v false noCodes ((s.npxAt (.fbld o) (some o)).setDraws d) ∧
    ((∀ k < 18, bcdDigit (s.bits o 9) k < 10) → v = packTemp ((s.bits o 10).testBit 79)
      ((List.range 18).map fun k => bcdDigit (s.bits o 9) k * 10 ^ k).sum 0) := by
  have nine : (s.bytesAt (s.linOf (s.memSeg o) (s.ea o)) 10).take 9 = s.bytesAt (s.linOf (s.memSeg o) (s.ea o)) 9 :=
    s.bytesAt_take _ 9 1
  have ten := s.bytesAt_length (s.linOf (s.memSeg o) (s.ea o)) 10
  have digits := bcdVal_digits (s.bytesAt (s.linOf (s.memSeg o) (s.ea o)) 9)
  rw [s.bytesAt_length] at digits
  simp only [loadBcd, M.bind_run, readMemBytes_at (.fbld o) reach, nine]
  cases value : bcdVal (s.bytesAt (s.linOf (s.memSeg o) (s.ea o)) 9) with
  | some n =>
    refine ⟨_, s.draws, rfl, fun small => ?_⟩
    rw [digits small] at value
    rw [← Option.some.inj value, State.bits, leNat_sign _ ten]
    rfl
  | none =>
    refine ⟨_, _, rfl, fun small => ?_⟩
    rw [digits small] at value
    cases value

variable (ready : s.npxReady = true)
include ready

theorem fldM80_pushes (room : s.fpu.isEmpty 7#3 = true) :
    s.PushesOne (.fldM80 o) (BitVec.ofNat 80 (s.bits o 10)) (s.Raised false false) :=
  State.Runs.pushTemp (drawn := s.draws) (.mem ready reach rfl) (fldM80_run reach) room

theorem fbld_pushes (room : s.fpu.isEmpty 7#3 = true) : ∃ v, s.PushesOne (.fbld o) v (s.Raised false false) ∧
    ((∀ k < 18, bcdDigit (s.bits o 9) k < 10) → v = packTemp ((s.bits o 10).testBit 79)
      ((List.range 18).map fun k => bcdDigit (s.bits o 9) k * 10 ^ k).sum 0) := by
  obtain ⟨v, d, run, value⟩ := fbld_run reach
  exact ⟨v, State.Runs.pushTemp (.mem ready reach rfl) run room, value⟩

/-- Onto a register that is not empty. -/
theorem fldM80_fbld_overflow (full : s.fpu.isEmpty 7#3 = false) : s.Overflows (.fldM80 o) ∧ s.Overflows (.fbld o) := by
  obtain ⟨v, d, run, -⟩ := fbld_run reach
  have runM80 := (fldM80_run reach).trans (pushTemp_full (s := s.npxAt (.fldM80 o) (some o)) full)
  have runBcd := run.trans (pushTemp_full (s := (s.npxAt (.fbld o) (some o)).setDraws d) full)
  exact ⟨State.Runs.overflows (drawn := s.draws) (.mem ready reach rfl) runM80 s.calm_false,
    State.Runs.overflows (.mem ready reach rfl) runBcd s.calm_false⟩

end

section

variable (ready : s.npxReady = true)
include ready

/-! Integers. -/

/-- An integer of memory is pushed as it is (R483, R484). -/
theorem integer_pushes {f : NumFmt} {n : Int} (row : exec i s = npxNum i f o false (loadNum f o) s)
    (reach : s.npxReaches o f.bytes false f.bytes = true) (room : s.fpu.isEmpty 7#3 = true)
    (loaded : f.load s.n287 (s.bits o f.bytes) = (ofInt n, false)) (number : IsNumber (ofInt n)) :
    s.PushesOne i (ofInt n) (s.Raised false false) :=
  loadNum_pushes reach (.mem ready reach row) room loaded (by rw [number.signaling, number.nan, Bool.and_false]; rfl)
    s.calm_false

theorem integer_overflows {f : NumFmt} (row : exec i s = npxNum i f o false (loadNum f o) s)
    (reach : s.npxReaches o f.bytes false f.bytes = true) (full : s.fpu.isEmpty 7#3 = false)
    (isInt : (f.load s.n287 (s.bits o f.bytes)).2 = false) : s.Overflows i :=
  loadNum_overflows reach (.mem ready reach row) full (by rw [isInt]; rfl)

/-! Arithmetic with an empty ST(0). -/

theorem arithNum_underflows {f : NumFmt} {op : ArOp} {rev : Bool}
    (row : exec i s = npxNum i f o false (arithNum op rev f o) s)
    (reach : s.npxReaches o f.bytes false f.bytes = true) (empty : s.fpu.isEmpty 0#3 = true)
    (number : IsNumber (f.load false (s.bits o f.bytes)).1) (den : (f.load false (s.bits o f.bytes)).2 = false) :
    s.Underflows i 0#3 false := by
  refine State.Runs.underflows (vs := [(f.load false (s.bits o f.bytes)).1])
    (den := (f.load false (s.bits o f.bytes)).2) (.mem ready reach row) ?_ (by rw [den]; rfl) ?_
  · simp only [arithNum, M.bind_run, getS_run, readNum_at i _ reach, State.npxAt_isEmpty, empty, if_true]
  · intro v mem
    rw [List.mem_singleton.mp mem]
    exact ⟨number.nan, number.supported⟩

end

/-! The rows. -/

theorem State.underflows_top (h : s.Underflows i 0#3 false) :
    if s.npxMask 0 then
      s.EndsWith i (s.fpu.regs.set s.fpu.status.top realIndefinite) s.fpu.status.top
        (s.fpu.tags.set s.fpu.status.top .special) (s.Fault false)
    else s.Unchanged i (s.Fault false) := by
  simpa only [State.Underflows, BitVec.add_zero, Bool.false_eq_true, if_false] using h

theorem real_load_supported (x : Bool) (v : Nat) : tUnsupported ((realFmt x).load false v).1 = false := by
  cases x
  · exact ofReal_supported (f := .short) (by decide) (by decide) (by decide) v
  · exact ofReal_supported (f := .long) (by decide) (by decide) (by decide) v

/-- What the integer forms read is an integer. -/
theorem int_load (x keep : Bool) (v : Nat) : ∃ n, (intFmt x).load keep v = (ofInt n, false) ∧ IsNumber (ofInt n) := by
  cases x
  · exact ⟨_, rfl, isNumber_toInt _ (by decide)⟩
  · exact ⟨_, rfl, isNumber_toInt _ (by decide)⟩

section

variable {x : Bool} (ready : s.npxReady = true)
include ready

/-- FLD of a real: quieted, stopped or pushed (R483). -/
theorem fldMem_pushes (room : s.fpu.isEmpty 7#3 = true)
    (reach : s.npxReaches o (realFmt x).bytes false (realFmt x).bytes = true) {v : Temp} {den : Bool}
    (loaded : (realFmt x).load s.n287 (s.bits o (realFmt x).bytes) = (v, den)) :
    if tIsSignaling v = true ∨ (s.n287 = true ∧ tIsNan v = true) then
      if s.npxMask 0 then s.PushesOne (.fldMem x o) (tQuiet v) (s.Raised true false)
      else s.Stopped (.fldMem x o) true false
    else if den = true ∧ s.npxMask 1 = false then s.Stopped (.fldMem x o) false true
    else s.PushesOne (.fldMem x o) v (s.Raised false den) := by
  have runs : s.Runs (.fldMem x o) (some o) (loadNum (realFmt x) o) := .mem ready reach rfl
  split
  · next nan =>
    exact loadNum_quiets reach runs room loaded (by simpa using nan)
  · next nan =>
    have quiet : (tIsSignaling v || (s.n287 && tIsNan v)) = false :=
      Bool.eq_false_iff.mpr fun is => nan (by simpa using is)
    split
    · next stop => exact loadNum_stops reach runs room loaded quiet (by simp [State.calm, stop.1, stop.2])
    · next go =>
      refine loadNum_pushes reach runs room loaded quiet (s.calm_of_imp fun is => ?_)
      exact Bool.not_eq_false _ ▸ fun unmasked => go ⟨is, unmasked⟩

theorem realArith_underflows (empty : s.fpu.isEmpty 0#3 = true)
    (reach : s.npxReaches o (realFmt x).bytes false (realFmt x).bytes = true)
    (den : ((realFmt x).load false (s.bits o (realFmt x).bytes)).2 = false)
    (nan : tIsNan ((realFmt x).load false (s.bits o (realFmt x).bytes)).1 = false)
    (row : i ∈ ([.faddMem x o, .fsubMem x o, .fsubrMem x o, .fmulMem x o, .fdivMem x o, .fdivrMem x o] : List Instr)) :
    s.Underflows i 0#3 false := by
  have done (op : ArOp) (rev : Bool) (row : exec i s = npxNum i (realFmt x) o false (arithNum op rev (realFmt x) o) s) :=
    arithNum_underflows ready row reach empty ⟨nan, real_load_supported x _⟩ den
  simp only [List.mem_cons, List.not_mem_nil, or_false] at row
  obtain rfl | rfl | rfl | rfl | rfl | rfl := row
  · exact done .add false rfl
  · exact done .sub false rfl
  · exact done .sub true rfl
  · exact done .mul false rfl
  · exact done .div false rfl
  · exact done .div true rfl

theorem intArith_underflows (empty : s.fpu.isEmpty 0#3 = true)
    (reach : s.npxReaches o (intFmt x).bytes false (intFmt x).bytes = true)
    (row : i ∈ ([.fiadd x o, .fisub x o, .fisubr x o, .fimul x o, .fidiv x o, .fidivr x o] : List Instr)) :
    s.Underflows i 0#3 false := by
  obtain ⟨n, loaded, number⟩ := int_load x false (s.bits o (intFmt x).bytes)
  have done (op : ArOp) (rev : Bool) (row : exec i s = npxNum i (intFmt x) o false (arithNum op rev (intFmt x) o) s) :=
    arithNum_underflows ready row reach empty (by rw [loaded]; exact number) (by rw [loaded])
  simp only [List.mem_cons, List.not_mem_nil, or_false] at row
  obtain rfl | rfl | rfl | rfl | rfl | rfl := row
  · exact done .add false rfl
  · exact done .sub false rfl
  · exact done .sub true rfl
  · exact done .mul false rfl
  · exact done .div false rfl
  · exact done .div true rfl

end

/-- Settles O41: each load is the push of the number that is read, or its stack fault. -/
theorem npxSourcesComplete : Obligations.NpxSourcesComplete := by
  intro i s m n al x
  refine ⟨fun row => ⟨source_completes row, source_missing row⟩, ?_, ?_, ?_⟩
  · intro ready room
    refine ⟨fun reach => fldMem_pushes ready room reach rfl, fun reach => ?_, fun reach => ?_, fun reach => ?_,
      fun reach => ?_⟩
    · exact integer_pushes ready (f := .int16) rfl reach room rfl (isNumber_toInt _ (by decide))
    · exact integer_pushes ready (f := .int32) rfl reach room rfl (isNumber_toInt _ (by decide))
    · exact integer_pushes ready (f := .int64) rfl reach room rfl (isNumber_toInt _ (by decide))
    · obtain ⟨v, pushes, value⟩ := fbld_pushes reach ready room
      exact ⟨fldM80_pushes reach ready room, fun digits => value digits ▸ pushes, v, pushes⟩
  · intro ready full
    refine ⟨fun reach calm => ?_, fun reach => ?_, fun reach => ?_, fun reach => fldM80_fbld_overflow reach ready full⟩
    · exact loadNum_overflows (f := realFmt x) reach (.mem ready reach rfl) full (s.calm_of_imp calm)
    · obtain ⟨_, loaded, -⟩ := int_load x s.n287 (s.bits m (intFmt x).bytes)
      exact integer_overflows ready (f := intFmt x) rfl reach full (by rw [loaded])
    · exact integer_overflows ready (f := .int64) rfl reach full rfl
  · intro ready empty
    refine ⟨fun reach den nan row => ?_, fun reach row => ?_⟩
    · exact State.underflows_top (realArith_underflows ready empty reach den nan row)
    · exact State.underflows_top (intArith_underflows ready empty reach row)

end Sys2Proof.Machine
end

section
/-! The stores to memory (R488, R490 to R493): each stores the bytes of ST(0), or with an exception that is not masked
nothing. -/

namespace Sys2Proof.Machine

variable {s : State} {i : Instr} {o : MemOp}

/-! What a store leaves. -/

/-- The register stack is that of another coprocessor state. -/
structure Fpu.SameStack (f p : Fpu) : Prop where
  regs : f.regs = p.regs
  tags : f.tags = p.tags
  top : f.status.top = p.status.top

theorem Fpu.SameStack.withStatus {f p : Fpu} {t : FpuStatus} (h : f.SameStack p) (top : t.top = f.status.top) :
    (f.withStatus t).SameStack p := ⟨h.regs, h.tags, top.trans h.top⟩

theorem Fpu.SameStack.st {f p : Fpu} (h : f.SameStack p) (j : BitVec 3) : f.st j = p.st j := by
  rw [Fpu.st, Fpu.st, Fpu.phys, Fpu.phys, h.regs, h.top]

theorem Fpu.SameStack.isEmpty {f p : Fpu} (h : f.SameStack p) (j : BitVec 3) : f.isEmpty j = p.isEmpty j := by
  rw [Fpu.isEmpty, Fpu.isEmpty, Fpu.tag, Fpu.tag, Fpu.phys, Fpu.phys, h.tags, h.top]

/-- A store is kept from memory and from the stack by an exception that is not masked. -/
def State.Withheld (s t : State) : Prop := ∃ f d, t = s.npx f d ∧ f.SameStack s.fpu ∧ f.unmasked = true

/-- A store is made, of bytes of which `ok` holds. -/
def State.Made (s : State) (o : MemOp) (ok : List Byte → Prop) (pops : Bool) (t : State) : Prop :=
  ∃ bs f d, t = (s.putBytes (s.linOf (s.memSeg o) (s.ea o)) bs).npx (if pops then f.pop else f) d ∧ ok bs ∧
    f.SameStack s.fpu

/-- A store ends. -/
def State.Saves (s : State) (o : MemOp) (ok : List Byte → Prop) (pops : Bool) (m : M Unit) : Prop :=
  ∀ (p : Fpu) (d : Nat), p.SameStack s.fpu → Ends m (s.npx p d) fun _ t => s.Withheld t ∨ s.Made o ok pops t

/-- The memory of a state with the coprocessor replaced. -/
theorem State.putBytes_npx (s : State) (f : Fpu) (d : Nat) (lin : BitVec 32) (bs : List Byte) :
    (s.npx f d).putBytes lin bs = (s.putBytes lin bs).npx f d := by
  rw [State.npx, (s.setFpu f).putBytes_comm (·.setDraws d) (fun _ _ _ => rfl) fun _ => rfl,
    s.putBytes_comm (·.setFpu f) (fun _ _ _ => rfl) fun _ => rfl]
  rfl

theorem writeMemBytes_npx {n al : Nat} {bs : List Byte} (reach : s.npxReaches o n true al = true)
    (length : bs.length = n) (f : Fpu) (d : Nat) : writeMemBytes o bs al (s.npx f d) =
      .ok () ((s.putBytes (s.linOf (s.memSeg o) (s.ea o)) bs).npx f d) := by
  subst length
  simp only [writeMemBytes, M.bind_run, getS_run, segWrite_ok ((s.npxReaches_npx f d o bs.length true al).trans reach),
    State.putBytes_npx]
  rfl

section

variable {n al : Nat} {ok : List Byte → Prop} {pops : Bool} {masked : M Unit}

/-- The store itself, with the pop. -/
theorem made_put {bs : List Byte} (reach : s.npxReaches o n true al = true) (length : bs.length = n) (is : ok bs)
    (p : Fpu) (d : Nat) (same : p.SameStack s.fpu) :
    Ends (do writeMemBytes o bs al; (if pops then updFpu Fpu.pop else pure ())) (s.npx p d) fun _ t =>
      s.Made o ok pops t := by
  refine .after (writeMemBytes_npx reach length p d) ?_
  cases pops
  · exact .of_run rfl ⟨bs, p, d, rfl, is, same⟩
  · exact .of_run rfl ⟨bs, p, d, rfl, is, same⟩

theorem saves_put {bs : List Byte} (reach : s.npxReaches o n true al = true) (length : bs.length = n) (is : ok bs) :
    s.Saves o ok pops (do writeMemBytes o bs al; (if pops then updFpu Fpu.pop else pure ())) :=
  fun p d same => (made_put reach length is p d same).mono fun _ _ => .inr

theorem State.Withheld.of_ie {p : Fpu} {t : FpuStatus} {d : Nat} (same : p.SameStack s.fpu) (top : t.top = p.status.top)
    (ie : t.ie = true) (mask : (s.npx p d).npxMask 0 = false) (e : Nat) : s.Withheld (s.npx (p.withStatus t) e) :=
  ⟨_, e, rfl, same.withStatus top, Fpu.unmasked_of_ie (f := p.withStatus t) ie mask⟩

theorem State.Withheld.of_de {p : Fpu} {t : FpuStatus} {den : Bool} {d : Nat} (same : p.SameStack s.fpu)
    (top : t.top = p.status.top) (de : t.de = (p.status.de || den)) (agitated : (s.npx p d).calm den = false) (e : Nat) :
    s.Withheld (s.npx (p.withStatus t) e) := by
  obtain ⟨isDen, mask⟩ : den = true ∧ (s.npx p d).npxMask 1 = false := by simpa [State.calm] using agitated
  refine ⟨_, e, rfl, same.withStatus top, Fpu.unmasked_of_de (f := p.withStatus t) ?_ mask⟩
  rw [Fpu.withStatus_status, de, isDen, Bool.or_true]

/-- An invalid operation stores its masked response. -/
theorem saves_invalid {den : Bool} (h : s.Saves o ok pops masked) : s.Saves o ok pops (invalidOp den masked) :=
  fun p d same => Ends.invalidOp (s := s.npx p d)
    (fun _ _ _ e coded => h _ e (same.withStatus coded.top))
    (fun mask _ e coded => .inl (.of_ie same coded.top coded.ie mask e))
    (fun _ agitated _ e coded => .inl (.of_de same coded.top coded.de agitated e))

/-- A stack underflow stores its masked response. -/
theorem saves_fault {c1 : Code} (h : s.Saves o ok pops masked) :
    s.Saves o ok pops (do stackFault c1 noCodes; afterInvalid false masked) :=
  fun p d same => Ends.fault (s := s.npx p d) State.calm_false
    (fun _ _ e coded => h _ e (same.withStatus coded.top))
    (fun mask _ e coded => .inl (.of_ie same coded.top coded.ie mask e))

/-- The steps of a computation that change the codes alone. -/
theorem saves_codes (c : Codes) (h : s.Saves o ok pops masked) : s.Saves o ok pops (do setCodes c; masked) :=
  fun p d same => .codes (s := s) (p := p) (u := p.status) (d := d) c fun _ e coded =>
    h _ e (same.withStatus coded.top)

end

/-! A number (R488, R490, R491). -/

/-- The bits that a store gives for memory. -/
def StoreRes.bits : StoreRes → Nat
  | .invalid w => w
  | .value w _ _ _ _ => w

/-- A store from its result, under the masks of the state `s`. -/
def putStore (s : State) (den : Bool) (put : Nat → M Unit) (r : StoreRes) : M Unit :=
  match r with
  | .invalid w => invalidOp den (put w)
  | .value w oe ue pe up => do
    let go ← denormalCheck den
    if !go then setCodes noCodes
    else if (oe && !s.npxMask 3) || (ue && !s.npxMask 4) then do
      raiseRounding oe ue false
      setCodes noCodes
    else do
      raiseRounding oe ue pe
      setCodes (onlyC1 (s.roundC1 pe up))
      put w

theorem storeNum_empty {f : NumFmt} {pops : Bool} (empty : s.fpu.isEmpty 0#3 = true) :
    storeNum f o pops s =
      (do stackFault (s.c1 false) noCodes; afterInvalid false (putNum f o pops f.indefinite)) s := by
  simp only [storeNum, M.bind_run, getS_run, empty, if_true]

theorem storeNum_standard {f : NumFmt} {pops : Bool} (there : s.fpu.isEmpty 0#3 = false)
    (standard : s.preStandard [s.fpu.st 0#3] = false) :
    storeNum f o pops s = putStore s (s.n287 && f.isReal && tIsDenormal (s.fpu.st 0#3)) (putNum f o pops)
      (f.store s.n287 s.fpu.cw (s.fpu.st 0#3)) s := by
  simp only [storeNum, M.bind_run, getS_run, there, standard, Bool.false_eq_true, if_false]
  rfl

theorem storeNum_preStandard {f : NumFmt} {pops : Bool} (there : s.fpu.isEmpty 0#3 = false)
    (old : s.preStandard [s.fpu.st 0#3] = true) :
    storeNum f o pops s = (do
      let r ← drawStore
      let den ← drawBit
      putStore s den (putNum f o pops) r) s := by
  simp only [storeNum, M.bind_run, getS_run, there, old, Bool.false_eq_true, if_false, if_true]
  rfl

/-- What a pre-standard value stores is drawn (log entry 52). -/
theorem drawStore_run (s : State) (f : Fpu) (d : Nat) : ∃ r e, drawStore (s.npx f d) = .ok r (s.npx f e) := by
  simp only [drawStore, M.bind_run, drawBit_run, drawTemp_run]
  split
  · exact ⟨_, _, rfl⟩
  · exact ⟨_, _, rfl⟩

section

variable {al : Nat} {ok : List Byte → Prop} {pops : Bool}

theorem Fpu.unmasked_of_rounding {f : Fpu} {oe ue oe' ue' : Bool} (isOe : f.status.oe = (oe' || oe))
    (isUe : f.status.ue = (ue' || ue)) (keeps : ((oe && !cwMask f.cw 3) || (ue && !cwMask f.cw 4)) = true) :
    f.unmasked = true := by
  obtain h | h := (Bool.or_eq_true _ _ ▸ keeps)
  · obtain ⟨is, mask⟩ := Bool.and_eq_true_iff.mp h
    simp [Fpu.unmasked, isOe, is, mask]
  · obtain ⟨is, mask⟩ := Bool.and_eq_true_iff.mp h
    simp [Fpu.unmasked, isUe, is, mask]

/-- A result that overflows or underflows without a mask is not stored; another is. -/
theorem putStore_saves {put : Nat → M Unit} {r : StoreRes} {den : Bool} {p : Fpu} {d : Nat} (m : State)
    (cw : m.fpu.cw = p.cw) (same : p.SameStack s.fpu) (h : s.Saves o ok pops (put r.bits)) :
    Ends (putStore m den put r) (s.npx p d) fun _ t => s.Withheld t ∨ s.Made o ok pops t := by
  cases r with
  | invalid w => exact saves_invalid h p d same
  | value w oe ue pe up =>
    refine .denormal (s := s) (p := p) (u := p.status) (d := d) ?_
    cases calm : (s.npx p d).calm den
    · obtain ⟨t, e, coded, run⟩ := setCodes_run noCodes (s.npx (p.withStatus (p.status.withDe den)) d)
      exact .of_run run (.inl (.of_de same coded.top coded.de calm e))
    · rw [Bool.not_true, if_neg Bool.noConfusion]
      split
      · next keeps =>
        refine .status ?_
        obtain ⟨t, e, coded, run⟩ := setCodes_run noCodes
          (s.npx (p.withStatus { p.status.withDe den with
            oe := p.status.oe || oe, ue := p.status.ue || ue, pe := p.status.pe || false }) d)
        exact .of_run run (.inl ⟨_, e, rfl, same.withStatus coded.top,
          Fpu.unmasked_of_rounding (f := p.withStatus t) coded.oe coded.ue (cw ▸ keeps)⟩)
      · exact .status (saves_codes _ h _ d (same.withStatus rfl))

/-- A store of a number ends with the number's bytes, those of the indefinite, or none. -/
theorem storeNum_saves {f : NumFmt} (reach : s.npxReaches o f.bytes true f.bytes = true)
    (h : ∀ v, (∀ bs, s.numStored f = some bs → bs = leBytes f.bytes v) → ok (leBytes f.bytes v)) (p : Fpu) (d : Nat)
    (same : p.SameStack s.fpu) (cw : p.cw = s.fpu.cw) :
    Ends (storeNum f o pops) (s.npx p d) fun _ t => s.Withheld t ∨ s.Made o ok pops t := by
  have put (v : Nat) (is : ∀ bs, s.numStored f = some bs → bs = leBytes f.bytes v) :
      s.Saves o ok pops (putNum f o pops v) := saves_put reach (leBytes_length _ _) (h v is)
  have empty' : (s.npx p d).fpu.isEmpty 0#3 = s.fpu.isEmpty 0#3 := same.isEmpty 0#3
  have st : (s.npx p d).fpu.st 0#3 = s.fpu.st 0#3 := same.st 0#3
  cases empty : s.fpu.isEmpty 0#3
  · cases standard : s.preStandard [s.fpu.st 0#3]
    · refine Ends.congr (putStore_saves (s.npx p d) rfl same (put _ ?_))
        (storeNum_standard (s := s.npx p d) (empty'.trans empty) (by rw [st]; exact standard))
      rw [State.numStored, empty, standard, show (s.npx p d).fpu.cw = s.fpu.cw from cw, st, State.npx_n287]
      intro bs is
      cases result : f.store s.n287 s.fpu.cw (s.fpu.st 0#3) with
      | invalid w => rw [result] at is; exact (Option.some.inj is).symm
      | value w oe ue pe up => rw [result] at is; exact (Option.some.inj is).symm
    · refine Ends.congr ?_ (storeNum_preStandard (s := s.npx p d) (empty'.trans empty) (by rw [st]; exact standard))
      obtain ⟨r, e, drawn⟩ := drawStore_run s p d
      refine .after drawn (.bit fun den e' => putStore_saves (s.npx p d) rfl same (put _ ?_))
      rw [State.numStored, empty, standard]
      exact nofun
  · refine Ends.congr (saves_fault (put _ ?_) p d same) (storeNum_empty (s := s.npx p d) (empty'.trans empty))
    rw [State.numStored, empty]
    exact fun bs is => (Option.some.inj is).symm

end

/-! A temporary real (R492) and packed decimal (R493). -/

theorem bcdBytes_length (n v : Nat) : (bcdBytes n v).length = n := by
  induction n generalizing v with
  | zero => rfl
  | succ n ih => simp [bcdBytes, ih]

/-- What a pre-standard value of the 80287 stores is drawn (log entry 52). -/
theorem preStandardBcd_saves {put : List Byte → M Unit} {ok : List Byte → Prop} {pops : Bool}
    (h : ∀ bs, bs.length = 10 → s.Saves o ok pops (put bs)) :
    s.Saves o ok pops (preStandardBcd put) := by
  intro p d same
  have drawn (v : Temp) := h _ (leBytes_length 10 v.toNat)
  refine .bit fun ie e => .temp fun v e' => ?_
  split
  · exact saves_invalid (drawn v) p e' same
  · exact .bit fun pe e'' => .status (s := s) (p := p) (u := p.status)
      (saves_codes _ (drawn v) _ _ (same.withStatus rfl))

theorem storeTemp_underflows (empty : s.fpu.isEmpty 0#3 = true) : storeTemp o s = (do
    stackFault (s.c1 false) noCodes
    afterInvalid false (maskedOf [] fun v => do
      writeMemBytes o (leBytes 10 v.toNat) 8
      updFpu Fpu.pop)) s := by
  simp only [storeTemp, underflowTo, M.bind_run, getS_run, empty, if_true]
  rfl

/-- The bytes of packed decimal, with the pop. -/
def putBcd (o : MemOp) (bs : List Byte) : M Unit := do
  writeMemBytes o bs 8
  updFpu Fpu.pop

theorem storeBcd_empty (empty : s.fpu.isEmpty 0#3 = true) : storeBcdOp o s =
    (do stackFault (s.c1 false) noCodes; afterInvalid false (putBcd o bcdIndefinite)) s := by
  simp only [storeBcdOp, M.bind_run, getS_run, empty, if_true]
  rfl

section

variable (there : s.fpu.isEmpty 0#3 = false)
include there

theorem storeBcd_preStandard (old : s.preStandard [s.fpu.st 0#3] = true) :
    storeBcdOp o s = preStandardBcd (putBcd o) s := by
  simp only [storeBcdOp, M.bind_run, getS_run, there, old, Bool.false_eq_true, if_false, if_true]
  rfl

variable (standard : s.preStandard [s.fpu.st 0#3] = false)
include standard

theorem storeBcd_invalid (result : storeBcd s.fpu.cw (s.fpu.st 0#3) = none) :
    storeBcdOp o s = invalidOp false (putBcd o bcdIndefinite) s := by
  simp only [storeBcdOp, M.bind_run, getS_run, there, standard, result, Bool.false_eq_true, if_false]
  rfl

theorem storeBcd_value {r : Rounded} (result : storeBcd s.fpu.cw (s.fpu.st 0#3) = some r) : storeBcdOp o s = (do
      raiseRounding false false r.inexact
      setCodes (onlyC1 (s.roundC1 r.inexact r.up))
      putBcd o (bcdBytes 9 r.m ++ [if tSign (s.fpu.st 0#3) then 0x80#8 else 0#8])) s := by
  simp only [storeBcdOp, M.bind_run, getS_run, there, standard, result, Bool.false_eq_true, if_false, putBcd]

end

section

variable {ok : List Byte → Prop} (reach : s.npxReaches o 10 true 8 = true)
include reach

/-- The store of ten bytes, with the pop. -/
theorem saves_put10 {bs : List Byte} (length : bs.length = 10) (is : ok bs) :
    s.Saves o ok true (do writeMemBytes o bs 8; updFpu Fpu.pop) := saves_put (pops := true) reach length is

/-- A temporary real that is there is stored whatever it is. -/
theorem storeTemp_there (there : s.fpu.isEmpty 0#3 = false) (p : Fpu) (d : Nat) (same : p.SameStack s.fpu) :
    Ends (storeTemp o) (s.npx p d) fun _ t => s.Made o (· = leBytes 10 (s.fpu.st 0#3).toNat) true t := by
  have run : storeTemp o (s.npx p d) = (do
      setCodes noCodes
      writeMemBytes o (leBytes 10 (s.fpu.st 0#3).toNat) 8
      updFpu Fpu.pop) (s.npx p d) := by
    simp only [storeTemp, M.bind_run, getS_run, State.npx_fpu, same.isEmpty, same.st, there, Bool.false_eq_true,
      if_false]
  refine Ends.congr (.codes (s := s) (p := p) (u := p.status) (d := d) noCodes fun t e coded => ?_) run
  exact made_put (ok := (· = _)) (pops := true) reach (leBytes_length 10 (s.fpu.st 0#3).toNat) rfl _ e
    (same.withStatus coded.top)

theorem storeTemp_empty (empty : s.fpu.isEmpty 0#3 = true) (is : ok (leBytes 10 realIndefinite.toNat)) :
    s.Saves o ok true (storeTemp o) := by
  intro p d same
  have response : s.Saves o ok true (maskedOf [] fun v => do
      writeMemBytes o (leBytes 10 v.toNat) 8
      updFpu Fpu.pop) := fun q e kept =>
    (saves_put10 reach (leBytes_length 10 realIndefinite.toNat) is q e kept).congr
      (maskedOf_run (fun _ mem => absurd mem List.not_mem_nil) _)
  exact (saves_fault response p d same).congr
    (storeTemp_underflows (s := s.npx p d) ((same.isEmpty 0#3).trans empty))

/-- A store of packed decimal ends with the bytes of its digits, those of the indefinite, or none. -/
theorem storeBcd_saves (h : ∀ bs, bs.length = 10 → (∀ is, s.bcdStored = some is → bs = is) → ok bs) (p : Fpu) (d : Nat)
    (same : p.SameStack s.fpu) (cw : p.cw = s.fpu.cw) :
    Ends (storeBcdOp o) (s.npx p d) fun _ t => s.Withheld t ∨ s.Made o ok true t := by
  have put {bs : List Byte} (length : bs.length = 10) (is : ∀ is, s.bcdStored = some is → bs = is) :
      s.Saves o ok true (putBcd o bs) := saves_put10 reach length (h bs length is)
  have empty' : (s.npx p d).fpu.isEmpty 0#3 = s.fpu.isEmpty 0#3 := same.isEmpty 0#3
  have st : (s.npx p d).fpu.st 0#3 = s.fpu.st 0#3 := same.st 0#3
  have cw' : (s.npx p d).fpu.cw = s.fpu.cw := cw
  unfold State.bcdStored at put
  cases empty : s.fpu.isEmpty 0#3
  · have there := empty'.trans empty
    rw [empty, if_neg Bool.noConfusion] at put
    cases standard : s.preStandard [s.fpu.st 0#3]
    · have plain : (s.npx p d).preStandard [(s.npx p d).fpu.st 0#3] = false := by rw [st]; exact standard
      rw [standard, if_neg Bool.noConfusion] at put
      cases result : storeBcd s.fpu.cw (s.fpu.st 0#3) with
      | none =>
        rw [result] at put
        exact (saves_invalid (put rfl fun _ is => Option.some.inj is) p d same).congr
          (storeBcd_invalid there plain (by rw [cw', st]; exact result))
      | some r =>
        rw [result] at put
        refine Ends.congr ?_ (storeBcd_value there plain (by rw [cw', st]; exact result))
        rw [st]
        refine .status (s := s) (p := p) (u := p.status) ?_
        refine saves_codes _ (put ?_ fun _ is => Option.some.inj is) _ _ (same.withStatus rfl)
        rw [List.length_append, bcdBytes_length]
        rfl
    · rw [standard, if_pos rfl] at put
      exact (preStandardBcd_saves (fun bs length => put length nofun) p d same).congr
        (storeBcd_preStandard there (by rw [st]; exact standard))
  · rw [empty, if_pos rfl] at put
    exact (saves_fault (put rfl fun _ is => Option.some.inj is) p d same).congr
      (storeBcd_empty (s := s.npx p d) (empty'.trans empty))

end

end Sys2Proof.Machine
end

section
/-! The statement about the stores to memory (R488, R490 to R493). -/

namespace Sys2Proof.Machine

variable {s : State} {i : Instr} {o : MemOp} {n al : Nat}

/-- The bytes that a store may leave: those of ST(0), where no value is free. -/
def State.Stored (s : State) (i : Instr) (n : Nat) (bs : List Byte) : Prop :=
  bs.length = n ∧ ∀ stored, (s.npxStored i).1 = some stored → bs = stored

/-- How the coprocessor stands after a store of `bs`, by whether an exception withheld it. -/
def State.AfterStore (s : State) (i : Instr) (n : Nat) (pops : Bool) (bs : List Byte) (f : Fpu) : Prop :=
  (bs = [] ∧ f.status.es = true ∧ f.unmasked = true ∧ f.status.top = s.fpu.status.top ∧ f.tags = s.fpu.tags) ∨
  (bs.length = n ∧ (∀ stored, (s.npxStored i).1 = some stored → bs = stored) ∧
    f.status.top = (if pops then s.fpu.status.top + 1#3 else s.fpu.status.top) ∧
    f.tags = (if pops then s.fpu.tags.set s.fpu.status.top .empty else s.fpu.tags))

/-- A store that is made pops if it is a popping form. -/
theorem AfterStore_made {f : Fpu} {pops : Bool} {bs : List Byte} (ok : s.Stored i n bs) (same : f.SameStack s.fpu) :
    s.AfterStore i n pops bs (if pops then f.pop else f).settled := by
  refine .inr ⟨ok.1, ok.2, ?_, ?_⟩
  · cases pops
    · exact same.top
    · exact congrArg (· + 1#3) same.top
  · cases pops
    · exact same.tags
    · show f.tags.set (f.status.top + 0#3) .empty = _
      rw [BitVec.add_zero, same.tags, same.top]
      rfl

/-- The instruction completes with bytes stored, of which with the coprocessor `P` holds. -/
def State.EndsStore (s : State) (i : Instr) (o : MemOp) (P : List Byte → Fpu → Prop) : Prop :=
  ∃ (f : Fpu) (l : NpxLink) (d : Nat) (bs : List Byte),
    exec i s = .next ((s.putBytes (s.linOf (s.memSeg o) (s.ea o)) bs).npxDone f l d) ∧ f.regs = s.fpu.regs ∧ P bs f

section

variable {m : M Unit} {pops : Bool} (ready : s.npxReady = true) (reach : s.npxReaches o n true al = true)
  (row : exec i s = npxMem i o n al true m s)
include ready reach row

/-- A store that is made. -/
theorem endsStore_of_made {ok : List Byte → Prop}
    (h : Ends m (s.npxAt i (some o)) fun _ t => s.Made o ok pops t) (stored : ∀ bs, ok bs → s.Stored i n bs) :
    s.EndsStore i o fun bs f => ok bs ∧ s.AfterStore i n pops bs f := by
  obtain ⟨_, _, run, bs, f, d, rfl, is, same⟩ := h
  obtain ⟨l, done⟩ := npxMem_ok ready reach run
  refine ⟨_, l, d, bs, row.trans done, ?_, is, AfterStore_made (pops := pops) (stored bs is) same⟩
  cases pops
  · exact same.regs
  · exact same.regs

/-- A store that is made or withheld. -/
theorem endsStore_of_saves
    (h : Ends m (s.npxAt i (some o)) fun _ t => s.Withheld t ∨ s.Made o (s.Stored i n) pops t) :
    s.EndsStore i o (s.AfterStore i n pops) := by
  obtain ⟨_, t, run, withheld | made⟩ := h
  · obtain ⟨f, d, rfl, same, pending⟩ := withheld
    obtain ⟨l, done⟩ := npxMem_ok ready reach run
    exact ⟨f.settled, l, d, [], row.trans done, same.regs,
      .inl ⟨rfl, es_of_unmasked pending, pending, same.top, same.tags⟩⟩
  · obtain ⟨f, l, d, bs, run, regs, -, after⟩ :=
      endsStore_of_made (pops := pops) ready reach row (.of_run run made) fun _ is => is
    exact ⟨f, l, d, bs, run, regs, after⟩

end

section

variable (ready : s.npxReady = true)
include ready

/-- A store of a number. -/
theorem storeNum_ends {f : NumFmt} {pops : Bool} (reach : s.npxReaches o f.bytes true f.bytes = true)
    (row : exec i s = npxNum i f o true (storeNum f o pops) s) (stored : (s.npxStored i).1 = s.numStored f) :
    s.EndsStore i o (s.AfterStore i f.bytes pops) := by
  refine endsStore_of_saves ready reach row (storeNum_saves reach (fun v is => ⟨leBytes_length _ _, fun bs h => ?_⟩)
    _ _ ⟨rfl, rfl, rfl⟩ rfl)
  exact (is bs (stored ▸ h)).symm

variable (reach : s.npxReaches o 10 true 8 = true)
include reach

theorem fbstp_ends : s.EndsStore (.fbstp o) o (s.AfterStore (.fbstp o) 10 true) :=
  endsStore_of_saves ready reach rfl (storeBcd_saves reach (fun _ length is => ⟨length, is⟩) _ _ ⟨rfl, rfl, rfl⟩ rfl)

/-- A temporary real that is there is stored as it is. -/
theorem fstpM80_ends : s.EndsStore (.fstpM80 o) o fun bs f =>
    (s.fpu.isEmpty 0#3 = false → bs = leBytes 10 (s.fpu.st 0#3).toNat) ∧ s.AfterStore (.fstpM80 o) 10 true bs f := by
  have stored {v : Temp} (is : (if s.fpu.isEmpty 0#3 then realIndefinite else s.fpu.st 0#3) = v) :
      s.Stored (.fstpM80 o) 10 (leBytes 10 v.toNat) :=
    ⟨leBytes_length _ _, fun _ h => is ▸ Option.some.inj h⟩
  cases empty : s.fpu.isEmpty 0#3
  · rw [empty] at stored
    obtain ⟨f, l, d, bs, run, regs, is, after⟩ := endsStore_of_made (pops := true) ready reach rfl
      (storeTemp_there reach empty _ _ ⟨rfl, rfl, rfl⟩) fun bs is => is ▸ stored rfl
    exact ⟨f, l, d, bs, run, regs, fun _ => is, after⟩
  · rw [empty] at stored
    obtain ⟨f, l, d, bs, run, regs, after⟩ := endsStore_of_saves (pops := true) ready reach rfl
      (storeTemp_empty reach empty (stored rfl) _ _ ⟨rfl, rfl, rfl⟩)
    exact ⟨f, l, d, bs, run, regs, nofun, after⟩

end

/-! Without a coprocessor. -/

theorem dest_missing (row : Instr.npxDest i = some (o, n, al)) (reach : s.npxReaches o n true al = true)
    (missing : s.npxMissing = true) : ∃ (bs : List Byte) (d : Nat), bs.length = n ∧
      exec i s = .next ((s.putBytes (s.linOf (s.memSeg o) (s.ea o)) bs).setDraws d).advance := by
  obtain ⟨m, same⟩ := exec_npxDest row
  obtain ⟨bs, length, drawn⟩ := drawBytes_ok n s
  have kept : (s.putBytes (s.linOf (s.memSeg o) (s.ea o)) bs).setFpu s.fpu =
      s.putBytes (s.linOf (s.memSeg o) (s.ea o)) bs :=
    (s.putBytes_comm (·.setFpu s.fpu) (fun _ _ _ => rfl) (fun _ => rfl) _ bs).symm
  have write := writeMemBytes_npx reach length s.fpu (s.draws + n)
  rw [State.npx, State.npx, kept] at write
  refine ⟨bs, s.draws + n, length, (same s).trans (complete_ok ?_)⟩
  rw [whenFitted_absent missing]
  simp only [noNpxData, if_true, M.bind_run, npxProbe_ok reach, drawn]
  exact write

/-! Every store. -/

theorem store_ends (row : Instr.npxDest i = some (o, n, al)) (reach : s.npxReaches o n true al = true)
    (ready : s.npxReady = true) : s.EndsStore i o fun bs f =>
      (i = .fstpM80 o → s.fpu.isEmpty 0#3 = false → bs = leBytes 10 (s.fpu.st 0#3).toNat) ∧
        s.AfterStore i n (s.npxStored i).2 bs f := by
  have other (not : i ≠ .fstpM80 o) (h : s.EndsStore i o (s.AfterStore i n (s.npxStored i).2)) :
      s.EndsStore i o fun bs f =>
        (i = .fstpM80 o → s.fpu.isEmpty 0#3 = false → bs = leBytes 10 (s.fpu.st 0#3).toNat) ∧
          s.AfterStore i n (s.npxStored i).2 bs f := by
    obtain ⟨f, l, d, bs, run, regs, after⟩ := h
    exact ⟨f, l, d, bs, run, regs, fun is => absurd is not, after⟩
  cases i with
  | fstMem | fstpMem | fist | fistp => cases row; exact other nofun (storeNum_ends ready reach rfl rfl)
  | fistpM64 => cases row; exact other nofun (storeNum_ends (f := .int64) ready reach rfl rfl)
  | fbstp => cases row; exact other nofun (fbstp_ends ready reach)
  | fstpM80 =>
    cases row
    obtain ⟨f, l, d, bs, run, regs, exact_, after⟩ := fstpM80_ends ready reach
    exact ⟨f, l, d, bs, run, regs, fun _ => exact_, after⟩
  | _ => cases row

/-- Settles O42: each row is the store of a number, of a temporary real or of packed decimal. -/
theorem npxStoresComplete : Obligations.NpxStoresComplete := by
  intro i s m n al p top pops row reach
  refine ⟨fun ready => ?_, dest_missing row reach⟩
  obtain ⟨f, l, d, bs, run, regs, exact_, after⟩ := store_ends row reach ready
  exact ⟨f, l, d, bs, run, exact_, regs, after⟩

end Sys2Proof.Machine
end

section
/-! Instructions that the privilege level, the mode, IOPL or the I/O permission bitmap turns away (R72, R170, R601, R626
to R628): each raises its exception before it changes anything. -/

namespace Sys2Proof.Machine

variable {s : State}

/-- #GP(0) of an instruction that has changed nothing. -/
theorem complete_gp {m : M Unit} (raised : m s = .error (.exc ⟨13#8, some 0#16⟩) s) :
    complete m s = deliver ⟨13#8, .fault, s.eip, some 0#16⟩ s := by
  rw [complete_exc raised, restore_self]
  rfl

/-- #UD of an instruction that has changed nothing. -/
theorem complete_ud {m : M Unit} (raised : m s = .error (.exc ⟨6#8, none⟩) s) :
    complete m s = deliver ⟨6#8, .fault, s.eip, none⟩ s := by
  rw [complete_exc raised, restore_self]
  rfl

/-! The conditions that fail. -/

theorem privileged_fails (level : s.cpl ≠ 0#2) : privileged s = .error (.exc ⟨13#8, some 0#16⟩) s := by
  simp only [privileged, M.bind_run, getS_run, if_neg level, raiseGP_run]

theorem protectedOnly_fails (mode : s.protMode = false) : protectedOnly s = .error (.exc ⟨6#8, none⟩) s := by
  simp only [protectedOnly, M.bind_run, getS_run, mode]
  rfl

theorem ioplSensitive_fails (protection : s.sys.cr0.pe = true) (level : s.flags.iopl.toNat < s.cpl.toNat) :
    ioplSensitive s = .error (.exc ⟨13#8, some 0#16⟩) s := by
  simp only [ioplSensitive, M.bind_run, getS_run, protection, decide_eq_true level]
  rfl

theorem v86Sensitive_fails (mode : s.v86 = true) (level : s.flags.iopl ≠ 3#2) :
    v86Sensitive s = .error (.exc ⟨13#8, some 0#16⟩) s := by
  simp only [v86Sensitive, M.bind_run, getS_run, mode, bne_iff_ne.mpr level]
  rfl

/-- In virtual-8086 mode, at level 3, an IOPL other than 3 is below the level (R627). -/
theorem State.iopl_below_cpl (mode : s.v86 = true) (level : s.flags.iopl ≠ 3#2) :
    s.sys.cr0.pe = true ∧ s.flags.iopl.toNat < s.cpl.toNat := by
  obtain ⟨protection, vm⟩ : s.sys.cr0.pe = true ∧ s.flags.vm = true := by simpa [State.v86] using mode
  have cpl : s.cpl = 3#2 := by simp [State.cpl, protection, vm]
  refine ⟨protection, ?_⟩
  rw [cpl]
  have bound := s.flags.iopl.isLt
  have other : s.flags.iopl.toNat ≠ 3 := fun h => level (BitVec.eq_of_toNat_eq h)
  simp only [BitVec.toNat_ofNat]
  omega

/-- The bitmap does not allow the ports (R628): TR holds no 80386 task state segment, the segment ends before the word or
the bits, or a bit is set. -/
theorem ioBitmap_fails {port : BitVec 16} {n : Nat} (denied : s.ioDenies port n = true)
    (asked : s.v86 = true ∨ s.has386 = true) : ioBitmap port n s = .error (.exc ⟨13#8, some 0#16⟩) s := by
  simp only [State.ioDenies, Bool.and_eq_true, Bool.or_eq_true, Bool.not_eq_true', decide_eq_true_eq] at denied
  obtain ⟨-, reason⟩ := denied
  simp only [ioBitmap, M.bind_run, getS_run]
  by_cases tss : (!s.sys.tr.usable || !(arType s.sys.tr.access == 9 || arType s.sys.tr.access == 11)) = true
  · rw [if_pos tss, raiseGP_run]
  rw [if_neg tss]
  by_cases small : s.sys.tr.limit.toNat < 0x67
  · rw [if_pos small, raiseGP_run]
  rw [if_neg small]
  obtain (((⟨noV86, old⟩ | unusable) | kind) | short) | ⟨offset, bits⟩ := reason
  · simp [noV86, old] at asked
  · simp [unusable] at tss
  · simp [kind] at tss
  · exact absurd short small
  refine (M.bind_ok (sysRead_plain offset) _).trans ?_
  obtain beyond | ⟨bitmap, set⟩ := bits
  · rw [if_pos beyond, raiseGP_run]
  · split
    · exact raiseGP_run _ _
    · rw [M.bind_ok (sysRead_plain bitmap), if_neg set, raiseGP_run]

/-- Neither the mode, nor IOPL, nor the bitmap allows the access (R72, R627, R628). -/
theorem ioPermitted_fails {port : BitVec 16} {n : Nat} (denied : s.ioDenies port n = true) :
    ioPermitted port n s = .error (.exc ⟨13#8, some 0#16⟩) s := by
  obtain ⟨protection, level⟩ : s.sys.cr0.pe = true ∧ (s.v86 = true ∨ s.flags.iopl.toNat < s.cpl.toNat) := by
    have parts := denied
    simp only [State.ioDenies, Bool.and_eq_true, Bool.or_eq_true, decide_eq_true_eq] at parts
    exact parts.1
  simp only [ioPermitted, M.bind_run, getS_run, protection, Bool.not_true, Bool.false_eq_true, if_false]
  by_cases v86 : s.v86 = true
  · rw [if_pos v86]; exact ioBitmap_fails denied (.inl v86)
  have below : ¬ s.cpl.toNat ≤ s.flags.iopl.toNat := Nat.not_le.mpr (level.resolve_left v86)
  rw [if_neg v86, if_neg below]
  by_cases newer : s.has386 = true
  · rw [if_pos newer]; exact ioBitmap_fails denied (.inr newer)
  · rw [if_neg newer, raiseGP_run]

/-! The instructions. -/

/-- The instructions that only level 0 may execute, in every mode (R626). -/
def Instr.privilegedOp : Instr → Bool
  | .hlt | .clts | .invd | .wbinvd | .invlpg _ | .lgdt _ | .lidt _ | .lmsw _ | .movToCr _ _ | .movFromCr _ _
  | .movToDr _ _ | .movFromDr _ _ | .movToTr _ _ | .movFromTr _ _ => true
  | _ => false

theorem exec_privileged {i : Instr} (row : Instr.privilegedOp i = true) (level : s.cpl ≠ 0#2) :
    exec i s = deliver ⟨13#8, .fault, s.eip, some 0#16⟩ s := by
  have stops (k : Unit → M Unit) : complete (privileged >>= k) s = deliver ⟨13#8, .fault, s.eip, some 0#16⟩ s :=
    complete_gp (bind_error (privileged_fails level))
  cases i with
  | invd | wbinvd => exact complete_gp (privileged_fails level)
  | hlt | clts | invlpg | lgdt | lidt | lmsw | movToCr | movFromCr | movToDr | movFromDr | movToTr | movFromTr =>
    exact stops _
  | _ => cases row

/-- The moves between a selector and LDTR or TR need level 0 besides protected mode (R440, R443, R626). -/
theorem exec_loadSystem {i : Instr} {rm : RM} (row : i = .lldt rm ∨ i = .ltr rm) (mode : s.protMode = true)
    (level : s.cpl ≠ 0#2) : exec i s = deliver ⟨13#8, .fault, s.eip, some 0#16⟩ s := by
  have stops (k : Unit → M Unit) : complete (protectedOnly >>= fun _ => privileged >>= k) s =
      deliver ⟨13#8, .fault, s.eip, some 0#16⟩ s :=
    (complete_protected mode).trans (complete_gp (bind_error (privileged_fails level)))
  obtain rfl | rfl := row
  · exact stops _
  · exact stops _

/-- The instructions over selectors, which only protected mode has (R170). -/
def Instr.selectorOp : Instr → Bool
  | .arpl _ _ | .lar _ _ | .lsl _ _ | .verr _ | .verw _ | .lldt _ | .ltr _ | .sldt _ | .str _ => true
  | _ => false

theorem exec_selector {i : Instr} (row : Instr.selectorOp i = true) (mode : s.protMode = false) :
    exec i s = deliver ⟨6#8, .fault, s.eip, none⟩ s := by
  have stops (k : Unit → M Unit) : complete (protectedOnly >>= k) s = deliver ⟨6#8, .fault, s.eip, none⟩ s :=
    complete_ud (bind_error (protectedOnly_fails mode))
  cases i with
  | arpl | lar | lsl | verr | verw | lldt | ltr | sldt | str => exact stops _
  | _ => cases row

theorem exec_ioplSensitive {i : Instr} (row : i = .cli ∨ i = .sti) (protection : s.sys.cr0.pe = true)
    (level : s.flags.iopl.toNat < s.cpl.toNat) : exec i s = deliver ⟨13#8, .fault, s.eip, some 0#16⟩ s := by
  have stops (k : Unit → M Unit) : complete (ioplSensitive >>= k) s = deliver ⟨13#8, .fault, s.eip, some 0#16⟩ s :=
    complete_gp (bind_error (ioplSensitive_fails protection level))
  obtain rfl | rfl := row
  · exact stops _
  · exact stops _

/-- PUSHF, POPF, INT n and IRET in virtual-8086 mode (R627). -/
theorem exec_v86Sensitive {i : Instr} {v : BitVec 8} (row : i = .pushf ∨ i = .popf ∨ i = .intN v ∨ i = .iret)
    (mode : s.v86 = true) (level : s.flags.iopl ≠ 3#2) :
    exec i s = deliver ⟨13#8, .fault, s.eip, some 0#16⟩ s := by
  have sensitive : (s.v86 && s.flags.iopl != 3#2) = true := by simp [mode, level]
  have notProt : s.protMode = false := by
    simp only [State.v86, Bool.and_eq_true] at mode
    simp [State.protMode, mode]
  have stops (k : Unit → M Unit) : complete (v86Sensitive >>= k) s = deliver ⟨13#8, .fault, s.eip, some 0#16⟩ s :=
    complete_gp (bind_error (v86Sensitive_fails mode level))
  obtain rfl | rfl | rfl | rfl := row
  · exact stops _
  · exact stops _
  · refine (if_pos sensitive).trans (finish_gp (raiseGP_run _ _) (restore_self s))
  · refine finish_gp (u := s) ?_ (restore_self s)
    simp only [interruptReturn, M.bind_run, getS_run, notProt, sensitive, if_true, Bool.false_eq_true, if_false,
      raiseGP_run]

/-- IN and OUT of a port that is denied. -/
theorem exec_port_denied {i : Instr} {w : Bool} {port : BitVec 16} (denied : s.ioDenies port (s.opW w).bytes = true)
    (row : exec i s = complete (inputTo (s.opW w) port) s ∨ exec i s = complete (outputFrom (s.opW w) port) s) :
    exec i s = deliver ⟨13#8, .fault, s.eip, some 0#16⟩ s := by
  obtain input | output := row
  · exact input.trans (complete_gp (bind_error (ioPermitted_fails denied)))
  · exact output.trans (complete_gp (bind_error (ioPermitted_fails denied)))

/-- INS and OUTS of a port that is denied. -/
theorem element_denied {w : Width} (denied : s.ioDenies (s.reg .w16 rDX) w.bytes = true) :
    insOnce w s = .error (.exc ⟨13#8, some 0#16⟩) s ∧ outsOnce w s = .error (.exc ⟨13#8, some 0#16⟩) s := by
  have permission := ioPermitted_fails denied
  constructor
  · simp only [insOnce, M.bind_run, getS_run, permission]
  · simp only [outsOnce, M.bind_run, getS_run, permission]

/-- A repeated instruction whose element raises #GP(0) before it changes anything. -/
theorem repeated_gp {once : M Unit} {stop : Option Bool} (nonzero : s.count ≠ 0#32)
    (raised : once s = .error (.exc ⟨13#8, some 0#16⟩) s) :
    repeated once stop s = deliver ⟨13#8, .fault, s.eip, some 0#16⟩ s := by
  refine finish_gp (u := s) ?_ (restore_self s)
  simp only [if_neg nonzero, M.bind_run, raised]

/-- Settles O39: each row checks the level, the mode or the port before anything else. -/
theorem privilegeTraps : Obligations.PrivilegeTraps := by
  intro s i rm m reg cr dr tr v w port gp ud
  refine ⟨fun level row => exec_privileged ?_ level, fun mode level row => exec_loadSystem (rm := rm) ?_ mode level,
    fun mode row => exec_selector ?_ mode, fun protection level row => exec_ioplSensitive ?_ protection level,
    fun mode level row => ?_, fun denied => ⟨?_, ?_, ?_⟩⟩
  · simp only [List.mem_cons, List.not_mem_nil, or_false] at row
    obtain rfl | rfl | rfl | rfl | rfl | rfl | rfl | rfl | rfl | rfl | rfl | rfl | rfl | rfl := row <;> rfl
  · simpa using row
  · simp only [List.mem_cons, List.not_mem_nil, or_false] at row
    obtain rfl | rfl | rfl | rfl | rfl | rfl | rfl | rfl | rfl := row <;> rfl
  · simpa using row
  · simp only [List.mem_cons, List.not_mem_nil, or_false, ← or_assoc (a := i = .cli)] at row
    obtain flag | row := row
    · obtain ⟨protection, below⟩ := s.iopl_below_cpl mode level
      exact exec_ioplSensitive flag protection below
    · exact exec_v86Sensitive row mode level
  · rintro rfl row
    obtain rfl | rfl : i = .inPort w v ∨ i = .outPort w v := by simpa using row
    · exact exec_port_denied denied (.inl rfl)
    · exact exec_port_denied denied (.inr rfl)
  · rintro rfl row
    obtain ⟨input, output⟩ := element_denied denied
    obtain rfl | rfl | rfl | rfl : i = .inDx w ∨ i = .outDx w ∨ i = .ins w ∨ i = .outs w := by simpa using row
    · exact exec_port_denied denied (.inl rfl)
    · exact exec_port_denied denied (.inr rfl)
    · exact complete_gp input
    · exact complete_gp output
  · rintro rfl nonzero row
    obtain ⟨input, output⟩ := element_denied denied
    obtain rfl | rfl : i = .repIns w ∨ i = .repOuts w := by simpa using row
    · exact repeated_gp nonzero input
    · exact repeated_gp nonzero output

end Sys2Proof.Machine
end

section
/-! Privileged state outside level 0 (R39, R603, R611, R612, R626, R627): what a step can change of it. A privileged
instruction is turned away, IRET and POPF keep IOPL, and everything else keeps a plain relation. -/

namespace Sys2Proof.Machine

variable {α β : Type}

/-- The control, debug, test and table registers, LDTR, TR, IOPL and the parameters stay, but for CR2 and the level. -/
structure SamePrivileged (s t : State) : Prop where
  sys : t.sys = { s.sys with cr2 := t.sys.cr2, cpl := t.sys.cpl }
  iopl : t.flags.iopl = s.flags.iopl
  cfg : t.cfg = s.cfg

theorem SamePrivileged.of_eq {s t : State} (sys : t.sys = s.sys) (flags : t.flags = s.flags) (cfg : t.cfg = s.cfg) :
    SamePrivileged s t := ⟨by rw [sys], by rw [flags], cfg⟩

theorem SamePrivileged.trans {s t u : State} (h : SamePrivileged s t) (k : SamePrivileged t u) : SamePrivileged s u :=
  ⟨by rw [k.sys, h.sys], k.iopl.trans h.iopl, k.cfg.trans h.cfg⟩

theorem closed_samePrivileged : Closed SamePrivileged where
  refl _ := .of_eq rfl rfl rfl
  trans _ _ _ := .trans
  draws _ _ := .of_eq rfl rfl rfl
  env _ _ := .of_eq rfl rfl rfl
  store _ _ _ := .of_eq rfl rfl rfl
  tlb _ _ := .of_eq rfl rfl rfl
  cr2 _ _ := ⟨rfl, rfl, rfl⟩
  gpr _ _ := .of_eq rfl rfl rfl

theorem plain_samePrivileged : Plain SamePrivileged where
  closed := closed_samePrivileged
  eip _ _ := .of_eq rfl rfl rfl
  cur _ _ := .of_eq rfl rfl rfl
  stored _ _ := .of_eq rfl rfl rfl
  ctl _ _ := .of_eq rfl rfl rfl
  fpu _ _ := .of_eq rfl rfl rfl
  link _ _ := .of_eq rfl rfl rfl
  cpl _ _ := ⟨rfl, rfl, rfl⟩
  flags _ _ within := ⟨rfl, within.iopl, rfl⟩
  segs _ _ _ := .of_eq rfl rfl rfl
  restored _ _ _ := ⟨rfl, rfl, rfl⟩

/-! POPF and IRET (R246, R413). -/

/-- Outside level 0 no load of the flag register changes IOPL (R246). -/
theorem Flags.load16_iopl {s : State} (level : s.cpl ≠ 0#2) (v : BitVec 32) :
    (s.flags.load16 v s.flagRights).iopl = s.flags.iopl := by
  simp [Flags.load16, State.flagRights, level]

theorem popFlags_iopl {s : State} (level : s.cpl ≠ 0#2) (v : BitVec 32) (os : Size) :
    (s.popFlags v os).iopl = s.flags.iopl := by
  cases os <;> exact Flags.load16_iopl level v

theorem irFlags_iopl {s : State} (level : s.cpl ≠ 0#2) (v : BitVec 32) (os : Size) :
    (s.irFlags v os).iopl = s.flags.iopl := by
  cases os <;> exact Flags.load16_iopl level v

/-- After what keeps the privileged registers of `s`, a computation keeps them. -/
def KeepsSince (s : State) (m : M α) : Prop := ∀ u, SamePrivileged s u → KeepsAt SamePrivileged m u

theorem Keeps.since {m : M α} (h : Keeps SamePrivileged m) (s : State) : KeepsSince s m := fun u _ => h u

theorem KeepsSince.bind {s : State} {m : M α} {f : α → M β} (hm : KeepsSince s m) (hf : ∀ a, KeepsSince s (f a)) :
    KeepsSince s (m >>= f) := fun u hu =>
  (hm u hu).bind closed_samePrivileged fun a t ht => hf a t (hu.trans ((hm u hu).1 a t ht))

theorem KeepsSince.ite {s : State} {c : Prop} [Decidable c] {m n : M α} (hm : c → KeepsSince s m)
    (hn : ¬ c → KeepsSince s n) : KeepsSince s (if c then m else n) := by
  split
  · rename_i h; exact hm h
  · rename_i h; exact hn h

/-- The flag register with the IOPL it had. -/
theorem KeepsSince.setFlags {s : State} {f : Flags} (iopl : f.iopl = s.flags.iopl) :
    KeepsSince s (updS fun t => t.setFlags f) := fun _ hu => .upd ⟨rfl, iopl.trans hu.iopl.symm, rfl⟩

theorem popf_keepsPrivileged {s t : State} (level : s.cpl ≠ 0#2) (ht : execPopf s = .next t) : SamePrivileged s t := by
  have p := plain_samePrivileged
  refine p.completeAt ?_ ht
  refine KeepsSince.bind (p.v86Sensitive.since s)
    (fun _ => .bind (Keeps.since (.pop p.closed _) s) fun v => ?_) s (p.refl s)
  exact .setFlags (popFlags_iopl level _ _)

/-- What IRET does after its flags. -/
theorem unblockNmi_keepsPrivileged : Keeps SamePrivileged unblockNmi := plain_samePrivileged.updCtl _

theorem iretReal_keepsPrivileged {s : State} (level : s.cpl ≠ 0#2) : KeepsAt SamePrivileged iretReal s := by
  have p := plain_samePrivileged
  have pops (w : Width) : KeepsSince s (pop w) := Keeps.since (.pop p.closed w) s
  refine .get p.closed ?_
  refine KeepsSince.bind (pops _) (fun _ => .bind (pops _) fun sel => .bind (pops _) fun fl => ?_) s (p.refl s)
  refine .ite (fun _ => (p.raise _ _).since s) fun _ => .bind ((p.putCs _).since s) fun _ => ?_
  refine .bind (.setFlags (irFlags_iopl level _ _)) fun _ => ?_
  exact (p.bind unblockNmi_keepsPrivileged fun _ => p.jumpTo _).since s

theorem iretProt_keepsPrivileged {s : State} (level : s.cpl ≠ 0#2) : KeepsAt SamePrivileged iretProt s := by
  have p := plain_samePrivileged
  have peeks (w : Width) (k : Nat) : KeepsSince s (peek w k) := Keeps.since (.peek p.closed w k) s
  refine .get p.closed (.ite (fun _ => p.refuse _ s) fun _ => ?_)
  refine KeepsSince.bind (peeks _ _) (fun _ => .bind (peeks _ _) fun sel => .bind (peeks _ _) fun fl => ?_) s (p.refl s)
  refine .ite (fun toV86 => absurd toV86.2.2 level) fun _ => .bind ((p.returnProt _ _ _ _ _).since s) fun _ => ?_
  exact .bind (.setFlags (irFlags_iopl level _ _)) fun _ => unblockNmi_keepsPrivileged.since s

theorem iret_keepsPrivileged {s t : State} (level : s.cpl ≠ 0#2) (ht : execIret s = .next t) : SamePrivileged s t := by
  have p := plain_samePrivileged
  refine p.finishAt (.get p.closed (.ite (fun _ => iretProt_keepsPrivileged level) fun _ => ?_)) ht
  exact .ite (fun _ => p.raise _ _ s) fun _ => iretReal_keepsPrivileged level

/-! The instructions and the step. -/

/-- An instruction outside level 0: a system instruction other than POPF and IRET is turned away. -/
theorem exec_keepsPrivileged {s t : State} (i : Instr) (level : s.cpl ≠ 0#2) (ht : exec i s = .next t) :
    SamePrivileged s t := by
  have p := plain_samePrivileged
  by_cases ordinary : systemInstr i = false
  · exact exec_keeps p i ordinary s t ht
  have turnedAway {e : Event} (h : exec i s = deliver e s) : SamePrivileged s t := p.deliver e s t (h.symm.trans ht)
  have loads (rm : RM) (row : i = .lldt rm ∨ i = .ltr rm) : SamePrivileged s t := by
    cases mode : s.protMode with
    | true => exact turnedAway (exec_loadSystem row mode level)
    | false =>
      have selector : Instr.selectorOp i = true := by obtain rfl | rfl := row <;> rfl
      exact turnedAway (exec_selector selector mode)
  cases i with
  | popf => exact popf_keepsPrivileged level ht
  | iret => exact iret_keepsPrivileged level ht
  | lldt rm => exact loads rm (.inl rfl)
  | ltr rm => exact loads rm (.inr rfl)
  | clts | lmsw | lgdt | lidt | movToCr | movToDr | movToTr => exact turnedAway (exec_privileged rfl level)
  | _ => exact absurd rfl ordinary

/-- What decides the current level stays. -/
structure SameLevel (s t : State) : Prop where
  cr0 : t.sys.cr0 = s.sys.cr0
  vm : t.flags.vm = s.flags.vm
  cpl : t.sys.cpl = s.sys.cpl

theorem SameLevel.level {s t : State} (h : SameLevel s t) : t.cpl = s.cpl := by
  simp only [State.cpl, h.cr0, h.vm, h.cpl]

theorem closed_sameLevel : Closed SameLevel where
  refl _ := ⟨rfl, rfl, rfl⟩
  trans _ _ _ h k := ⟨k.cr0.trans h.cr0, k.vm.trans h.vm, k.cpl.trans h.cpl⟩
  draws _ _ := ⟨rfl, rfl, rfl⟩
  env _ _ := ⟨rfl, rfl, rfl⟩
  store _ _ _ := ⟨rfl, rfl, rfl⟩
  tlb _ _ := ⟨rfl, rfl, rfl⟩
  cr2 _ _ := ⟨rfl, rfl, rfl⟩
  gpr _ _ := ⟨rfl, rfl, rfl⟩

/-- Fetching stays at the level (R131). -/
theorem fetchByte_level (off : Nat) : Keeps SameLevel (fetchByte off) := by
  have c := closed_sameLevel
  refine .get c fun s => Keeps.ite (.raise c _ _) (.bind c (.linAddrs c _ _ _ _) fun a => ?_) s
  refine .bind c (.physRead c _) fun b => .get c fun u => ?_
  cases oldByte u.stored (busAddr u.cfg (a.headD 0)) with
  | none => exact Keeps.pure c _ u
  | some old => exact Keeps.bind c (.drawBit c) (fun _ => .pure c _) u

theorem fetchFrom_level (c : Ctx) (start more : Nat) (bs : List Byte) : Keeps SameLevel (fetchFrom c start more bs) := by
  have k := closed_sameLevel
  have stops (e : DecErr) : Keeps SameLevel (decodeStop e : M (Instr × Nat)) := by
    cases e with
    | more | ud => exact .raise k _ _
    | undocumented => exact .refuse k _
  induction more generalizing bs with
  | zero =>
    unfold fetchFrom
    split
    · exact .pure k _
    · exact stops _
  | succ more ih =>
    unfold fetchFrom
    split
    · exact .pure k _
    · exact .bind k (fetchByte_level _) fun _ => ih _
    · exact stops _
    · exact stops _

theorem fetchChecked_level : Keeps SameLevel fetchChecked := by
  have c := closed_sameLevel
  refine .bind c (.get c fun s => fetchFrom_level _ _ _ _ s) fun ⟨i, n⟩ => .bind c (.get c fun s => ?_) fun _ => ?_
  · refine Keeps.ite (.get c fun u => ?_) (.pure c _) s
    exact Keeps.ite (.ite (.pure c _) (.raise c _ _)) (.ite (.raise c _ _) (.pure c _)) u
  · exact .bind c (.upd fun _ => ⟨rfl, rfl, rfl⟩) fun _ => .pure c _

theorem runFetched_keepsPrivileged {s t : State} (level : s.cpl ≠ 0#2) (ht : runFetched s = .next t) :
    SamePrivileged s t := by
  have p := plain_samePrivileged
  unfold runFetched at ht
  cases fetched : fetchChecked s with
  | ok i u =>
    rw [fetched] at ht
    have same := (fetchChecked_level s).1 i u fetched
    exact ((p.fetchChecked s).1 i u fetched).trans (exec_keepsPrivileged i (same.level ▸ level) ht)
  | error x u =>
    rw [fetched] at ht
    refine p.finishAt ?_ ht
    exact .error rfl ((p.fetchChecked s).2 x u fetched)

/-! The boundary (R605, R635). -/

/-- What the statement says of a step: the privileged registers stay but for CR2, BS in DR6 and the level. -/
structure PrivilegedKept (s t : State) : Prop where
  sys : t.sys = { s.sys with cr2 := t.sys.cr2, dr6 := t.sys.dr6, cpl := t.sys.cpl }
  dr6 : t.sys.dr6 = s.sys.dr6 ∨ t.sys.dr6 = (s.sys.dr6 ||| 0x4000#32)
  iopl : t.flags.iopl = s.flags.iopl
  cfg : t.cfg = s.cfg

theorem SamePrivileged.kept {s t : State} (h : SamePrivileged s t) : PrivilegedKept s t :=
  ⟨by rw [h.sys], .inl (by rw [h.sys]), h.iopl, h.cfg⟩

theorem PrivilegedKept.trans {s u t : State} (h : PrivilegedKept s u) (k : SamePrivileged u t) : PrivilegedKept s t := by
  have dr6 : t.sys.dr6 = u.sys.dr6 := by rw [k.sys]
  exact ⟨by rw [k.sys, h.sys], dr6 ▸ h.dr6, k.iopl.trans h.iopl, k.cfg.trans h.cfg⟩

theorem PrivilegedKept.from {s u t : State} (h : PrivilegedKept u t) (sys : u.sys = s.sys) (flags : u.flags = s.flags)
    (cfg : u.cfg = s.cfg) : PrivilegedKept s t :=
  ⟨by rw [h.sys, sys], sys ▸ h.dr6, flags ▸ h.iopl, h.cfg.trans cfg⟩

/-- The single-step trap sets BS in DR6 from the 80386 on (R635). -/
theorem singleStep_kept (s : State) : PrivilegedKept s s.singleStep := by
  unfold State.singleStep
  split
  · exact ⟨rfl, .inr rfl, rfl, rfl⟩
  · exact ⟨rfl, .inl rfl, rfl, rfl⟩

@[simp] theorem State.sampleNmi_sys (s : State) : s.sampleNmi.sys = s.sys := by unfold State.sampleNmi; split <;> rfl
@[simp] theorem State.sampleNmi_flags (s : State) : s.sampleNmi.flags = s.flags := by
  unfold State.sampleNmi; split <;> rfl
@[simp] theorem State.sampleNmi_cfg (s : State) : s.sampleNmi.cfg = s.cfg := by unfold State.sampleNmi; split <;> rfl

theorem boundary_kept (s : State) : PrivilegedKept s (boundary s).state := by
  have sampled : SamePrivileged s s.sampleNmi := plain_samePrivileged.sampleNmi s
  unfold boundary
  dsimp only
  split
  · exact sampled.kept
  split
  · exact (singleStep_kept s.sampleNmi).from s.sampleNmi_sys s.sampleNmi_flags s.sampleNmi_cfg
  split
  · exact (sampled.trans (plain_samePrivileged.ctl _ _)).kept
  split
  · exact (sampled.trans (plain_samePrivileged.irqBoundary _)).kept
  · exact sampled.kept

/-- Where nothing is taken, the level stays. -/
theorem boundary_level {s u : State} (goes : boundary s = .goOn u) : u.cpl = s.cpl := by
  have same : u.sys = s.sys ∧ u.flags = s.flags := by
    rw [← s.sampleNmi_sys, ← s.sampleNmi_flags]
    unfold boundary irqBoundary at goes
    dsimp only at goes
    repeat' split at goes
    all_goals cases goes
    all_goals exact ⟨rfl, rfl⟩
  simp only [State.cpl, same]

theorem atBoundary_keepsPrivileged {s t : State} (level : s.cpl ≠ 0#2) (ht : atBoundary s = .next t) :
    PrivilegedKept s t := by
  have p := plain_samePrivileged
  have kept := boundary_kept s
  unfold atBoundary at ht
  cases found : boundary s with
  | take e u =>
    rw [found] at ht kept
    exact kept.trans (p.deliver e u t ht)
  | goOn u =>
    rw [found] at ht kept
    have outside : u.begin.cpl ≠ 0#2 := (boundary_level found).trans_ne level
    refine kept.trans ?_
    dsimp only at ht
    split at ht
    · exact p.stayHalted u t ht
    · exact (p.ctl u _).trans (runFetched_keepsPrivileged outside ht)

/-- Settles O60: outside level 0 a system instruction is turned away or keeps IOPL, every other instruction and every
event that is taken keep a plain relation, and only the single-step trap changes DR6. -/
theorem privilegedStateKept : Obligations.PrivilegedStateKept := by
  intro s t _ level ht
  have kept : PrivilegedKept s t := by
    unfold step at ht
    split at ht
    · cases ht
    split at ht
    · exact atBoundary_keepsPrivileged level ht
    · exact (runFetched_keepsPrivileged level ht).kept
  exact ⟨kept.sys, kept.dr6, kept.iopl, kept.cfg⟩

end Sys2Proof.Machine
end

section
/-! BSWAP, CMPXCHG and XADD (R571 to R573). -/

namespace Sys2Proof.Machine

variable {s : State}

/-- Byte `k` of a doubleword in whole numbers. -/
theorem extractByte (v : BitVec 32) (k : Nat) :
    v.extractLsb' (8 * k) 8 = BitVec.ofNat 8 (v.toNat / 256 ^ k % 256) := by
  have shift : 2 ^ (8 * k) = 256 ^ k := by rw [Nat.pow_mul]
  apply BitVec.eq_of_toNat_eq
  simp [BitVec.extractLsb'_toNat, Nat.shiftRight_eq_div_pow, shift]

theorem byteSwap_eq (v : BitVec 32) : byteSwap v =
    let byte (k : Nat) : BitVec 8 := BitVec.ofNat 8 (v.toNat / 256 ^ k % 256)
    byte 0 ++ byte 1 ++ byte 2 ++ byte 3 := by
  simp only [← extractByte]
  rfl

theorem bswap32 (reg : RegNum) (os : s.os = .s32) :
    exec (.bswap reg) s = .next (s.regPut .w32 reg (byteSwap (s.reg .w32 reg))).advance := by
  refine complete_ok ?_
  rw [os]
  rfl

theorem bswap16 (reg : RegNum) (os : s.os = .s16) :
    exec (.bswap reg) s = .next ((s.regPut .w16 reg (Config.freeWord s.draws)).setDraws (s.draws + 1)).advance := by
  refine complete_ok ?_
  rw [os]
  rfl

/-- The write check of an operand that can be written. -/
theorem probeRM_ok {w : Width} {rm : RM} (h : s.rmWrites w rm = true) : probeRM w rm s = .ok () s := by
  cases rm with
  | reg r => rfl
  | mem m => simp only [probeRM, M.bind_run, getS_run, probeWrite_ok h]

/-- The status flags change no access. -/
theorem State.setStatus_rmWrites {n : Nat} (o : AluOut n) (w : Width) (rm : RM) :
    (s.setFlags (s.flags.status o)).rmWrites w rm = s.rmWrites w rm :=
  (sameAccess_flags s (s.flags.status o) rfl rfl).rmWrites rfl rfl w rm

/-- CMPXCHG on an operand `d` (R572): the source replaces an operand equal to the accumulator; one that differs is
written back and loads the accumulator. -/
def State.exchanged (s : State) (w : Width) (reg : RegNum) (rm : RM) : State :=
  let d := s.rmVal w rm
  let t := s.setFlags (s.flags.status (subN (s.reg w rAX) d false))
  if s.reg w rAX = d then t.rmPut w rm (s.reg w reg) else (t.rmPut w rm d).regPut w rAX d

/-- A register that is written back keeps its value. -/
theorem State.exchanged_reg (w : Width) (reg r : RegNum) : s.exchanged w reg (.reg r) =
    let t := s.setFlags (s.flags.status (subN (s.reg w rAX) (s.reg w r) false))
    if s.reg w rAX = s.reg w r then t.regPut w r (s.reg w reg) else t.regPut w rAX (s.reg w r) := by
  have kept := regPut_self (s.setFlags (s.flags.status (subN (s.reg w rAX) (s.reg w r) false))) w r
  exact congrArg (fun t : State => if s.reg w rAX = s.reg w r then _ else t.regPut w rAX (s.reg w r)) kept

theorem cmpxchg_ok {w : Bool} {rm : RM} (reg : RegNum) (both : s.rmBoth (s.opW w) rm = true) :
    exec (.cmpxchg w reg rm) s = .next (s.exchanged (s.opW w) reg rm).advance := by
  obtain ⟨reads, writes⟩ := Bool.and_eq_true_iff.1 both
  have writable : (s.setFlags (s.flags.status (subN (s.reg (s.opW w) rAX) (s.rmVal (s.opW w) rm) false))).rmWrites
      (s.opW w) rm = true := (State.setStatus_rmWrites _ _ _).trans writes
  refine complete_ok ?_
  simp only [M.bind_run, probeRM_ok writes, readRM_ok reads, updFlags_run, State.exchanged]
  by_cases equal : s.reg (s.opW w) rAX = s.rmVal (s.opW w) rm
  · rw [if_pos equal, if_pos equal, writeRM_ok _ writable]
  · rw [if_neg equal, if_neg equal, M.bind_ok (writeRM_ok _ writable), setReg_regPut]

/-- XADD with a register (R573): the sum is written last. -/
theorem xadd_reg (w : Bool) (reg r : RegNum) :
    let wd := s.opW w
    let sum := addN (s.reg wd r) (s.reg wd reg) false
    exec (.xadd w reg (.reg r)) s = .next
      (((s.regPut wd reg (s.reg wd r)).regPut wd r sum.r).setFlags (s.flags.status sum)).advance :=
  complete_ok rfl

/-- XADD with memory (R573). -/
theorem xadd_mem {w : Bool} {m : MemOp} (reg : RegNum) (both : s.rmBoth (s.opW w) (.mem m) = true) :
    let wd := s.opW w
    let d := s.memVal wd (s.memSeg m) (s.ea m)
    let sum := addN d (s.reg wd reg) false
    exec (.xadd w reg (.mem m)) s = .next
      (((s.memPut wd (s.memSeg m) (s.ea m) sum.r).regPut wd reg d).setFlags (s.flags.status sum)).advance := by
  intro wd d sum
  obtain ⟨reads, writes⟩ := Bool.and_eq_true_iff.1 both
  refine complete_ok ?_
  simp only [M.bind_run, probeRM_ok writes, readRM_ok reads, writeRM_ok _ writes, setReg_regPut, updFlags_run]
  have flags : ((s.memPut wd (s.memSeg m) (s.ea m) sum.r).regPut wd reg d).flags = s.flags := State.memPut_flags _ _ _ _
  rw [← flags]
  rfl

/-- Settles O26: each instruction is evaluated on its operand; a register that CMPXCHG writes back keeps its value. -/
theorem exchangeOps486 : Obligations.ExchangeOps486 := by
  intro s w reg r m wd cmp sum d byte
  refine ⟨fun os => ?_, bswap16 reg, ?_, xadd_reg w reg r, fun both => ⟨cmpxchg_ok reg both, xadd_mem reg both⟩⟩
  · rw [bswap32 reg os, byteSwap_eq]
  · rw [cmpxchg_ok (rm := .reg r) reg rfl, State.exchanged_reg]

end Sys2Proof.Machine
end

section
/-! The coprocessor's ports (R562, R641, R643, R663): what a write to F0 or F1 does, and what is refused. -/

namespace Sys2Proof.Machine

variable {s : State} {port : BitVec 16} {w : Width}

/-! Instructions that are refused. -/

theorem finish_refused {m : M Unit} {t : State} {r : Refusal} (h : m s = .error (.refuse r) t) :
    finish m s = .refused r := by
  unfold finish; rw [h]

theorem complete_refused {m : M Unit} {t : State} {r : Refusal} (h : m s = .error (.refuse r) t) :
    complete m s = .refused r := by
  refine finish_refused (t := t) ?_
  simp only [M.bind_run, h]

theorem repeated_refused {once : M Unit} {stop : Option Bool} {t : State} {r : Refusal} (nonzero : s.count ≠ 0#32)
    (h : once s = .error (.refuse r) t) : repeated once stop s = .refused r := by
  refine finish_refused (t := t) ?_
  simp only [if_neg nonzero, M.bind_run, h]

/-! Reads and writes of the ports. -/

/-- An access of `n` bytes touches a port from `lo` to `hi`. -/
def Touches (port : BitVec 16) (n lo hi : Nat) : Prop := port.toNat ≤ hi ∧ lo < port.toNat + n

/-- A write is the 8-bit 0 to F0. -/
def Clears (port : BitVec 16) (w : Width) (v : Val w) : Prop := port = 0xF0#16 ∧ w.bytes = 1 ∧ v.toNat = 0

theorem npxPort_iff (port : BitVec 16) (n : Nat) :
    npxPort port n = true ↔ Touches port n 0xF8 0xFF ∨ Touches port n 0xF0 0xF0 := by
  simp only [npxPort, touches, Touches, Bool.or_eq_true, Bool.and_eq_true, decide_eq_true_eq]
  exact or_comm

theorem ioRead_refused (taken : Touches port w.bytes 0xF8 0xFF ∨ Touches port w.bytes 0xF0 0xF0) :
    ioRead port w s = .error (.refuse .coprocessorPort) s := by
  rw [ioRead, if_pos ((npxPort_iff _ _).2 taken), refuse_run]

/-- An 8-bit write of 0 to F0 (R643). -/
theorem ioWrite_clears {v : Val w} (clears : Clears port w v) :
    ioWrite port w v s = .ok () (s.setLink ⟨false, false⟩) := by
  obtain ⟨rfl, byte, zero⟩ := clears
  have w8 : w = .w8 := by cases w <;> simp_all
  rw [ioWrite, if_neg (by decide), if_pos ⟨w8, rfl, zero⟩, updS_run]

/-- A write to F1 (R643, R663). -/
theorem ioWrite_resets (v : Val w) : ioWrite 0xF1#16 w v s = .ok () s.npxWasReset := by
  rw [ioWrite, if_pos rfl, updS_run, State.npxWasReset_eq]

/-- Any other write that touches F0 or F8 to FF. -/
theorem ioWrite_refused {v : Val w}
    (taken : Touches port w.bytes 0xF8 0xFF ∨ (Touches port w.bytes 0xF0 0xF0 ∧ ¬ Clears port w v)) :
    ioWrite port w v s = .error (.refuse .coprocessorPort) s := by
  have notF1 : port ≠ 0xF1#16 := by
    rintro rfl
    have bytes : w.bytes ≤ 4 := by cases w <;> decide
    simp only [Touches, BitVec.toNat_ofNat] at taken
    omega
  have notClear : ¬ (w = .w8 ∧ port = 0xF0#16 ∧ v.toNat = 0) := by
    rintro ⟨rfl, rfl, zero⟩
    obtain high | ⟨-, not⟩ := taken
    · simp [Touches] at high
    · exact not ⟨rfl, rfl, zero⟩
  rw [ioWrite, if_neg notF1, if_neg notClear, if_pos ((npxPort_iff _ _).2 (taken.imp_right And.left)), refuse_run]

/-! The instructions. -/

/-- What an output instruction does with a port: it clears the latch and the request, resets the coprocessor, or is
refused; `next` is what follows the write. -/
def State.Writes (s : State) (port : BitVec 16) (w : Width) (i : Instr) (v : Val w) (next : State → State) : Prop :=
  (Clears port w v → exec i s = .next (next (s.setLink ⟨false, false⟩)).advance) ∧
  (port = 0xF1#16 → exec i s = .next (next s.npxWasReset).advance) ∧
  (Touches port w.bytes 0xF8 0xFF ∨ (Touches port w.bytes 0xF0 0xF0 ∧ ¬ Clears port w v) →
    exec i s = .refused .coprocessorPort)

/-- An instruction that writes `v` to the port and goes on. -/
theorem writes_of_ioWrite {i : Instr} {m k : M Unit} {v : Val w} {next : State → State}
    (row : exec i s = complete m s) (run : m s = (ioWrite port w v >>= fun _ => k) s)
    (after : ∀ t, k t = .ok () (next t)) : s.Writes port w i v next := by
  refine ⟨fun clears => ?_, ?_, fun taken => ?_⟩
  · rw [row, complete_ok (run.trans ((M.bind_ok (ioWrite_clears clears) _).trans (after _)))]
  · rintro rfl
    rw [row, complete_ok (run.trans ((M.bind_ok (ioWrite_resets v) _).trans (after _)))]
  · rw [row, complete_refused (run.trans (bind_error (ioWrite_refused taken)))]

theorem outputFrom_eq (allowed : s.ioAllows port w.bytes = true) :
    outputFrom w port s = (ioWrite port w (s.reg w rAX) >>= fun _ => pure ()) s := by
  rw [outputFrom, M.bind_ok (ioPermitted_ok allowed), M.bind_ok (getReg_run w rAX s), bind_pure]

theorem outsOnce_eq (allowed : s.ioAllows (s.reg .w16 rDX) w.bytes = true) (source : s.sourceReads w = true) :
    outsOnce w s = (ioWrite (s.reg .w16 rDX) w (s.sourceVal w) >>= fun _ => stepIndex rSI w) s := by
  rw [outsOnce, M.bind_ok (getS_run s), M.bind_ok (ioPermitted_ok allowed), M.bind_ok (readSource_ok source)]

theorem inputTo_refused (allowed : s.ioAllows port w.bytes = true)
    (taken : Touches port w.bytes 0xF8 0xFF ∨ Touches port w.bytes 0xF0 0xF0) :
    inputTo w port s = .error (.refuse .coprocessorPort) s := by
  rw [inputTo, M.bind_ok (ioPermitted_ok allowed), M.bind_run, ioRead_refused taken]

theorem insOnce_refused (allowed : s.ioAllows (s.reg .w16 rDX) w.bytes = true) (dest : s.destReaches w true = true)
    (taken : Touches (s.reg .w16 rDX) w.bytes 0xF8 0xFF ∨ Touches (s.reg .w16 rDX) w.bytes 0xF0 0xF0) :
    insOnce w s = .error (.refuse .coprocessorPort) s := by
  rw [insOnce, M.bind_ok (getS_run s), M.bind_ok (ioPermitted_ok allowed), M.bind_ok (probeWrite_ok dest), M.bind_run,
    ioRead_refused taken]

/-- Settles O10: where the access is allowed, each instruction is its port access and what follows it. -/
theorem coprocessorPorts : Obligations.CoprocessorPorts := by
  intro s w imm port wd hits clears noRead noWrite refused cleared writes allowed
  have output (row : Instr) (is : exec row s = complete (outputFrom wd port) s) :
      s.Writes port wd row (s.reg wd rAX) id := writes_of_ioWrite is (outputFrom_eq allowed) fun _ => rfl
  constructor
  · rintro rfl
    exact ⟨output (.outPort w imm) rfl, fun taken => complete_refused (inputTo_refused allowed taken)⟩
  · rintro rfl
    refine ⟨output (.outDx w) rfl, fun taken => complete_refused (inputTo_refused allowed taken), fun source => ⟨?_, ?_⟩,
      fun dest taken => ?_⟩
    · exact writes_of_ioWrite (i := .outs w) rfl (outsOnce_eq allowed source) (stepIndex_stepped rSI wd)
    · intro nonzero taken
      exact repeated_refused nonzero ((outsOnce_eq allowed source).trans (bind_error (ioWrite_refused taken)))
    · have stops := insOnce_refused allowed dest taken
      exact ⟨complete_refused stops, fun nonzero => repeated_refused nonzero stops⟩

end Sys2Proof.Machine
end

section
/-! What an instruction boundary takes, highest priority first (R604, R605, R617, R618, R620, R635, R641), and what
becomes of an event whose gate is not present. -/

namespace Sys2Proof.Machine

variable {s : State}

/-! A gate that is not present (R611, R612). -/

/-- The access byte of the gate of a vector. -/
def State.gateAccess (s : State) (v : BitVec 8) : BitVec 8 :=
  memGet s.mem (s.flat (s.sys.idtr.base + BitVec.ofNat 32 (8 * v.toNat) + 5#32))

/-- In protected mode the gate of a vector stands in plain memory, is an interrupt or trap gate or a task gate by its
type, and is not present. -/
def State.GateAbsent (s : State) (v : BitVec 8) : Prop :=
  let lin := s.sys.idtr.base + BitVec.ofNat 32 (8 * v.toNat)
  s.sys.cr0.pe = true ∧ 8 * v.toNat + 7 ≤ s.sys.idtr.limit.toNat ∧ s.plain lin 4 = true ∧
  s.plain (lin + 4#32) 4 = true ∧ (s.gateAccess v).getLsbD 7 = false ∧
  ((s.gateAccess v).extractLsb' 0 5 ∈ [5#5, 6#5, 7#5] ∨
    (s.has386 = true ∧ (s.gateAccess v).extractLsb' 0 5 ∈ [14#5, 15#5]))

/-- What decides where an event is entered and where it returns. -/
structure SameGates (s t : State) : Prop where
  eip : t.eip = s.eip
  cfg : t.cfg = s.cfg
  mem : t.mem = s.mem
  cr0 : t.sys.cr0 = s.sys.cr0
  idtr : t.sys.idtr = s.sys.idtr

theorem State.GateAbsent.congr {t : State} {v : BitVec 8} (h : s.GateAbsent v) (same : SameGates s t) :
    t.GateAbsent v := by
  unfold State.GateAbsent State.gateAccess at h ⊢
  simp only [State.flat, State.has386, State.plain_congr same.cfg same.cr0, same.cfg, same.mem, same.cr0, same.idtr]
    at h ⊢
  exact h

/-- The second byte of a little-endian doubleword. -/
theorem leVal_second (b0 b1 b2 b3 : Byte) : (leVal 32 [b0, b1, b2, b3]).extractLsb' 8 8 = b1 := by
  apply BitVec.eq_of_toNat_eq
  simp only [leVal, leNat, BitVec.extractLsb'_toNat, BitVec.toNat_ofNat, Nat.shiftRight_eq_div_pow]
  have := b0.isLt; have := b1.isLt; have := b2.isLt; have := b3.isLt
  omega

theorem State.gate_access (s : State) (v : BitVec 8) : (s.gate v).access = s.gateAccess v := by
  show (leVal 32 (s.bytesAt (s.gateAt v + 4#32) 4)).extractLsb' 8 8 = _
  simp only [State.bytesAt]
  rw [leVal_second, State.gateAccess, State.gateAt, Nat.mul_comm, BitVec.add_assoc _ 4#32 1#32]
  rfl

/-- The type of a gate and its S bit together (R89, R611). -/
theorem Gate.known_of_type {g : Gate} {is386 : Bool} (h : g.access.extractLsb' 0 5 ∈ [5#5, 6#5, 7#5] ∨
    (is386 = true ∧ g.access.extractLsb' 0 5 ∈ [14#5, 15#5])) : g.known is386 = true := by
  have segment : arSegment g.access = (g.access.extractLsb' 0 5).getLsbD 4 := by simp [arSegment, bitOf]
  have type : arType g.access = ((g.access.extractLsb' 0 5).extractLsb' 0 4).toNat := by
    rw [extractLsb'_within _ (by omega)]; rfl
  simp only [List.mem_cons, List.not_mem_nil, or_false] at h
  unfold Gate.known
  simp only [segment, type]
  obtain (is | is | is) | ⟨rfl, is | is⟩ := h
  all_goals rw [is]
  · rfl
  · rfl
  · rfl
  · rfl
  · rfl

/-- An event of the boundary whose gate is not present: #NP is delivered and the event recurs (R604). -/
theorem deliver_absent {e : Event} (absent : s.GateAbsent e.vector) (interrupt : e.isException = false)
    (outside : e.kind ≠ .software) : deliver e s =
      deliverWithin 7 ⟨11#8, .fault, s.eip, some (BitVec.ofNat 16 (8 * e.vector.toNat + 3))⟩ (s.recurring e) := by
  obtain ⟨pe, within, lo, hi, absent, type⟩ := absent
  have place : s.sys.idtr.base + BitVec.ofNat 32 (8 * e.vector.toNat) = s.gateAt e.vector := by
    rw [State.gateAt, Nat.mul_comm]
  rw [place] at lo hi
  rw [← State.gate_access] at absent type
  have ext : e.ext = 1#16 := by rw [e.ext_eq, if_neg (by simpa using outside)]
  have code : e.idtCode = BitVec.ofNat 16 (8 * e.vector.toNat + 3) := by
    rw [idtCode_eq, ext, ← BitVec.ofNat_add]
  have raises : enter e s = .error (.exc ⟨11#8, some e.idtCode⟩) s :=
    enter_error pe ((enterProt_eq (by omega) lo hi).trans
      (enterGate_absent (Gate.known_of_type type) (fun h => outside h.1) absent))
  rw [deliver_test (.inr (.inl rfl)) raises, if_neg (by simp [interrupt]), if_neg (by simp [interrupt]), code]

/-! The boundary. -/

/-! What sampling NMI leaves (R618). -/

@[simp] theorem State.sampleNmi_eip (s : State) : s.sampleNmi.eip = s.eip := by
  unfold State.sampleNmi; split <;> rfl
@[simp] theorem State.sampleNmi_mem (s : State) : s.sampleNmi.mem = s.mem := by
  unfold State.sampleNmi; split <;> rfl
@[simp] theorem State.sampleNmi_link (s : State) : s.sampleNmi.link = s.link := by
  unfold State.sampleNmi; split <;> rfl
@[simp] theorem State.sampleNmi_ctl_shadow (s : State) : s.sampleNmi.ctl.shadow = s.ctl.shadow := by
  unfold State.sampleNmi; split <;> rfl
@[simp] theorem State.sampleNmi_ctl_dbPending (s : State) : s.sampleNmi.ctl.dbPending = s.ctl.dbPending := by
  unfold State.sampleNmi; split <;> rfl
@[simp] theorem State.sampleNmi_ctl_nmiBlocked (s : State) : s.sampleNmi.ctl.nmiBlocked = s.ctl.nmiBlocked := by
  unfold State.sampleNmi; split <;> rfl
@[simp] theorem State.sampleNmi_ctl_activity (s : State) : s.sampleNmi.ctl.activity = s.ctl.activity := by
  unfold State.sampleNmi; split <;> rfl
@[simp] theorem State.sampleNmi_env_irqIn (s : State) : s.sampleNmi.env.irqIn = s.env.irqIn := by
  unfold State.sampleNmi; split <;> rfl

/-! What is taken (R605). -/

/-- A step between instructions. -/
theorem step_atBoundary (on : s.ctl.activity ≠ .shutdown) (between : s.cur.len = 0) : step s = atBoundary s := by
  rw [step, if_neg on, if_pos between]

theorem atBoundary_take {e : Event} {t : State} (h : boundary s = .take e t) : atBoundary s = deliver e t := by
  rw [atBoundary, h]

theorem boundary_trap (pending : s.ctl.dbPending = true) (shadow : s.ctl.shadow ≠ .ss) :
    boundary s = .take ⟨1#8, .trap, s.eip, none⟩ s.sampleNmi.singleStep := by
  simp only [boundary, State.sampleNmi_ctl_shadow, State.sampleNmi_ctl_dbPending, if_neg shadow, pending, if_true,
    State.interruptEvent, State.sampleNmi_eip]

/-- An NMI is latched, and none blocks it. -/
def State.nmiDue (s : State) : Bool := s.sampleNmi.ctl.nmiPending && !s.ctl.nmiBlocked

theorem boundary_nmi (noTrap : s.ctl.dbPending = false) (shadow : s.ctl.shadow ≠ .ss) (due : s.nmiDue = true) :
    boundary s = .take ⟨2#8, .nmi, s.eip, none⟩ s.sampleNmi.takeNmi := by
  unfold State.nmiDue at due
  simp only [boundary, State.sampleNmi_ctl_shadow, State.sampleNmi_ctl_dbPending, State.sampleNmi_ctl_nmiBlocked,
    if_neg shadow, noTrap, due, Bool.false_eq_true, if_false, if_true, State.interruptEvent, State.sampleNmi_eip]

/-- Without a trap and an NMI the maskable interrupts have their turn (R617). -/
theorem boundary_irq (noTrap : s.ctl.dbPending = false) (shadow : s.ctl.shadow = .none) (notDue : s.nmiDue = false)
    (enabled : s.flags.ie = true) : boundary s = irqBoundary s.sampleNmi := by
  unfold State.nmiDue at notDue
  simp only [boundary, State.sampleNmi_ctl_shadow, State.sampleNmi_ctl_dbPending, State.sampleNmi_ctl_nmiBlocked,
    State.sampleNmi_flags, shadow, noTrap, notDue, enabled, Bool.false_eq_true, if_false, beq_self_eq_true,
    Bool.and_self, if_true, reduceCtorEq]

theorem irqBoundary_npx (request : s.link.irq13 = true) :
    irqBoundary s = .take ⟨s.cfg.irq13Vector, .irq13, s.eip, none⟩ s := by
  rw [irqBoundary, if_pos request]; rfl

theorem irqBoundary_request {v : BitVec 8} {rest : List (Option (BitVec 8))} (noNpx : s.link.irq13 = false)
    (next : s.env.irqIn = some v :: rest) :
    irqBoundary s = .take ⟨v, .request, s.eip, none⟩ (s.setEnv { s.env with irqIn := rest }) := by
  rw [irqBoundary, if_neg (by simp [noNpx]), next]; rfl

/-- A halted processor that nothing can wake: nothing is taken, and no event is ahead (D5). -/
theorem atBoundary_endOfRun (halted : s.ctl.activity = .halted) (noTrap : s.ctl.dbPending = false)
    (noNmi : s.ctl.nmiPending = false) (nmiDone : s.env.nmiIn = []) (noNpx : s.link.irq13 = false)
    (irqDone : s.env.irqIn = []) : atBoundary s = .fault .endOfRun := by
  have sampled : s.sampleNmi = s := by simp [State.sampleNmi, nmiDone]
  have goes : boundary s = .goOn s := by
    simp only [boundary, sampled, noTrap, noNmi, Bool.false_and, Bool.false_eq_true, if_false, irqBoundary, noNpx,
      irqDone, ite_self]
  simp [atBoundary, goes, halted, stayHalted, State.nmiAhead, State.irqAhead, noNmi, nmiDone, noNpx, irqDone]

theorem State.sampleNmi_sameGates (s : State) : SameGates s s.sampleNmi := by
  unfold State.sampleNmi
  split <;> exact ⟨rfl, rfl, rfl, rfl, rfl⟩

theorem State.singleStep_sameGates (s : State) : SameGates s s.sampleNmi.singleStep := by
  obtain ⟨eip, cfg, mem, cr0, idtr⟩ := s.sampleNmi_sameGates
  unfold State.singleStep
  split
  · exact ⟨eip, cfg, mem, cr0, idtr⟩
  · exact ⟨eip, cfg, mem, cr0, idtr⟩

/-- An event that the boundary takes is delivered; where its gate is absent, #NP is, and the event recurs. -/
theorem step_takes {e : Event} {u : State} (on : s.ctl.activity ≠ .shutdown) (between : s.cur.len = 0)
    (h : boundary s = .take e u) (same : SameGates s u) (interrupt : e.isException = false)
    (outside : e.kind ≠ .software) : step s = deliver e u ∧ (s.GateAbsent e.vector → step s =
      deliverWithin 7 ⟨11#8, .fault, s.eip, some (BitVec.ofNat 16 (8 * e.vector.toNat + 3))⟩ (u.recurring e)) := by
  have taken : step s = deliver e u := (step_atBoundary on between).trans (atBoundary_take h)
  refine ⟨taken, fun gate => ?_⟩
  rw [taken, deliver_absent (gate.congr same) interrupt outside, same.eip]

/-- Settles O54: each clause names the event that the boundary takes; where its gate is not present, #NP is delivered
from the state in which the event recurs. -/
theorem boundaryEvents : Obligations.BoundaryEvents := by
  intro s t ev stepped gateAbsent notPresent nmi on between
  have noNmi (notDue : ¬ nmi) : s.nmiDue = false := by
    rw [← Bool.not_eq_true]
    intro due
    exact notDue (by simpa [State.nmiDue] using due)
  have sampled := s.sampleNmi_sameGates
  refine ⟨fun trap shadow => ?_, fun noTrap shadow due => ?_, fun noTrap shadow notDue enabled => ⟨fun npx => ?_,
    fun noNpx v rest next => ?_⟩, fun noTrap halted noNmi nmiDone noNpx irqDone =>
      (step_atBoundary on between).trans (atBoundary_endOfRun halted noTrap noNmi nmiDone noNpx irqDone)⟩
  · have single : s.sampleNmi.singleStep = stepped := by
      show (if s.sampleNmi.has386 then _ else _) = _
      simp only [State.has386, State.sampleNmi_cfg, State.sampleNmi_sys]
      rfl
    have recurs : stepped.recurring (ev 1#8 .trap) = stepped.setCtl { t.ctl with trapHeld := true } := by
      rw [← single]
      unfold State.singleStep
      split <;> rfl
    have ends := step_takes on between (boundary_trap trap shadow) s.singleStep_sameGates rfl nofun
    rw [single] at ends
    exact ⟨ends.1, fun absent => recurs ▸ ends.2 absent⟩
  · have due : s.nmiDue = true := by simpa [State.nmiDue] using due
    obtain ⟨eip, cfg, mem, cr0, idtr⟩ := sampled
    exact step_takes on between (boundary_nmi noTrap shadow due) ⟨eip, cfg, mem, cr0, idtr⟩ rfl nofun
  · have taken : boundary s = .take (ev s.cfg.irq13Vector .irq13) t := by
      rw [boundary_irq noTrap shadow (noNmi notDue) enabled, irqBoundary_npx (by simpa using npx)]
      simp only [State.sampleNmi_cfg, State.sampleNmi_eip, ev, t]
    exact step_takes on between taken sampled rfl nofun
  · have rest' : t.env.irqIn = some v :: rest := by simpa [t] using next
    have taken : boundary s = .take (ev v .request) (t.setEnv { t.env with irqIn := rest }) := by
      rw [boundary_irq noTrap shadow (noNmi notDue) enabled, irqBoundary_request (s.sampleNmi_link ▸ noNpx) rest']
      simp only [State.sampleNmi_eip, ev, t]
    have again : (t.setEnv { t.env with irqIn := rest }).recurring (ev v .request) = t := by
      show t.setEnv { t.env with irqIn := some v :: rest } = t
      rw [← rest']
      rfl
    obtain ⟨eip, cfg, mem, cr0, idtr⟩ := sampled
    obtain ⟨delivers, absent⟩ := step_takes on between taken ⟨eip, cfg, mem, cr0, idtr⟩ rfl nofun
    exact ⟨delivers, fun gate => again ▸ absent gate⟩

end Sys2Proof.Machine
end


section
/-! The load-constant instructions (R506 to R513). -/

namespace Sys2Proof.Machine

variable {s : State} {i : Instr}

/-- RC of a control word whose field is 0 (R42). -/
theorem cwRc_nearest {cw : BitVec 16} (h : cw.extractLsb' 10 2 = 0#2) : cwRc cw = .nearest := by
  rw [cwRc, h]; rfl

/-- The constant that is loaded for rounding to nearest on the 80387 and 80486 (R506). -/
theorem NpxConst.rounded_nearest (k : NpxConst) : k.rounded .nearest = k.nearest := by cases k <;> rfl

section

variable (room : s.fpu.isEmpty 7#3 = true)
include room

theorem loadExact_pushes {v : Temp} (runs : s.Runs i none (loadExact v)) :
    s.PushesOne i v (s.Raised false false) := runs.pushTemp (drawn := s.draws) rfl room

theorem loadConst_pushes {k : NpxConst} (runs : s.Runs i none (loadConst k)) (new : s.n287 = false)
    (nearest : s.fpu.cw.extractLsb' 10 2 = 0#2) : s.PushesOne i k.nearest (s.Raised false false) := by
  refine runs.pushTemp (drawn := s.draws) (c := onlyC1 (s.c1 false)) (den := false) ?_ room
  have value : k.rounded (cwRc s.fpu.cw) = k.nearest := by rw [cwRc_nearest nearest, k.rounded_nearest]
  simp only [loadConst, M.bind_run, getS_run, State.npxAt_n287, new, State.npxAt_cw, value, Bool.false_eq_true,
    if_false]
  rfl

end

/-- The end of a push in terms of the registers and tags of the result. -/
theorem State.PushesOne.pushed {v : Temp} {c : FpuStatus → Prop} {g : Tag} (h : s.PushesOne i v c) (tag : tTag v = g) :
    ∃ (f : Fpu) (l : NpxLink) (d : Nat), exec i s = .next (s.npxDone f l d) ∧
      f.status.top = s.fpu.status.top - 1#3 ∧ f.regs = s.fpu.regs.set f.status.top v ∧
      f.tags = s.fpu.tags.set f.status.top g := by
  obtain ⟨f, l, d, run, -, regs, top, tags, -⟩ := h
  exact ⟨f, l, d, run, top, by rw [top]; exact regs, by rw [top, ← tag]; exact tags⟩

/-- Settles O44: each load-constant instruction is a push of its value onto an empty register. -/
theorem npxConstants : Obligations.NpxConstants := by
  intro s pushesValue ready room
  have zero : s.PushesOne .fldz (tZero false) _ := loadExact_pushes room (.reg ready rfl)
  have one : s.PushesOne .fld1 tOne _ := loadExact_pushes room (.reg ready rfl)
  refine ⟨⟨rfl, zero.pushed (by decide)⟩, ⟨rfl, one.pushed (by decide)⟩, fun new nearest => ?_⟩
  have loads {i : Instr} (k : NpxConst) (runs : s.Runs i none (loadConst k)) :
      s.PushesOne i k.nearest (s.Raised false false) := loadConst_pushes room runs new nearest
  exact ⟨⟨rfl, (loads .pi (.reg ready rfl)).pushed (by decide)⟩,
    ⟨rfl, (loads .l2t (.reg ready rfl)).pushed (by decide)⟩,
    ⟨rfl, (loads .l2e (.reg ready rfl)).pushed (by decide)⟩,
    ⟨rfl, (loads .lg2 (.reg ready rfl)).pushed (by decide)⟩,
    ⟨rfl, (loads .ln2 (.reg ready rfl)).pushed (by decide)⟩⟩

end Sys2Proof.Machine
end


section
/-! The instructions that move the registers of the coprocessor (R487, R489, R494, R495, R528, R529, R549 to R553). -/

namespace Sys2Proof.Machine

variable {s : State} {i : Instr}

/-! The sign bit alone (R528, R529). -/

theorem place_getLsbD {n k j : Nat} (inside : j < n) : (place n true k).getLsbD j = decide (k = j) := by
  rw [place, if_pos rfl, BitVec.getLsbD_ofNat, decide_eq_true inside, Bool.true_and, Nat.testBit_two_pow]

theorem tAbs_eq (v : Temp) : tAbs v = 0#1 ++ v.extractLsb' 0 79 := by
  refine BitVec.eq_of_getLsbD_eq fun j inside => ?_
  rw [tAbs, BitVec.getLsbD_and, BitVec.getLsbD_not, place_getLsbD inside, decide_eq_true inside]
  erw [BitVec.getLsbD_append]
  split
  · next low => simp [low, show 79 ≠ j by omega]
  · next high => simp [show j = 79 by omega]

theorem tNeg_eq (v : Temp) : tNeg v = ~~~ v.extractLsb' 79 1 ++ v.extractLsb' 0 79 := by
  refine BitVec.eq_of_getLsbD_eq fun j inside => ?_
  rw [tNeg, BitVec.getLsbD_xor, place_getLsbD inside]
  erw [BitVec.getLsbD_append]
  split
  · next low => simp [low, show 79 ≠ j by omega]
  · next high => simp [show j = 79 by omega]

/-! Register instructions that end with a change of the coprocessor behind the condition codes. -/

/-- What an instruction leaves that sets codes, then changes the coprocessor. -/
theorem State.Runs.codesThen {m : M Unit} {c : Codes} {g : Fpu → Fpu} (runs : s.Runs i none m)
    (run : m (s.npxAt i none) = (do setCodes c; updFpu g) (s.npxAt i none)) :
    ∃ t : FpuStatus, t.Coded c s.fpu.status ∧ s.Leaves i (g ((s.npxAt i none).fpu.withStatus t)) := by
  obtain ⟨t, d, coded, sets⟩ := setCodes_run c (s.npxAt i none)
  obtain ⟨_, leaves, rfl⟩ := runs (fun f => f = g ((s.npxAt i none).fpu.withStatus t)) <|
    .of_run (f := g ((s.npxAt i none).fpu.withStatus t)) (d := d) (run.trans (by rw [M.bind_run, sets]; rfl)) rfl
  exact ⟨t, coded, leaves⟩

/-- The instruction completes with this TOP, these registers and tags, and the control word it found. -/
def State.Moves (s : State) (i : Instr) (t : BitVec 3) (r : Oct Temp) (g : Oct Tag) : Prop :=
  ∃ (f : Fpu) (l : NpxLink) (d : Nat), exec i s = .next (s.npxDone f l d) ∧
    f.status.top = t ∧ f.regs = r ∧ f.tags = g ∧ f.cw = s.fpu.cw

theorem State.EndsWith.moves {t : BitVec 3} {r : Oct Temp} {g : Oct Tag} {c : FpuStatus → Prop}
    (h : s.EndsWith i r t g c) : s.Moves i t r g := by
  obtain ⟨f, l, d, run, cw, regs, top, tags, -⟩ := h
  exact ⟨f, l, d, run, top, regs, tags, cw⟩

theorem State.Leaves.moves {f : Fpu} (h : s.Leaves i f) (cw : f.cw = s.fpu.cw) :
    s.Moves i f.status.top f.regs f.tags :=
  (h.endsWith (c := fun _ => True) cw rfl rfl rfl trivial).moves

/-- A value put in ST(j), with a pop if the instruction pops. -/
theorem State.Runs.putMoves {m : M Unit} {c : Codes} {j : BitVec 3} {pops : Bool} {v : Temp} (runs : s.Runs i none m)
    (run : m (s.npxAt i none) = (do setCodes c; putSt j pops v) (s.npxAt i none)) :
    s.Moves i (if pops then s.fpu.status.top + 1#3 else s.fpu.status.top) (s.fpu.regs.set (s.fpu.status.top + j) v)
      (if pops then (s.fpu.tags.set (s.fpu.status.top + j) (tTag v)).set s.fpu.status.top .empty
        else s.fpu.tags.set (s.fpu.status.top + j) (tTag v)) := by
  obtain ⟨t, coded, leaves⟩ := runs.codesThen (g := fun f => f.put j pops v) run
  have top : t.top = s.fpu.status.top := coded.top
  simpa only [Fpu.put_status, Fpu.put_regs, Fpu.put_tags, Fpu.withStatus_status, Fpu.withStatus_regs,
    Fpu.withStatus_tags, State.npxAt_regs, State.npxAt_tags, top] using leaves.moves (Fpu.put_cw ..)

/-- One of those that settle nothing: it changes the coprocessor, then codes (R549 to R551). -/
theorem npxStack_moves {c : Codes} {g : Fpu → Fpu} (ready : s.npxReady = true)
    (row : exec i s = npxStack i (do updFpu g; setCodes c) s) (cw : (g (s.npxAt i none).fpu).cw = s.fpu.cw) :
    s.Moves i (g (s.npxAt i none).fpu).status.top (g (s.npxAt i none).fpu).regs (g (s.npxAt i none).fpu).tags := by
  obtain ⟨t, d, coded, sets⟩ := setCodes_run c ((s.npxAt i none).npx (g (s.npxAt i none).fpu) s.draws)
  refine ⟨(g (s.npxAt i none).fpu).withStatus t, s.link, d, row.trans ?_, coded.top, rfl, rfl, cw⟩
  exact npxStack_ok ready (M.bind_ok (t := (s.npxAt i none).npx (g (s.npxAt i none).fpu) s.draws) rfl _ |>.trans sets)

section

variable (ready : s.npxReady = true)
include ready

/-! Moves of the stack pointer and of tags (R549 to R551, R553). -/

theorem fincstp_moves : s.Moves .fincstp (s.fpu.status.top + 1#3) s.fpu.regs s.fpu.tags :=
  npxStack_moves (g := fun f => f.moveTop 1#3) ready rfl rfl

theorem fdecstp_moves : s.Moves .fdecstp (s.fpu.status.top - 1#3) s.fpu.regs s.fpu.tags := by
  rw [← below_top, BitVec.add_zero]
  exact npxStack_moves (g := fun f => f.moveTop 7#3) ready rfl rfl

theorem ffree_moves (k : BitVec 3) : s.Moves (.ffree k) s.fpu.status.top s.fpu.regs
    (s.fpu.tags.set (s.fpu.status.top + k) .empty) :=
  npxStack_moves (g := fun f => { f with tags := f.tags.set (f.phys k) .empty }) ready rfl rfl

theorem fnop_moves : s.Moves .fnop s.fpu.status.top s.fpu.regs s.fpu.tags :=
  ⟨(s.npxAt .fnop none).fpu, s.link, s.draws, npxStack_ok (i := .fnop) (m := pure ()) ready rfl, rfl, rfl, rfl, rfl⟩

/-! Copies, signs and exchanges (R487, R489, R494, R495, R528, R529). -/

theorem fldSt_moves {k : BitVec 3} (there : s.fpu.isEmpty k = false) (room : s.fpu.isEmpty 7#3 = true) :
    s.Moves (.fldSt k) (s.fpu.status.top - 1#3) (s.fpu.regs.set (s.fpu.status.top - 1#3) (s.fpu.st k))
      (s.fpu.tags.set (s.fpu.status.top - 1#3) (tTag (s.fpu.st k))) := by
  have run : loadSt k (s.npxAt (.fldSt k) none) = pushTemp (s.fpu.st k) false noCodes (s.npxAt (.fldSt k) none) := by
    simp only [loadSt, M.bind_run, getS_run, State.npxAt_isEmpty, there, Bool.false_eq_true, if_false]
    rfl
  have runs : s.Runs (.fldSt k) none (loadSt k) := .reg ready rfl
  exact (runs.pushTemp (drawn := s.draws) run room).moves

section

variable (there : s.fpu.isEmpty 0#3 = false)
include there
omit ready

theorem storeSt_moves {k : BitVec 3} {pops : Bool} (runs : s.Runs i none (storeSt k pops)) :
    s.Moves i (if pops then s.fpu.status.top + 1#3 else s.fpu.status.top)
      (s.fpu.regs.set (s.fpu.status.top + k) (s.fpu.st 0#3))
      (if pops then (s.fpu.tags.set (s.fpu.status.top + k) (tTag (s.fpu.st 0#3))).set s.fpu.status.top .empty
        else s.fpu.tags.set (s.fpu.status.top + k) (tTag (s.fpu.st 0#3))) := by
  refine runs.putMoves (c := noCodes) ?_
  simp only [storeSt, M.bind_run, getS_run, State.npxAt_isEmpty, there, Bool.false_eq_true, if_false]
  rfl

theorem signOp_moves {f : Temp → Temp} (runs : s.Runs i none (signOp f)) :
    s.Moves i s.fpu.status.top (s.fpu.regs.set s.fpu.status.top (f (s.fpu.st 0#3)))
      (s.fpu.tags.set s.fpu.status.top (tTag (f (s.fpu.st 0#3)))) := by
  have moves := runs.putMoves (c := onlyC1 (.val false)) (j := 0#3) (pops := false) (v := f (s.fpu.st 0#3)) <| by
    simp only [signOp, M.bind_run, getS_run, State.npxAt_isEmpty, there, Bool.false_eq_true, if_false]
    rfl
  simpa only [BitVec.add_zero, Bool.false_eq_true, if_false] using moves

include ready in
theorem fxch_moves {k : BitVec 3} (other : s.fpu.isEmpty k = false) :
    s.Moves (.fxch k) s.fpu.status.top
      ((s.fpu.regs.set s.fpu.status.top (s.fpu.st k)).set (s.fpu.status.top + k) (s.fpu.st 0#3))
      ((s.fpu.tags.set s.fpu.status.top (s.fpu.tag k)).set (s.fpu.status.top + k) (s.fpu.tag 0#3)) := by
  have runs : s.Runs (.fxch k) none (exchange k) := .reg ready rfl
  have none : (s.npxAt (.fxch k) none).anyEmpty [0#3, k] = false := by simp [State.anyEmpty, there, other]
  obtain ⟨t, coded, leaves⟩ := runs.codesThen (c := onlyC1 (s.c1 false)) (g := fun f => f.swap k) <| by
    simp only [exchange, M.bind_run, getS_run, none, Bool.false_eq_true, if_false]
    rfl
  have top : t.top = s.fpu.status.top := coded.top
  have moves := leaves.moves rfl
  simpa only [Fpu.swap, Fpu.st, Fpu.tag, Fpu.phys, Fpu.withStatus_status, Fpu.withStatus_regs, Fpu.withStatus_tags,
    State.npxAt_regs, State.npxAt_tags, top, BitVec.add_zero] using moves

end

end

/-- Settles O45: each of the ten is one change of the register stack, behind the condition codes. -/
theorem npxRegisterMoves : Obligations.NpxRegisterMoves := by
  intro s k p top st runs ready
  refine ⟨fincstp_moves ready, fdecstp_moves ready, ffree_moves ready k, fnop_moves ready,
    fun there room => fldSt_moves ready there room, fun there => ⟨?_, ?_, ?_, ?_⟩,
    fun there other => fxch_moves ready there other⟩
  · exact storeSt_moves there (pops := false) (.reg ready rfl)
  · exact storeSt_moves there (pops := true) (.reg ready rfl)
  · rw [← tAbs_eq]
    exact signOp_moves there (.reg ready rfl)
  · rw [← tNeg_eq]
    exact signOp_moves there (.reg ready rfl)

end Sys2Proof.Machine
end


section
/-! The fields d, P and R of the coprocessor arithmetic (R481): the rows by operation, order and destination, and what
each leaves. -/

namespace Sys2Proof.Machine

variable {s : State} {i : Instr} {op : ArOp} {rev d p : Bool} {k : BitVec 3}

/-! The rows. -/

/-- The order of the operands matters. -/
def ArOp.ordered (op : ArOp) : Bool := op = .sub || op = .div

/-- The middle field of the words of an operation, with the bit R where the order matters (R481). -/
def ArOp.mid (op : ArOp) (r : Bool) : BitVec 3 :=
  match op with
  | .add => 0#3
  | .mul => 1#3
  | .sub => 2#2 ++ BitVec.ofBool r
  | .div => 3#2 ++ BitVec.ofBool r

/-- The row of an operation with a register: `rev` exchanges the operands, `p` pops. -/
def ArOp.regRow (op : ArOp) (rev d p : Bool) (k : BitVec 3) : Instr :=
  match op, rev, p with
  | .add, _, false => .faddSt d k
  | .add, _, true => .faddp k
  | .mul, _, false => .fmulSt d k
  | .mul, _, true => .fmulp k
  | .sub, false, false => .fsubSt d k
  | .sub, false, true => .fsubp k
  | .sub, true, false => .fsubrSt d k
  | .sub, true, true => .fsubrp k
  | .div, false, false => .fdivSt d k
  | .div, false, true => .fdivp k
  | .div, true, false => .fdivrSt d k
  | .div, true, true => .fdivrp k

/-- The row of an operation with a number in memory. -/
def ArOp.memRow (op : ArOp) (int rev x : Bool) (o : MemOp) : Instr :=
  match op, int, rev with
  | .add, false, _ => .faddMem x o
  | .add, true, _ => .fiadd x o
  | .mul, false, _ => .fmulMem x o
  | .mul, true, _ => .fimul x o
  | .sub, false, false => .fsubMem x o
  | .sub, false, true => .fsubrMem x o
  | .sub, true, false => .fisub x o
  | .sub, true, true => .fisubr x o
  | .div, false, false => .fdivMem x o
  | .div, false, true => .fdivrMem x o
  | .div, true, false => .fidiv x o
  | .div, true, true => .fidivr x o

/-- The format of a number in memory. -/
def arFmt (int x : Bool) : NumFmt := if int then intFmt x else realFmt x

theorem isReal_arFmt (int x : Bool) : (arFmt int x).isReal = !int := by cases int <;> cases x <;> rfl

/-- An instruction that pops has the destination ST(i); addition and multiplication exchange nothing. -/
theorem exec_regRow (pop : p = true → d = true) (order : op.ordered = false → rev = false) (s : State) :
    exec (op.regRow rev d p k) s = npxReg (op.regRow rev d p k) (arithSt op rev d k p) s := by
  cases p
  · cases op with
    | add | mul => rw [order rfl]; rfl
    | sub | div => cases rev <;> rfl
  · rw [pop rfl]
    cases op with
    | add | mul => rw [order rfl]; rfl
    | sub | div => cases rev <;> rfl

theorem exec_memRow {int x : Bool} {o : MemOp} (order : op.ordered = false → rev = false) (s : State) :
    exec (op.memRow int rev x o) s = npxMem (op.memRow int rev x o) o (arFmt int x).bytes (arFmt int x).bytes false
      (arithNum op rev (arFmt int x) o) s := by
  cases int <;> cases op with
  | add | mul => rw [order rfl]; rfl
  | sub | div => cases rev <;> rfl

/-- The word of a register form: d = 1 reverses the sense of R (R481). -/
theorem encode_regRow (pop : p = true → d = true) {r : Bool} (order : op.ordered = false → r = false) :
    encode (op.regRow (op.ordered && (if d then !r else r)) d p k) =
      [0x1B#5 ++ BitVec.ofBool d ++ BitVec.ofBool p ++ 0#1, 3#2 ++ op.mid r ++ k] := by
  revert k
  cases p
  · cases op with
    | add | mul => rw [order rfl]; cases d <;> decide
    | sub | div => cases d <;> cases r <;> decide
  · rw [pop rfl]
    cases op with
    | add | mul => rw [order rfl]; decide
    | sub | div => cases r <;> decide

theorem encode_memRow {int x : Bool} {o : MemOp} (order : op.ordered = false → rev = false) :
    encode (op.memRow int rev x o) =
      (0x1B#5 ++ (if int then BitVec.ofBool x ++ 1#1 ++ 0#1 else BitVec.ofBool x ++ 0#2)) :: encMem (op.mid rev) o := by
  cases int <;> cases x <;> cases op with
  | add | mul => rw [order rfl]; rfl
  | sub | div => cases rev <;> rfl

theorem decode_regRow (pop : p = true → d = true) {r : Bool} (order : op.ordered = false → r = false) :
    decode ⟨.p486, .integrated, .s16, .s16, none⟩
      [0x1B#5 ++ BitVec.ofBool d ++ BitVec.ofBool p ++ 0#1, 3#2 ++ op.mid r ++ k] =
      .instr (op.regRow (op.ordered && (if d then !r else r)) d p k) 2 := by
  have notRep (rev : Bool) : op.regRow rev d p k ≠ .repPrefix ∧ op.regRow rev d p k ≠ .repnePrefix := by
    cases op <;> cases rev <;> cases p <;> exact ⟨nofun, nofun⟩
  have wf (rev : Bool) : Instr.wf ⟨.p486, .integrated, .s16, .s16, none⟩ (op.regRow rev d p k) = true := by
    cases op <;> cases rev <;> cases p <;> rfl
  have reads := decode_of_reads (.parseInstr (wf (op.ordered && (if d then !r else r))) (notRep _)) []
  rw [encode_regRow pop order] at reads
  exact reads

/-! What they leave. -/

/-- A result that is a number is delivered unless a denormal operand stops the instruction. -/
theorem State.delivers_value {den : Bool} {v : Temp} {oe ue pe up : Bool} (calm : s.calm den = true) :
    s.delivers den (.value v oe ue pe up) = true := by
  unfold State.delivers
  rw [calm]
  rfl

/-- A result put in ST(j), with a pop if the instruction pops. -/
theorem State.Runs.resultMoves {o : Option MemOp} {m : M Unit} {c : Code → Codes} {den pops : Bool} {v : Temp}
    {oe ue pe up : Bool} {j : BitVec 3} (runs : s.Runs i o m)
    (run : m (s.npxAt i o) = Machine.deliverRes den (.value v oe ue pe up) c (putSt j pops) (s.npxAt i o))
    (calm : s.calm den = true) :
    s.Moves i (if pops then s.fpu.status.top + 1#3 else s.fpu.status.top) (s.fpu.regs.set (s.fpu.status.top + j) v)
      (if pops then (s.fpu.tags.set (s.fpu.status.top + j) (tTag v)).set s.fpu.status.top .empty
        else s.fpu.tags.set (s.fpu.status.top + j) (tTag v)) := by
  obtain ⟨_, t, rfl, top, -, leaves⟩ := runs.deliverRes run (s.delivers_value calm) (putSt_eq j pops)
  simpa only [Fpu.put_status, Fpu.put_regs, Fpu.put_tags, Fpu.withStatus_status, Fpu.withStatus_regs,
    Fpu.withStatus_tags, State.npxAt_regs, State.npxAt_tags, top] using leaves.moves (Fpu.put_cw ..)

theorem arithSt_there {pops : Bool} (first : s.fpu.isEmpty 0#3 = false) (second : s.fpu.isEmpty k = false) :
    arithSt op rev d k pops s =
      deliverRes (tIsDenormal (s.fpu.st (if d then k else 0#3)) || tIsDenormal (s.fpu.st (if d then 0#3 else k)))
        (operate op rev (s.fpu.st (if d then k else 0#3)) (s.fpu.st (if d then 0#3 else k)) s) onlyC1
        (putSt (if d then k else 0#3) pops) s := by
  have none : s.anyEmpty [if d then k else 0#3, if d then 0#3 else k] = false := by
    cases d <;> simp [State.anyEmpty, first, second]
  simp only [arithSt, M.bind_run, getS_run, none, Bool.false_eq_true, if_false]

/-- The order of the operands of an operation. -/
theorem operate_eq (a b : Temp) (s : State) : operate op rev a b s =
    arith s.n287 s.fpu.cw op (if rev then b else a) (if rev then a else b) := by
  cases rev <;> rfl

theorem operate_st (a b : BitVec 3) (s : State) : operate op rev (s.fpu.st a) (s.fpu.st b) s =
    arith s.n287 s.fpu.cw op (s.fpu.st (if rev then b else a)) (s.fpu.st (if rev then a else b)) := by
  cases rev <;> rfl

theorem arithNum_there {f : NumFmt} {o : MemOp} (there : s.fpu.isEmpty 0#3 = false)
    (reach : s.npxReaches o f.bytes false f.bytes = true) :
    arithNum op rev f o (s.npxAt i (some o)) =
      deliverRes (f.isReal && ((f.load false (s.bits o f.bytes)).2 || tIsDenormal (s.fpu.st 0#3)))
        (operate op rev (s.fpu.st 0#3) (f.load false (s.bits o f.bytes)).1 s) onlyC1 (putSt 0#3 false)
        (s.npxAt i (some o)) := by
  simp only [arithNum, M.bind_run, getS_run, readNum_at i false reach, State.npxAt_isEmpty, there, Bool.false_eq_true,
    if_false]
  rfl

/-- What a register form leaves: the result in the destination, and a pop. -/
theorem regRow_moves {v : Temp} {oe ue pe up : Bool} (pop : p = true → d = true)
    (order : op.ordered = false → rev = false) (ready : s.npxReady = true) (first : s.fpu.isEmpty 0#3 = false)
    (second : s.fpu.isEmpty k = false)
    (calm : s.calm (tIsDenormal (s.fpu.st (if d then k else 0#3)) ||
      tIsDenormal (s.fpu.st (if d then 0#3 else k))) = true)
    (result : operate op rev (s.fpu.st (if d then k else 0#3)) (s.fpu.st (if d then 0#3 else k)) s =
      .value v oe ue pe up) :
    s.Moves (op.regRow rev d p k) (if p then s.fpu.status.top + 1#3 else s.fpu.status.top)
      (s.fpu.regs.set (s.fpu.status.top + (if d then k else 0#3)) v)
      (if p then (s.fpu.tags.set (s.fpu.status.top + (if d then k else 0#3)) (tTag v)).set s.fpu.status.top .empty
        else s.fpu.tags.set (s.fpu.status.top + (if d then k else 0#3)) (tTag v)) := by
  have runs : s.Runs (op.regRow rev d p k) none (arithSt op rev d k p) := .reg ready (exec_regRow pop order s)
  have run := arithSt_there (s := s.npxAt (op.regRow rev d p k) none) (op := op) (rev := rev) (d := d) (pops := p)
    first second
  rw [State.npxAt_st, State.npxAt_st,
    show operate op rev _ _ (s.npxAt (op.regRow rev d p k) none) = .value v oe ue pe up from result] at run
  exact runs.resultMoves run calm

/-- What a memory form leaves: the result in ST(0). -/
theorem memRow_moves {int x : Bool} {o : MemOp} {v : Temp} {oe ue pe up : Bool}
    (order : op.ordered = false → rev = false) (ready : s.npxReady = true) (there : s.fpu.isEmpty 0#3 = false)
    (reach : s.npxReaches o (arFmt int x).bytes false (arFmt int x).bytes = true)
    (calm : s.calm ((arFmt int x).isReal && (((arFmt int x).load false (s.bits o (arFmt int x).bytes)).2 ||
      tIsDenormal (s.fpu.st 0#3))) = true)
    (result : operate op rev (s.fpu.st 0#3) ((arFmt int x).load false (s.bits o (arFmt int x).bytes)).1 s =
      .value v oe ue pe up) :
    s.Moves (op.memRow int rev x o) s.fpu.status.top (s.fpu.regs.set s.fpu.status.top v)
      (s.fpu.tags.set s.fpu.status.top (tTag v)) := by
  have runs : s.Runs (op.memRow int rev x o) (some o) (arithNum op rev (arFmt int x) o) :=
    .mem ready reach (exec_memRow order s)
  have run := arithNum_there (i := op.memRow int rev x o) (op := op) (rev := rev) there reach
  rw [result] at run
  simpa only [BitVec.add_zero, Bool.false_eq_true, if_false] using runs.resultMoves run calm

/-- Operands that are no denormals unless that exception is masked do not stop an instruction. -/
theorem State.calm_pair {a b : Bool} (h : s.npxMask 1 = true ∨ (a = false ∧ b = false)) : s.calm (a || b) = true := by
  obtain mask | ⟨rfl, rfl⟩ := h
  · rw [State.calm, mask, Bool.or_true]
  · rfl

/-- Settles O46: the words are the encodings of the rows, and each row delivers its result to its destination. -/
theorem npxOperandOrder : Obligations.NpxOperandOrder := by
  intro s k op d r p i v oe ue pe up o int x u top b dst src ordered reversed mid fmt row number order ready there
  refine ⟨fun pop word second calm result => ?_, fun reach calm result => ?_⟩
  · have decoded := (decode_regRow (k := k) pop order).symm.trans word
    obtain ⟨rfl, -⟩ := Decoded.instr.inj decoded
    have orderRow : op.ordered = false → (op.ordered && (if d then !r else r)) = false := fun h => by rw [h]; rfl
    obtain ⟨f, l, n, run, isTop, regs, tags, -⟩ :=
      regRow_moves pop orderRow ready there second (s.calm_pair calm) ((operate_st _ _ s).trans result)
    exact ⟨f, l, n, run, regs, isTop, tags⟩
  · have quiet : s.calm (fmt.isReal && (number.2 || tIsDenormal (s.fpu.st 0#3))) = true := by
      obtain isInt | rest := calm
      · rw [show fmt.isReal = false by rw [show fmt = arFmt int x from rfl, isReal_arFmt, isInt]; rfl]
        rfl
      · cases fmt.isReal
        · rfl
        · exact s.calm_pair (rest.imp_right And.symm)
    obtain ⟨f, l, n, run, isTop, regs, tags, -⟩ :=
      memRow_moves order ready there reach quiet ((operate_eq _ _ s).trans result)
    exact ⟨encode_memRow order, f, l, n, run, regs, isTop, tags⟩

end Sys2Proof.Machine
end


section
/-! The control instructions of the coprocessor (R538 to R548): what stands around them, and what those without an
image do. -/

namespace Sys2Proof.Machine

variable {s t : State} {i : Instr} {o : MemOp}

/-! What stands around them. -/

/-- A coprocessor is there and neither EM nor TS is set. -/
structure State.Fitted (s : State) : Prop where
  gate : (s.sys.cr0.em || s.sys.cr0.ts) = false
  fitted : s.cfg.npx ≠ .absent

theorem npxCtl_ok {m : M Unit} (there : s.Fitted) (run : m s = .ok () t) : npxCtl m s = .next t.advance :=
  complete_ok ((whenFitted_there there.gate there.fitted).trans run)

theorem npxCtlMem_ok {waits : Bool} {n al : Nat} {write : Bool} {m : M Unit} (there : s.Fitted)
    (ready : waits = true → s.npxReady = true) (reach : s.npxReaches o n write al = true) (run : m s = .ok () t) :
    npxCtlMem waits o n al write m s = .next t.advance := by
  refine complete_ok ((whenFitted_there there.gate there.fitted).trans ?_)
  have quiet : (if waits then npxPending else pure ()) s = .ok () s := by
    cases waits
    · rfl
    · obtain ⟨-, -, noError, noWait⟩ := State.npxReady_iff.mp (ready rfl)
      exact npxPending_quiet noError noWait
  simp only [M.bind_run, npxProbe_ok reach, quiet, run]

/-! The condition codes that no rule states (log entry 29). -/

/-- The coprocessor with its condition codes replaced. -/
def Fpu.coded (f : Fpu) (c3 c2 c1 c0 : Bool) : Fpu :=
  { f with status := { f.status with c3 := c3, c2 := c2, c1 := c1, c0 := c0 } }

/-- The coprocessor with the condition codes that draws from the `d`-th on give. -/
def Fpu.drawnCodes (f : Fpu) (d : Nat) : Fpu :=
  f.coded (Config.freeBit d) (Config.freeBit (d + 1)) (Config.freeBit (d + 2)) (Config.freeBit (d + 3))

theorem setCodes_drawn (s : State) :
    setCodes noCodes s = .ok () ((s.setDraws (s.draws + 4)).setFpu (s.fpu.drawnCodes s.draws)) := rfl

/-! ES after an instruction that loads the control or status word (R541, R546, R640). -/

/-- The coprocessor with ES as its exceptions and masks have it. -/
def Fpu.resettled (f : Fpu) : Fpu := { f with status := { f.status with es := f.unmasked } }

theorem resettle_run (t : State) : ∃ l : NpxLink, resettle t = .ok () ((t.setFpu t.fpu.resettled).setLink l) := by
  simp only [resettle, updS_run, State.signal, State.withFpu]
  split
  · exact ⟨_, rfl⟩
  · exact ⟨t.link, rfl⟩

/-- Without an unmasked exception no signal is given. -/
theorem resettle_masked (masked : t.fpu.unmasked = false) : resettle t = .ok () (t.setFpu t.fpu.resettled) := by
  simp only [resettle, updS_run, State.signal, State.withFpu, masked, Bool.false_and, Bool.false_eq_true, if_false]
  rw [← masked]
  rfl

/-- With all six masks set nothing is unmasked (R545). -/
theorem Fpu.unmasked_of_masks {f : Fpu} (cw : BitVec 16) (is : f.cw = cw ||| 0x3F#16) : f.unmasked = false := by
  have set (j : Nat) (low : (0x3F#16).getLsbD j = true) : cwMask f.cw j = true := by
    rw [cwMask, bitOf, is, BitVec.getLsbD_or, low, Bool.or_true]
  simp [Fpu.unmasked, set 0 rfl, set 1 rfl, set 2 rfl, set 3 rfl, set 4 rfl, set 5 rfl]

/-! Stores of the control and the status word (R540, R542, R543). -/

theorem writeMemBytes_at {n al : Nat} {bs : List Byte} (reach : s.npxReaches o n true al = true)
    (length : bs.length = n) : writeMemBytes o bs al s =
      .ok () (s.putBytes (s.linOf (s.memSeg o) (s.ea o)) bs) :=
  (writeMemBytes_npx reach length s.fpu s.draws).trans
    (congrArg (EStateM.Result.ok ()) (State.putBytes_npx s s.fpu s.draws _ bs).symm)

theorem State.putBytes_setDraws (s : State) (d : Nat) (lin : BitVec 32) (bs : List Byte) :
    (s.setDraws d).putBytes lin bs = (s.putBytes lin bs).setDraws d :=
  s.putBytes_comm (·.setDraws d) (fun _ _ _ => rfl) (fun _ => rfl) lin bs

theorem storeWord_run {v : BitVec 16} (reach : s.npxReaches o 2 true 2 = true) : storeWord o v s =
    .ok () (((s.setDraws (s.draws + 4)).putBytes (s.linOf (s.memSeg o) (s.ea o)) (leBytes 2 v.toNat)).setFpu
      (s.fpu.drawnCodes s.draws)) := by
  simp only [storeWord, M.bind_run, writeMemBytes_at reach (leBytes_length 2 v.toNat), setCodes_drawn,
    State.putBytes_setDraws, State.putBytes_draws, State.putBytes_fpu]

theorem storeSwAx_run (s : State) : storeSwAx s =
    .ok () (((s.setDraws (s.draws + 4)).regPut .w16 rAX s.swImage).setFpu (s.fpu.drawnCodes s.draws)) := rfl

/-- The coprocessor without its exception bits (R544). -/
def Fpu.cleared (f : Fpu) : Fpu := { f with status := { f.status with
  ie := false, de := false, ze := false, oe := false, ue := false, pe := false, sf := false, es := false } }

theorem clearExceptions_run (s : State) : clearExceptions s =
    .ok () ((s.setDraws (s.draws + 4)).setFpu (s.fpu.cleared.drawnCodes s.draws)) := rfl

/-! FSETPM and the encodings that are ignored (R538, R552). -/

theorem setPm_287 (old : s.n287 = true) : setPm s = .ok () (s.setFpu { s.fpu with pm287 := true }) := by
  simp only [setPm, M.bind_run, getS_run, old, if_true]
  rfl

theorem setPm_387 (unit : s.cfg.npx = .n387) : setPm s = .ok () s := by
  have new : s.n287 = false := by rw [State.n287, unit]; rfl
  simp only [setPm, M.bind_run, getS_run, new, unit, Bool.false_eq_true, if_false]
  rfl

theorem esc_ignored {rm : RM} (there : s.Fitted) (unit : s.cfg.npx ≠ .integrated)
    (row : rm ∈ ([.reg 0#3, .reg 1#3, .reg 4#3] : List RM)) : exec (.esc 3#3 4#3 rm) s = .next s.advance := by
  have ignored : escIgnored 3#3 4#3 rm = true := by
    simp only [List.mem_cons, List.not_mem_nil, or_false] at row
    obtain rfl | rfl | rfl := row <;> rfl
  refine complete_ok ?_
  rw [if_neg unit, whenFitted_there there.gate there.fitted, ignored]
  rfl

/-! FLDCW (R541). -/

/-- The coprocessor with another control word. -/
def Fpu.withCw (f : Fpu) (cw : BitVec 16) : Fpu := { f with cw := cw }

/-- A change of the coprocessor, the codes, and the settling of ES. -/
theorem codes_resettle (f : Fpu) (s : State) : ∃ l : NpxLink,
    (do updFpu (fun _ => f); setCodes noCodes; resettle) s =
      .ok () (((s.setFpu (f.drawnCodes s.draws).resettled).setLink l).setDraws (s.draws + 4)) := by
  obtain ⟨l, signals⟩ := resettle_run ((s.setDraws (s.draws + 4)).setFpu (f.drawnCodes s.draws))
  exact ⟨l, signals⟩

theorem fldcw_loads (ready : s.npxReady = true) (reach : s.npxReaches o 2 false 2 = true) :
    ∃ (f : Fpu) (l : NpxLink) (d : Nat), exec (.fldcw o) s = .next (s.npxDone f l d) ∧
      f.cw = leVal 16 (s.bytesAt (s.linOf (s.memSeg o) (s.ea o)) 2) ∧ f.regs = s.fpu.regs ∧ f.tags = s.fpu.tags ∧
      f.status.top = s.fpu.status.top ∧ f.status.es = f.unmasked := by
  obtain ⟨gate, fitted, -, -⟩ := State.npxReady_iff.mp ready
  obtain ⟨l, ends⟩ :=
    codes_resettle (s.fpu.withCw (leVal 16 (s.bytesAt (s.linOf (s.memSeg o) (s.ea o)) 2))) s
  have run := (M.bind_ok (readMemBytes_ok reach) fun bs => do
    updFpu (fun f => { f with cw := leVal 16 bs }); setCodes noCodes; resettle).trans ends
  exact ⟨_, l, _, npxCtlMem_ok ⟨gate, fitted⟩ (fun _ => ready) reach run, rfl, rfl, rfl, rfl, rfl⟩

end Sys2Proof.Machine
end


section
/-! The images of the coprocessor's environment and state (R560, R561): what is stored, and what is loaded. -/

namespace Sys2Proof.Machine

variable {s t : State} {i : Instr} {o : MemOp} {bs : List Byte}

/-! What is stored (R545, R547). -/

/-- The doublewords of a 32-bit image, with its undefined parts given. -/
def State.imageDwords (s : State) (u : Nat → BitVec 16) (n : BitVec 4) (b : BitVec 1) : List (BitVec 32) :=
  [u 0 ++ s.fpu.cwImage, u 1 ++ s.swImage, u 2 ++ s.fpu.tagWord] ++
  (if s.realImage then [u 3 ++ s.fpu.fip.lin.extractLsb' 0 16, n ++ s.fpu.fip.lin.extractLsb' 16 16 ++ b ++ s.fpu.fop,
      u 4 ++ s.fpu.fdp.lin.extractLsb' 0 16, 0#4 ++ s.fpu.fdp.lin.extractLsb' 16 16 ++ 0#12]
    else [s.fpu.fip.off, n ++ 0#1 ++ s.fpu.fop ++ s.fpu.fip.sel, s.fpu.fdp.off, u 4 ++ s.fpu.fdp.sel])

/-- The words of a 16-bit image. -/
theorem env16_eq (s : State) : s.env16 = [s.fpu.cwImage, s.swImage, s.fpu.tagWord] ++
    (if s.realImage then [s.fpu.fip.lin.extractLsb' 0 16, s.fpu.fip.lin.extractLsb' 16 4 ++ 0#1 ++ s.fpu.fop,
        s.fpu.fdp.lin.extractLsb' 0 16, s.fpu.fdp.lin.extractLsb' 16 4 ++ 0#12]
      else [s.fpu.fip.off.extractLsb' 0 16, s.fpu.fip.sel, s.fpu.fdp.off.extractLsb' 0 16, s.fpu.fdp.sel]) := by
  rw [State.env16]; split <;> rfl

/-- The bytes are those of an environment image of the state. -/
def State.IsImage (s : State) (bs : List Byte) : Prop :=
  (s.os ≠ .s32 → bs = s.env16.flatMap (fun x => leBytes 2 x.toNat)) ∧
  (s.os = .s32 → ∃ u n b, bs = (s.imageDwords u n b).flatMap (fun x => leBytes 4 x.toNat))

theorem env16_length (s : State) : s.env16.length = 7 := by
  rw [State.env16]; split <;> rfl

theorem imageDwords_length (s : State) (u : Nat → BitVec 16) (n : BitVec 4) (b : BitVec 1) :
    (s.imageDwords u n b).length = 7 := by
  rw [State.imageDwords]; split <;> rfl

theorem flatMap_leBytes_length {w : Nat} (k : Nat) (xs : List (BitVec w)) :
    (xs.flatMap fun x => leBytes k x.toNat).length = k * xs.length := by
  rw [List.length_flatMap]
  simp only [leBytes_length, List.map_const', List.sum_replicate, smul_eq_mul, Nat.mul_comm]

theorem State.IsImage.length (h : s.IsImage bs) : bs.length = s.envBytes := by
  by_cases wide : s.os = .s32
  · obtain ⟨u, n, b, rfl⟩ := h.2 wide
    rw [flatMap_leBytes_length, imageDwords_length, State.envBytes, if_pos wide]
  · rw [h.1 wide, flatMap_leBytes_length, env16_length, State.envBytes, if_neg wide]

/-- What is drawn for a 32-bit image. -/
theorem env32_run (s : State) : ∃ u n b d, env32 s = .ok (s.imageDwords u n b) (s.setDraws d) := by
  cases real : s.realImage
  · refine ⟨fun k => match k with
      | 0 => Config.freeWord s.draws
      | 1 => Config.freeWord (s.draws + 1)
      | 2 => Config.freeWord (s.draws + 2)
      | _ => Config.freeWord (s.draws + 4),
      (Config.freeByte (s.draws + 3)).extractLsb' 0 4, 0#1, s.draws + 5, ?_⟩
    simp only [env32, underDraw, drawNibble, M.bind_run, getS_run, drawWord_run, drawByte_run, M.pure_run, real,
      State.imageDwords, Bool.false_eq_true, if_false, State.setDraws_draws, State.setDraws_setDraws, Nat.add_assoc,
      List.cons_append, List.nil_append]
    
  · refine ⟨fun k => match k with
      | 0 => Config.freeWord s.draws
      | 1 => Config.freeWord (s.draws + 1)
      | 2 => Config.freeWord (s.draws + 2)
      | 3 => Config.freeWord (s.draws + 3)
      | _ => Config.freeWord (s.draws + 6),
      (Config.freeByte (s.draws + 4)).extractLsb' 0 4, BitVec.ofBool (Config.freeBit (s.draws + 5)), s.draws + 7, ?_⟩
    simp only [env32, underDraw, drawNibble, M.bind_run, getS_run, drawWord_run, drawByte_run, drawBit_run, M.pure_run,
      real, State.imageDwords, if_true, State.setDraws_draws, State.setDraws_setDraws, Nat.add_assoc,
      List.cons_append, List.nil_append]

theorem envImage_run (s : State) : ∃ bs d, s.IsImage bs ∧ envImage s = .ok bs (s.setDraws d) := by
  by_cases wide : s.os = .s32
  · obtain ⟨u, n, b, d, run⟩ := env32_run s
    refine ⟨_, d, ⟨fun not => absurd wide not, fun _ => ⟨u, n, b, rfl⟩⟩, ?_⟩
    simp only [envImage, M.bind_run, getS_run, if_pos wide, run, M.pure_run]
  · refine ⟨_, s.draws, ⟨fun _ => rfl, fun is => absurd is wide⟩, ?_⟩
    simp only [envImage, M.bind_run, getS_run, if_neg wide, M.pure_run]
    rfl

/-- An image that is written, behind its draws. -/
theorem image_written {n al d : Nat} (reach : s.npxReaches o n true al = true) (length : bs.length = n) :
    writeMemBytes o bs al (s.setDraws d) =
      .ok () ((s.putBytes (s.linOf (s.memSeg o) (s.ea o)) bs).setDraws d) := by
  refine (writeMemBytes_npx reach length s.fpu d).trans ?_
  rw [State.npx, ← State.putBytes_fpu s (s.linOf (s.memSeg o) (s.ea o)) bs]
  rfl

/-- The coprocessor after FSTENV: all exceptions masked, the codes drawn (R545). -/
def Fpu.maskedAll (f : Fpu) (d : Nat) : Fpu := ((f.withCw (f.cw ||| 0x3F#16)).drawnCodes d).resettled

theorem maskAll_run (t : State) (d : Nat) :
    (do updFpu (fun f => { f with cw := f.cw ||| 0x3F#16 }); setCodes noCodes; resettle) (t.setDraws d) =
      .ok () ((t.setDraws (d + 4)).setFpu (t.fpu.maskedAll d)) := by
  have codes := setCodes_drawn ((t.setDraws d).setFpu (t.fpu.withCw (t.fpu.cw ||| 0x3F#16)))
  refine (M.bind_ok (t := (t.setDraws d).setFpu (t.fpu.withCw (t.fpu.cw ||| 0x3F#16))) rfl _).trans
    ((M.bind_ok codes _).trans ?_)
  exact resettle_masked (Fpu.unmasked_of_masks t.fpu.cw rfl)

theorem fstenv_stores (there : s.Fitted) (reach : s.npxReaches o s.envBytes true s.envAlign = true) :
    ∃ (f : Fpu) (d : Nat) (bs : List Byte), s.IsImage bs ∧
      exec (.fstenv o) s = .next ((s.putBytes (s.linOf (s.memSeg o) (s.ea o)) bs).npxDone f s.link d) ∧
      f.cw = (s.fpu.cw ||| 0x3F#16) ∧ f.regs = s.fpu.regs ∧ f.tags = s.fpu.tags ∧
      f.status.top = s.fpu.status.top ∧ f.status.es = false := by
  obtain ⟨bs, d, image, draws⟩ := envImage_run s
  have run := maskAll_run (s.putBytes (s.linOf (s.memSeg o) (s.ea o)) bs) d
  rw [State.putBytes_fpu] at run
  have run : storeEnv o s = .ok () (((s.putBytes (s.linOf (s.memSeg o) (s.ea o)) bs).setDraws (d + 4)).setFpu
      (s.fpu.maskedAll d)) := by
    rw [storeEnv, M.bind_ok (getS_run s), M.bind_ok draws, M.bind_ok (image_written reach image.length)]
    exact run
  refine ⟨s.fpu.maskedAll d, d + 4, bs, image, (npxCtlMem_ok (waits := false) there nofun reach run).trans ?_,
    rfl, rfl, rfl, rfl, Fpu.unmasked_of_masks s.fpu.cw rfl⟩
  rw [← State.putBytes_link s (s.linOf (s.memSeg o) (s.ea o)) bs]
  rfl

/-- The coprocessor after FINIT (R539). -/
def Fpu.initial (f : Fpu) (n287 : Bool) : Fpu :=
  { f with
    cw := 0x037F#16, status := FpuStatus.ofWord 0#16, tags := Oct.all .empty
    fip := if n287 then f.fip else ⟨0#16, 0#32⟩
    fdp := if n287 then f.fdp else ⟨0#16, 0#32⟩
    fop := if n287 then f.fop else 0#11 }

theorem initNpx_run (s : State) :
    initNpx s = .ok () ((s.setFpu (s.fpu.initial s.n287)).setLink { s.link with irq13 := false }) := rfl

theorem initNpx_drawn (t : State) (d : Nat) : initNpx (t.setDraws d) =
    .ok () (((t.setFpu (t.fpu.initial t.n287)).setLink { t.link with irq13 := false }).setDraws d) := rfl

theorem stackBytes_length (f : Fpu) : f.stackBytes.length = 80 := rfl

theorem fsave_stores (there : s.Fitted) (reach : s.npxReaches o (s.envBytes + 80) true s.envAlign = true) :
    ∃ (f : Fpu) (d : Nat) (bs : List Byte), s.IsImage bs ∧
      exec (.fsave o) s = .next ((s.putBytes (s.linOf (s.memSeg o) (s.ea o)) (bs ++ s.fpu.stackBytes)).npxDone f
        { s.link with irq13 := false } d) ∧
      f.cw = 0x037F#16 ∧ f.status = FpuStatus.ofWord 0#16 ∧ f.tags = Oct.all .empty := by
  obtain ⟨bs, d, image, draws⟩ := envImage_run s
  have length : (bs ++ s.fpu.stackBytes).length = s.envBytes + 80 := by
    rw [List.length_append, image.length, stackBytes_length]
  have run := initNpx_drawn (s.putBytes (s.linOf (s.memSeg o) (s.ea o)) (bs ++ s.fpu.stackBytes)) d
  rw [State.putBytes_fpu, State.putBytes_link] at run
  have saves : saveState o s = initNpx _ :=
    (M.bind_ok (getS_run s) _).trans ((M.bind_ok draws _).trans (M.bind_ok (image_written reach length) _))
  exact ⟨_, d, bs, image, npxCtlMem_ok (waits := false) there nofun reach (saves.trans run), rfl, rfl, rfl⟩

/-! What is loaded (R546, R548). -/

theorem State.bytesAt_drop (s : State) (lin : BitVec 32) (j n : Nat) :
    (s.bytesAt lin (j + n)).drop j = s.bytesAt (lin + BitVec.ofNat 32 j) n := by
  induction j generalizing lin with
  | zero => rw [Nat.zero_add, List.drop_zero, BitVec.add_zero]
  | succ j ih =>
    have next : lin + 1#32 + BitVec.ofNat 32 j = lin + BitVec.ofNat 32 (j + 1) := by
      rw [BitVec.add_assoc, BitVec.ofNat_add, BitVec.add_comm (BitVec.ofNat 32 j)]
    rw [Nat.add_right_comm, State.bytesAt, List.drop_succ_cons, ih, next]

/-- Some of the bytes at an address. -/
theorem State.bytesAt_slice (s : State) (lin : BitVec 32) {j n total : Nat} (inside : j + n ≤ total) :
    ((s.bytesAt lin total).drop j).take n = s.bytesAt (lin + BitVec.ofNat 32 j) n := by
  obtain ⟨rest, rfl⟩ := Nat.le.dest inside
  rw [Nat.add_assoc, State.bytesAt_drop, State.bytesAt_take]

theorem field_bytesAt (s : State) (lin : BitVec 32) {n k total : Nat} (inside : n * k + n ≤ total) :
    field (s.bytesAt lin total) n k = leNat (s.bytesAt (lin + BitVec.ofNat 32 (n * k)) n) := by
  rw [field, State.bytesAt_slice s lin inside]

/-- The low word of four bytes. -/
theorem leVal_low (s : State) (lin : BitVec 32) : leVal 16 (s.bytesAt lin 4) = leVal 16 (s.bytesAt lin 2) := by
  apply BitVec.eq_of_toNat_eq
  simp only [leVal, State.bytesAt, leNat, BitVec.toNat_ofNat]
  omega

theorem leVal_extract (s : State) (lin : BitVec 32) :
    (leVal 32 (s.bytesAt lin 4)).extractLsb' 0 16 = leVal 16 (s.bytesAt lin 2) := by
  rw [← leVal_low]
  apply BitVec.eq_of_toNat_eq
  simp only [leVal, BitVec.extractLsb'_toNat, BitVec.toNat_ofNat, Nat.shiftRight_zero]
  omega

/-- The word at place `k` of an image, and the doubleword (R560). -/
def State.imageWord (s : State) (lin : BitVec 32) (k : Nat) : BitVec 16 :=
  leVal 16 (s.bytesAt (lin + BitVec.ofNat 32 ((if s.os == .s32 then 4 else 2) * k)) 2)

def State.imageDword (s : State) (lin : BitVec 32) (k : Nat) : BitVec 32 :=
  leVal 32 (s.bytesAt (lin + BitVec.ofNat 32 (4 * k)) 4)

section

variable {lin : BitVec 32} {k : Nat} (inside : k < 7)
include inside

theorem field_wide (wide : s.os = .s32) :
    field (s.bytesAt lin s.envBytes) 4 k = leNat (s.bytesAt (lin + BitVec.ofNat 32 (4 * k)) 4) := by
  refine field_bytesAt s lin ?_
  rw [State.envBytes, if_pos wide]
  omega

theorem field_dword (wide : s.os = .s32) :
    BitVec.ofNat 32 (field (s.bytesAt lin s.envBytes) 4 k) = s.imageDword lin k := by
  rw [field_wide inside wide]
  rfl

omit inside in
theorem imageDword_low (wide : s.os = .s32) : (s.imageDword lin k).extractLsb' 0 16 = s.imageWord lin k := by
  rw [State.imageDword, leVal_extract, State.imageWord, wide]
  rfl

theorem field_word (narrow : s.os ≠ .s32) :
    BitVec.ofNat 16 (field (s.bytesAt lin s.envBytes) 2 k) = s.imageWord lin k := by
  have size : (s.os == .s32) = false := beq_eq_false_iff_ne.mpr narrow
  rw [field_bytesAt s lin (by rw [State.envBytes, if_neg narrow]; omega), State.imageWord, size]
  rfl

/-- A word of either image. -/
theorem field_image : BitVec.ofNat 16 (field (s.bytesAt lin s.envBytes) (if s.os = .s32 then 4 else 2) k) =
    s.imageWord lin k := by
  by_cases wide : s.os = .s32
  · rw [if_pos wide, field_wide inside wide, State.imageWord, wide]
    exact leVal_low s _
  · rw [if_neg wide, field_word inside wide]

end

/-- Eight registers, those from a place on loaded: the rest are kept (R548). -/
theorem loadRegs_get (top : BitVec 3) (k : BitVec 3) : ∀ (n : Nat) (bs : List Byte) (r : Oct Temp), n ≤ 8 →
    (loadRegs top n bs r).get (top + k) =
      if 8 - n ≤ k.toNat then leVal 80 ((bs.drop (10 * (k.toNat - (8 - n)))).take 10) else r.get (top + k)
  | 0, _, _, _ => by
    rw [loadRegs, if_neg (by omega)]
  | n + 1, bs, r, most => by
    have place : (BitVec.ofNat 3 (7 - n)).toNat = 7 - n := by rw [BitVec.toNat_ofNat]; omega
    rw [loadRegs, loadRegs_get top k n _ _ (by omega)]
    by_cases here : k.toNat = 7 - n
    · have same : k = BitVec.ofNat 3 (7 - n) := BitVec.eq_of_toNat_eq (here.trans place.symm)
      rw [if_neg (by omega), if_pos (by omega), same, Oct.get_set_self, place]
      rw [show 7 - n - (8 - (n + 1)) = 0 by omega, Nat.mul_zero, List.drop_zero]
    · have other : top + k ≠ top + BitVec.ofNat 3 (7 - n) := fun same =>
        here ((congrArg BitVec.toNat (add_left_cancel same)).trans place)
      rw [Oct.get_set_ne _ _ other, List.drop_drop]
      by_cases later : 8 - n ≤ k.toNat
      · rw [if_pos later, if_pos (by omega)]
        congr 3
        omega
      · rw [if_neg later, if_neg (by omega)]

/-- The pointers that an image gives, FIP, FDP and FOP; `u` is FOP where the image has none (R560). -/
def State.imagePointers (s : State) (lin : BitVec 32) (u : BitVec 11) : FarPtr × FarPtr × BitVec 11 :=
  match s.os == .s32, s.realImage with
  | false, true => (⟨0#16, 0#12 ++ (s.imageWord lin 4).extractLsb' 12 4 ++ s.imageWord lin 3⟩,
      ⟨0#16, 0#12 ++ (s.imageWord lin 6).extractLsb' 12 4 ++ s.imageWord lin 5⟩,
      (s.imageWord lin 4).extractLsb' 0 11)
  | false, false => (⟨s.imageWord lin 4, (s.imageWord lin 3).setWidth 32⟩,
      ⟨s.imageWord lin 6, (s.imageWord lin 5).setWidth 32⟩, u)
  | true, true => (⟨0#16, (s.imageDword lin 4).extractLsb' 12 16 ++ s.imageWord lin 3⟩,
      ⟨0#16, (s.imageDword lin 6).extractLsb' 12 16 ++ s.imageWord lin 5⟩, (s.imageDword lin 4).extractLsb' 0 11)
  | true, false => (⟨s.imageWord lin 4, s.imageDword lin 3⟩, ⟨s.imageWord lin 6, s.imageDword lin 5⟩,
      (s.imageDword lin 4).extractLsb' 16 11)

section

variable (lin : BitVec 32) (u : BitVec 11)

theorem loadPointers_image (s : State) : ((s.loadPointers u (s.bytesAt lin s.envBytes)).fip,
    (s.loadPointers u (s.bytesAt lin s.envBytes)).fdp, (s.loadPointers u (s.bytesAt lin s.envBytes)).fop) =
      s.imagePointers lin u := by
  by_cases wide : s.os = .s32
  · have size : (s.os == .s32) = true := beq_iff_eq.mpr wide
    have dword {k : Nat} (inside : k < 7) := field_dword (s := s) (lin := lin) inside wide
    cases real : s.realImage
    · simp only [State.loadPointers, State.imagePointers, if_pos wide, size, real, Bool.false_eq_true, if_false,
        dword (show 3 < 7 by omega), dword (show 4 < 7 by omega), dword (show 5 < 7 by omega),
        dword (show 6 < 7 by omega), imageDword_low wide]
    · simp only [State.loadPointers, State.imagePointers, if_pos wide, size, real, if_true,
        dword (show 3 < 7 by omega), dword (show 4 < 7 by omega), dword (show 5 < 7 by omega),
        dword (show 6 < 7 by omega), imageDword_low wide]
  · have size : (s.os == .s32) = false := beq_eq_false_iff_ne.mpr wide
    have word {k : Nat} (inside : k < 7) := field_word (s := s) (lin := lin) inside wide
    cases real : s.realImage
    · simp only [State.loadPointers, State.imagePointers, if_neg wide, size, real, Bool.false_eq_true, if_false,
        word (show 3 < 7 by omega), word (show 4 < 7 by omega), word (show 5 < 7 by omega),
        word (show 6 < 7 by omega)]
    · simp only [State.loadPointers, State.imagePointers, if_neg wide, size, real, if_true,
        word (show 3 < 7 by omega), word (show 4 < 7 by omega), word (show 5 < 7 by omega),
        word (show 6 < 7 by omega)]

/-- A tag of a loaded image (R473). -/
theorem loadedTag_eq (n287 : Bool) (tw : BitVec 16) (j : Nat) (v : Temp) : loadedTag n287 tw j v =
    if n287 = true ∨ tw.extractLsb' (2 * j) 2 = 3#2 then Tag.ofCode (tw.extractLsb' (2 * j) 2) else tTag v := by
  have empty (c : BitVec 2) : (Tag.ofCode c == .empty) = decide (c = 3#2) := by revert c; decide
  simp only [loadedTag, empty, Bool.or_eq_true, decide_eq_true_eq]

theorem loadedTags_get (n287 : Bool) (tw : BitVec 16) (r : Oct Temp) (j : BitVec 3) :
    (loadedTags n287 tw r).get j = loadedTag n287 tw j.toNat (r.get j) := by
  have each : ∀ k < 8, j = BitVec.ofNat 3 k →
      (loadedTags n287 tw r).get j = loadedTag n287 tw j.toNat (r.get j) := by
    intro k less is
    subst is
    interval_cases k <;> rfl
  exact each j.toNat j.isLt (BitVec.eq_of_toNat_eq (by rw [BitVec.toNat_ofNat]; omega))

/-- The coprocessor has been loaded from the image at an address (R473, R546, R560). -/
structure State.Loaded (s : State) (lin : BitVec 32) (f : Fpu) : Prop where
  cw : f.cw = s.imageWord lin 0
  status : f.status = { FpuStatus.ofWord (s.imageWord lin 1) with
    es := f.unmasked, sf := (s.imageWord lin 1).getLsbD 6 && !s.n287 }
  tags : ∀ j : BitVec 3, f.tags.get j =
    if s.n287 = true ∨ (s.imageWord lin 2).extractLsb' (2 * j.toNat) 2 = 3#2 then
      Tag.ofCode ((s.imageWord lin 2).extractLsb' (2 * j.toNat) 2)
    else tTag (f.regs.get j)
  pointers : ∃ u, (f.fip, f.fdp, f.fop) = s.imagePointers lin u

theorem loadImage_status (s : State) (more : Option (List Byte)) :
    (s.loadImage u (s.bytesAt lin s.envBytes) more).status = { FpuStatus.ofWord (s.imageWord lin 1) with
      es := s.fpu.status.es, sf := (s.imageWord lin 1).getLsbD 6 && !s.n287 } := by
  rw [← field_image (s := s) (lin := lin) (k := 1) (by omega)]
  rfl

theorem loadImage_loaded (s : State) (more : Option (List Byte)) :
    s.Loaded lin (s.loadImage u (s.bytesAt lin s.envBytes) more).resettled := by
  have word {k : Nat} (inside : k < 7) := field_image (s := s) (lin := lin) inside
  refine ⟨word (by omega), ?_, fun j => ?_, u, loadPointers_image lin u s⟩
  · show ({ (s.loadImage u (s.bytesAt lin s.envBytes) more).status with es := _ } : FpuStatus) = _
    rw [loadImage_status]
    rfl
  · show (loadedTags s.n287 (BitVec.ofNat 16 (field _ _ 2)) _).get j = _
    rw [loadedTags_get, word (by omega), loadedTag_eq]
    rfl

end

theorem fldenv_loads (ready : s.npxReady = true) (reach : s.npxReaches o s.envBytes false s.envAlign = true) :
    ∃ (f : Fpu) (l : NpxLink) (d : Nat), exec (.fldenv o) s = .next (s.npxDone f l d) ∧
      s.Loaded (s.linOf (s.memSeg o) (s.ea o)) f ∧ f.regs = s.fpu.regs := by
  obtain ⟨gate, fitted, -, -⟩ := State.npxReady_iff.mp ready
  obtain ⟨l, signals⟩ := resettle_run ((s.setDraws (s.draws + 1)).setFpu (s.loadImage
    ((Config.freeWord s.draws).extractLsb' 0 11) (s.bytesAt (s.linOf (s.memSeg o) (s.ea o)) s.envBytes) none))
  have loads : loadEnv o s = resettle _ :=
    (M.bind_ok (getS_run s) _).trans ((M.bind_ok (readMemBytes_ok reach) _).trans rfl)
  exact ⟨_, l, s.draws + 1,
    npxCtlMem_ok (waits := true) ⟨gate, fitted⟩ (fun _ => ready) reach (loads.trans signals),
    loadImage_loaded _ _ s none, rfl⟩

theorem frstor_loads (ready : s.npxReady = true)
    (reach : s.npxReaches o (s.envBytes + 80) false s.envAlign = true) :
    ∃ (f : Fpu) (l : NpxLink) (d : Nat), exec (.frstor o) s = .next (s.npxDone f l d) ∧
      s.Loaded (s.linOf (s.memSeg o) (s.ea o)) f ∧
      ∀ k : BitVec 3, f.st k = leVal 80 (s.bytesAt (s.linOf (s.memSeg o) (s.ea o) +
        BitVec.ofNat 32 (s.envBytes + 10 * k.toNat)) 10) := by
  obtain ⟨gate, fitted, -, -⟩ := State.npxReady_iff.mp ready
  have image (u : BitVec 11) (more : Option (List Byte)) : s.Loaded (s.linOf (s.memSeg o) (s.ea o)) (s.loadImage u
      ((s.bytesAt (s.linOf (s.memSeg o) (s.ea o)) (s.envBytes + 80)).take s.envBytes) more).resettled := by
    rw [State.bytesAt_take]
    exact loadImage_loaded _ _ s more
  obtain ⟨l, signals⟩ := resettle_run ((s.setDraws (s.draws + 1)).setFpu (s.loadImage
    ((Config.freeWord s.draws).extractLsb' 0 11)
    ((s.bytesAt (s.linOf (s.memSeg o) (s.ea o)) (s.envBytes + 80)).take s.envBytes)
    (some ((s.bytesAt (s.linOf (s.memSeg o) (s.ea o)) (s.envBytes + 80)).drop s.envBytes))))
  have loads : restoreState o s = resettle _ :=
    (M.bind_ok (getS_run s) _).trans ((M.bind_ok (readMemBytes_ok reach) _).trans rfl)
  refine ⟨_, l, s.draws + 1,
    npxCtlMem_ok (waits := true) ⟨gate, fitted⟩ (fun _ => ready) reach (loads.trans signals), image _ _, fun k => ?_⟩
  refine (loadRegs_get _ k 8 _ _ (le_refl 8)).trans ?_
  have less := k.isLt
  rw [if_pos (by omega), Nat.sub_self, Nat.sub_zero, List.drop_drop, State.bytesAt_slice s _ (by omega)]

/-! All of them. -/

theorem envBytes_eq (s : State) : s.envBytes = if s.os == .s32 then 28 else 14 := by simp [State.envBytes]

theorem envAlign_eq (s : State) : s.envAlign = if s.os == .s32 then 4 else 2 := by simp [State.envAlign]

/-- Settles O43: each control instruction ends, with the images written and read word by word. -/
theorem npxControlComplete : Obligations.NpxControlComplete := by
  intro s m p lin wide e al real zero codes t4 cw sw ip20 dp20 words dwords image w16 w32 loaded em ts fitted
  have there : s.Fitted := ⟨by rw [em, ts]; rfl, fitted⟩
  have isImage {bs : List Byte} (h : s.IsImage bs) : image bs := by
    refine ⟨fun narrow => ?_, fun is => h.2 (beq_iff_eq.mp is)⟩
    rw [h.1 (beq_eq_false_iff_ne.mp narrow), env16_eq]
    rfl
  have isLoaded {f : Fpu} (h : s.Loaded lin f) : loaded f := ⟨h.cw, h.status, h.tags, h.pointers⟩
  refine ⟨npxCtl_ok there (initNpx_run s), fun old => npxCtl_ok there (setPm_287 old),
    fun unit => npxCtl_ok there (setPm_387 unit), fun unit rm => esc_ignored there unit,
    ⟨_, _, _, _, complete_ok ((whenFitted_there there.gate there.fitted).trans (storeSwAx_run s))⟩,
    ⟨_, _, _, _, npxCtl_ok there (clearExceptions_run s)⟩,
    fun reach => ⟨_, _, _, _, npxCtlMem_ok (waits := false) there nofun reach (storeWord_run reach),
      npxCtlMem_ok (waits := false) there nofun reach (storeWord_run reach)⟩,
    fun ready reach => fldcw_loads ready reach, ?_⟩
  rw [show e = s.envBytes from (envBytes_eq s).symm, show al = s.envAlign from (envAlign_eq s).symm]
  refine ⟨fun reach => ?_, fun ready reach => ?_, fun reach => ?_, fun ready reach => ?_⟩
  · obtain ⟨f, d, bs, is, rest⟩ := fstenv_stores there reach
    exact ⟨f, d, bs, isImage is, rest⟩
  · obtain ⟨f, l, d, run, is, regs⟩ := fldenv_loads ready reach
    exact ⟨f, l, d, run, isLoaded is, regs⟩
  · obtain ⟨f, d, bs, is, rest⟩ := fsave_stores there reach
    exact ⟨f, d, bs, isImage is, rest⟩
  · obtain ⟨f, l, d, run, is, regs⟩ := frstor_loads ready reach
    exact ⟨f, l, d, run, isLoaded is, regs⟩

end Sys2Proof.Machine
end


section
/-! Exact values of the coprocessor's numbers (R472, R475): the fields of what is put together, and rounding that
changes nothing. -/

namespace Sys2Proof.Machine

variable {neg : Bool} {m n j : Nat} {x : Int} {v : Temp} {cw : BitVec 16} {n287 : Bool}

/-! Significant bits. -/

theorem bitLen_of_ne (some : n ≠ 0) : bitLen n = n.log2 + 1 := by rw [bitLen, if_neg some]

theorem bitLen_le (small : n < 2 ^ m) : bitLen n ≤ m := by
  by_cases zero : n = 0
  · simp [bitLen, zero]
  · rw [bitLen_of_ne zero]
    exact (Nat.log2_lt zero).mpr small

theorem bitLen_shift (some : n ≠ 0) (j : Nat) : bitLen (n * 2 ^ j) = bitLen n + j := by
  have pos : n * 2 ^ j ≠ 0 := Nat.mul_ne_zero some (Nat.two_pow_pos j).ne'
  have log : (n * 2 ^ j).log2 = n.log2 + j := by
    rw [Nat.log2_eq_iff pos, Nat.pow_add, Nat.add_right_comm, Nat.pow_add]
    exact ⟨Nat.mul_le_mul_right _ (Nat.log2_self_le some), Nat.mul_lt_mul_of_pos_right Nat.lt_log2_self
      (Nat.two_pow_pos j)⟩
  rw [bitLen_of_ne some, bitLen_of_ne pos, log]
  omega

/-! The fields of a number that is put together (R472). -/

section

variable (some : n ≠ 0) (small : n < 2 ^ 64) (low : -16382 ≤ x + bitLen n - 1) (high : x + bitLen n - 1 ≤ 16383)
include some small low

theorem packTemp_eq : packTemp neg n x = mkTemp neg (x + bitLen n - 1 + 16383).toNat (n * 2 ^ (64 - bitLen n)) := by
  rw [packTemp, if_neg some, if_neg (by omega), if_pos (bitLen_le small)]

theorem packTemp_sign : tSign (packTemp neg n x) = neg := by
  rw [packTemp_eq some small low, mkTemp_sign]

theorem packTemp_sig : tSig (packTemp neg n x) = n * 2 ^ (64 - bitLen n) := by
  rw [packTemp_eq some small low, mkTemp_sig (aligned_sig some small).2.2]

include high

theorem packTemp_exp : (tExp (packTemp neg n x) : Int) = x + bitLen n - 1 + 16383 := by
  rw [packTemp_eq some small low, mkTemp_exp (by omega)]
  omega

theorem packTemp_lsb : tLsb (packTemp neg n x) = x + bitLen n - 64 := by
  have exp := packTemp_exp (neg := neg) some small low high
  rw [tLsb, if_neg (by omega), exp]
  omega

/-- Its class (R472). -/
theorem class_packTemp : tClass (packTemp neg n x) = .normal := packTemp_normal some small low (by omega)

end

/-- Bits of a significand that are all zero do not count. -/
theorem packTemp_shift (some : n ≠ 0) (j : Nat) (fits : bitLen n + j ≤ 64) (low : -16382 ≤ x + j + bitLen n - 1) :
    packTemp neg (n * 2 ^ j) x = packTemp neg n (x + j) := by
  have pos : n * 2 ^ j ≠ 0 := Nat.mul_ne_zero some (Nat.two_pow_pos j).ne'
  have len := bitLen_shift some j
  have bits : n * 2 ^ j * 2 ^ (64 - (bitLen n + j)) = n * 2 ^ (64 - bitLen n) := by
    rw [Nat.mul_assoc, ← Nat.pow_add]
    congr 2
    omega
  have fits' : bitLen n ≤ 64 := by omega
  have normal : ¬ x + (j : Int) + bitLen n - 1 < -16382 := by omega
  have exp : x + ((bitLen n + j : Nat) : Int) - 1 = x + j + bitLen n - 1 := by omega
  rw [packTemp, packTemp, if_neg some, if_neg pos, len, exp, if_neg normal, if_neg normal, if_pos fits,
    if_pos fits', bits]

/-! Rounding that changes nothing (R475). -/

/-- A multiple of the unit is not rounded. -/
theorem roundAt_exact {rc : Rc} {q : Int} {k : Nat} (h : q ≤ x → m * 2 ^ (x - q).toNat = k)
    (h' : x < q → m = k * 2 ^ (q - x).toNat) : roundAt rc neg m x q = ⟨k, false, false⟩ := by
  by_cases finer : q ≤ x
  · rw [roundAt, if_pos finer, h finer]
  · have whole : m = k * 2 ^ (q - x).toNat := h' (by omega)
    have rest : m % 2 ^ (q - x).toNat = 0 := by rw [whole, Nat.mul_mod_left]
    have quotient : m / 2 ^ (q - x).toNat = k := by rw [whole, Nat.mul_div_cancel _ (Nat.two_pow_pos _)]
    have none (odd : Bool) : roundsUp rc neg odd 0 (2 ^ (q - x).toNat) = false := by
      have pos : (2 : Nat) ^ (q - x).toNat ≠ 0 := (Nat.two_pow_pos _).ne'
      cases rc <;> simp [roundsUp, pos.symm]
    simp only [roundAt, if_neg finer, rest, quotient, none]
    rfl

/-- A number of at most `p` bits, however it is written, is exact in a format of `p` bits. -/
theorem narrow_exact {f : Format} (some : n ≠ 0) (whole : m = n * 2 ^ j) (fits : bitLen n ≤ f.p)
    (low : f.emin ≤ x + j + bitLen n - 1) (high : x + j + bitLen n - 1 ≤ f.emax) :
    narrow f cw neg m x = ⟨false, n * 2 ^ (f.p - bitLen n), x + bitLen m - f.p, false, false, false, false⟩ := by
  have len : bitLen m = bitLen n + j := by rw [whole, bitLen_shift some]
  have top : bitLen (n * 2 ^ (f.p - bitLen n)) = f.p := by rw [bitLen_shift some]; omega
  have round : roundAt (cwRc cw) neg m x (x + bitLen m - f.p) = ⟨n * 2 ^ (f.p - bitLen n), false, false⟩ := by
    refine roundAt_exact (fun finer => ?_) fun coarser => ?_
    · rw [len, whole, Nat.mul_assoc, ← Nat.pow_add]
      congr 2
      omega
    · rw [len, whole, Nat.mul_assoc, ← Nat.pow_add]
      congr 2
      omega
  have inside : ¬ f.emax < x + bitLen m - f.p + f.p - 1 := by omega
  have normal : ¬ x + bitLen m - f.p + f.p - 1 < f.emin := by omega
  simp only [narrow, round, top, if_neg inside, if_neg normal]

/-- And so it is a result without exception at 64 bits (R475). -/
theorem roundTemp_exact (some : n ≠ 0) (small : n < 2 ^ 64) (whole : m = n * 2 ^ j)
    (low : -16382 ≤ x + j + bitLen n - 1) (high : x + j + bitLen n - 1 ≤ 16383) :
    roundTemp cw (Option.some 64) neg m x = .exact (packTemp neg n (x + j)) := by
  have fits : bitLen n ≤ 64 := bitLen_le small
  have pos : m ≠ 0 := by
    rw [whole]
    exact Nat.mul_ne_zero some (Nat.two_pow_pos j).ne'
  have len : bitLen m = bitLen n + j := by rw [whole, bitLen_shift some]
  have top : bitLen (n * 2 ^ (64 - bitLen n)) = 64 := by rw [bitLen_shift some]; omega
  have value : packTemp neg (n * 2 ^ (64 - bitLen n)) (x + bitLen m - 64) = packTemp neg n (x + j) := by
    rw [packTemp_shift some _ (by omega) (by omega)]
    congr 1
    omega
  have inside : ¬ 16383 < x + (bitLen m : Int) - 64 + 64 - 1 := by omega
  have narrowed := narrow_exact (f := tempFormat 64) (cw := cw) (neg := neg) some whole fits low high
  simp only [tempFormat] at narrowed
  simp only [roundTemp, if_neg pos, tempFormat, narrowed, top, Bool.false_eq_true,
    false_and, or_false, if_false, Nat.cast_ofNat, if_neg inside, value, Res.exact]

end Sys2Proof.Machine
end


section
/-! Integers as temporary reals (R483): their fields, and the four operations and the comparison on them (R475, R479). -/

namespace Sys2Proof.Machine

variable {a b n : Int} {v : Temp} {cw : BitVec 16} {n287 : Bool}

/-! The fields of an integer. -/

theorem ofInt_zero : ofInt 0 = tZero false := rfl

section

variable (small : n.natAbs < 2 ^ 64)
include small

theorem ofInt_fields (some : n ≠ 0) : tSign (ofInt n) = decide (n < 0) ∧
    tSig (ofInt n) = n.natAbs * 2 ^ (64 - bitLen n.natAbs) ∧ tLsb (ofInt n) = bitLen n.natAbs - 64 ∧
    tClass (ofInt n) = .normal := by
  have pos : n.natAbs ≠ 0 := Int.natAbs_ne_zero.mpr some
  have fits := bitLen_le small
  have low : -16382 ≤ (0 : Int) + bitLen n.natAbs - 1 := by omega
  have high : (0 : Int) + bitLen n.natAbs - 1 ≤ 16383 := by omega
  refine ⟨packTemp_sign pos small low, packTemp_sig pos small low, ?_, class_packTemp pos small low high⟩
  rw [ofInt, packTemp_lsb pos small low high, zero_add]

theorem class_ofInt : tClass (ofInt n) = if n = 0 then .zero else .normal := by
  by_cases zero : n = 0
  · rw [if_pos zero, zero, ofInt_zero, class_tZero]
  · rw [if_neg zero, (ofInt_fields small zero).2.2.2]

theorem tIsInf_ofInt : tIsInf (ofInt n) = false := by
  rw [tIsInf, class_ofInt small]
  split <;> rfl

theorem tIsDenormal_ofInt : tIsDenormal (ofInt n) = false := by
  rw [tIsDenormal, class_ofInt small]
  split <;> rfl

theorem tIsZero_ofInt : tIsZero (ofInt n) = decide (n = 0) := by
  rw [tIsZero, class_ofInt small]
  split
  · next zero => rw [decide_eq_true zero]; rfl
  · next some => rw [decide_eq_false some]; rfl

theorem tSign_ofInt : tSign (ofInt n) = decide (n < 0) := by
  by_cases zero : n = 0
  · subst zero; decide
  · exact (ofInt_fields small zero).1

theorem tLsb_ofInt_le : tLsb (ofInt n) ≤ 0 := by
  by_cases zero : n = 0
  · subst zero; decide
  · have fits := bitLen_le small
    rw [(ofInt_fields small zero).2.2.1]
    omega

/-- An integer over a unit below its least bit. -/
theorem ofInt_scaled {lo : Int} (below : lo ≤ tLsb (ofInt n)) :
    tSig (ofInt n) * 2 ^ (tLsb (ofInt n) - lo).toNat = n.natAbs * 2 ^ (-lo).toNat := by
  by_cases zero : n = 0
  · have sig : tSig (ofInt 0) = 0 := by decide
    rw [zero, sig, Int.natAbs_zero, Nat.zero_mul, Nat.zero_mul]
  · obtain ⟨-, sig, lsb, -⟩ := ofInt_fields small zero
    have fits := bitLen_le small
    rw [lsb] at below
    rw [sig, lsb, Nat.mul_assoc, ← Nat.pow_add]
    congr 2
    omega

theorem tScaled_ofInt {lo : Int} (below : lo ≤ tLsb (ofInt n)) : tScaled (ofInt n) lo = n * 2 ^ (-lo).toNat := by
  rw [tScaled, ofInt_scaled small below, tSign_ofInt small]
  push_cast
  by_cases neg : n < 0
  · rw [decide_eq_true neg, if_pos rfl, abs_of_neg neg]
    ring
  · rw [decide_eq_false neg, if_neg Bool.false_ne_true, abs_of_nonneg (by omega)]

end

/-! The sign inverted (R529). -/

theorem tNeg_fields (v : Temp) : tSign (tNeg v) = !tSign v ∧ tExp (tNeg v) = tExp v ∧ tSig (tNeg v) = tSig v := by
  refine ⟨?_, ?_, ?_⟩
  · rw [tSign, bitOf, tNeg, BitVec.getLsbD_xor, place_getLsbD (by decide)]
    simp [tSign, bitOf]
  · rw [tExp, tExp]
    congr 1
    ext j inside
    rw [BitVec.getElem_extractLsb', BitVec.getElem_extractLsb', tNeg, BitVec.getLsbD_xor,
      place_getLsbD (show 64 + j < 80 by omega), decide_eq_false (by omega), Bool.xor_false]
  · rw [tSig, tSig]
    congr 1
    ext j inside
    rw [BitVec.getElem_extractLsb', BitVec.getElem_extractLsb', tNeg, BitVec.getLsbD_xor,
      place_getLsbD (show 0 + j < 80 by omega), decide_eq_false (by omega), Bool.xor_false]

theorem tScaled_tNeg (v : Temp) (lo : Int) : tScaled (tNeg v) lo = - tScaled v lo := by
  obtain ⟨sign, exp, sig⟩ := tNeg_fields v
  rw [tScaled, tScaled, sign, sig, tLsb, exp, ← tLsb]
  cases tSign v <;> simp

theorem tLsb_tNeg (v : Temp) : tLsb (tNeg v) = tLsb v := by
  rw [tLsb, (tNeg_fields v).2.1, ← tLsb]

theorem tClass_tNeg (v : Temp) : tClass (tNeg v) = tClass v := by
  obtain ⟨-, exp, sig⟩ := tNeg_fields v
  have bit (k : Nat) (other : 79 ≠ k) (inside : k < 80) : bitOf (tNeg v) k = bitOf v k := by
    rw [bitOf, bitOf, tNeg, BitVec.getLsbD_xor, place_getLsbD inside, decide_eq_false other, Bool.xor_false]
  simp only [tClass, exp, sig, bit 63 (by decide) (by decide), bit 62 (by decide) (by decide)]

theorem tIsInf_tNeg (v : Temp) : tIsInf (tNeg v) = tIsInf v := by rw [tIsInf, tIsInf, tClass_tNeg]

/-! The four operations (R475). -/

/-- Numbers pass the checks of R476. -/
theorem arith_numbers {p : Nat} {x y : Temp} (hx : IsNumber x) (hy : IsNumber y) (pc : cwPc cw = some p) :
    arith n287 cw .add x y = addRes n287 cw (some p) x y ∧
    arith n287 cw .sub x y = addRes n287 cw (some p) x (tNeg y) ∧
    arith n287 cw .mul x y = mulRes cw (some p) x y ∧ arith n287 cw .div x y = divRes cw (some p) x y := by
  simp only [arith, nanCase_numbers hx hy, pc, and_self]

/-- An integer over a unit is rounded to itself. -/
theorem roundSum_exact {k : Nat} {sx sy : Bool} (small : n.natAbs < 2 ^ 64) (some : n ≠ 0) :
    roundSum cw (Option.some 64) sx sy (n * 2 ^ k) (-(k : Int)) = .exact (ofInt n) := by
  have pos : n.natAbs ≠ 0 := Int.natAbs_ne_zero.mpr some
  have fits := bitLen_le small
  have unit : (0 : Int) < 2 ^ k := by positivity
  have whole : (n * 2 ^ k).natAbs = n.natAbs * 2 ^ k := by rw [Int.natAbs_mul, Int.natAbs_pow]; rfl
  have sign : decide (n * 2 ^ k < 0) = decide (n < 0) := by
    rw [decide_eq_decide]
    constructor
    · intro h
      exact neg_of_mul_neg_left h unit.le
    · exact fun h => mul_neg_of_neg_of_pos h unit
  rw [roundSum, if_neg (mul_ne_zero some unit.ne'), sign, roundTemp_exact pos small whole (by omega) (by omega), ofInt]
  congr 2
  omega

theorem addRes_exact {x y : Temp} (finX : tIsInf x = false) (finY : tIsInf y = false)
    (hx : ∀ lo ≤ tLsb x, tScaled x lo = a * 2 ^ (-lo).toNat) (hy : ∀ lo ≤ tLsb y, tScaled y lo = b * 2 ^ (-lo).toNat)
    (below : tLsb x ≤ 0) (small : (a + b).natAbs < 2 ^ 64) (some : a + b ≠ 0) :
    addRes n287 cw (Option.some 64) x y = .exact (ofInt (a + b)) := by
  have unit : min (tLsb x) (tLsb y) = -((-min (tLsb x) (tLsb y)).toNat : Int) := by omega
  have sum : tScaled x (min (tLsb x) (tLsb y)) + tScaled y (min (tLsb x) (tLsb y)) =
      (a + b) * 2 ^ (-min (tLsb x) (tLsb y)).toNat := by
    rw [hx _ (min_le_left _ _), hy _ (min_le_right _ _), add_mul]
  simp only [addRes, finX, finY, sum, Bool.and_self, Bool.false_eq_true, if_false]
  conv_lhs => arg 6; rw [unit]
  exact roundSum_exact small some

section

variable (smallA : a.natAbs < 2 ^ 64) (smallB : b.natAbs < 2 ^ 64)
include smallA smallB

theorem addRes_ofInt (small : (a + b).natAbs < 2 ^ 64) (some : a + b ≠ 0) :
    addRes n287 cw (Option.some 64) (ofInt a) (ofInt b) = .exact (ofInt (a + b)) :=
  addRes_exact (tIsInf_ofInt smallA) (tIsInf_ofInt smallB) (fun _ => tScaled_ofInt smallA)
    (fun _ => tScaled_ofInt smallB) (tLsb_ofInt_le smallA) small some

theorem subRes_ofInt (small : (a - b).natAbs < 2 ^ 64) (some : a - b ≠ 0) :
    addRes n287 cw (Option.some 64) (ofInt a) (tNeg (ofInt b)) = .exact (ofInt (a - b)) := by
  rw [sub_eq_add_neg] at small some ⊢
  refine addRes_exact (tIsInf_ofInt smallA) ((tIsInf_tNeg _).trans (tIsInf_ofInt smallB))
    (fun _ => tScaled_ofInt smallA) (fun lo below => ?_) (tLsb_ofInt_le smallA) small some
  rw [tLsb_tNeg] at below
  rw [tScaled_tNeg, tScaled_ofInt smallB below, neg_mul]

omit smallA smallB in
/-- The sign of a product. -/
theorem sign_mul (someA : a ≠ 0) (someB : b ≠ 0) : (decide (a < 0) ^^ decide (b < 0)) = decide (a * b < 0) := by
  obtain negA | posA := lt_or_gt_of_ne someA
  · obtain negB | posB := lt_or_gt_of_ne someB
    · have pos := mul_pos_of_neg_of_neg negA negB
      rw [decide_eq_true negA, decide_eq_true negB, decide_eq_false (not_lt.mpr pos.le)]; rfl
    · have neg := mul_neg_of_neg_of_pos negA posB
      rw [decide_eq_true negA, decide_eq_false (not_lt.mpr posB.le), decide_eq_true neg]; rfl
  · obtain negB | posB := lt_or_gt_of_ne someB
    · have neg := mul_neg_of_pos_of_neg posA negB
      rw [decide_eq_false (not_lt.mpr posA.le), decide_eq_true negB, decide_eq_true neg]; rfl
    · have pos := mul_pos posA posB
      rw [decide_eq_false (not_lt.mpr posA.le), decide_eq_false (not_lt.mpr posB.le),
        decide_eq_false (not_lt.mpr pos.le)]; rfl

theorem mulRes_ofInt (small : (a * b).natAbs < 2 ^ 64) (some : a * b ≠ 0) :
    mulRes cw (Option.some 64) (ofInt a) (ofInt b) = .exact (ofInt (a * b)) := by
  obtain ⟨someA, someB⟩ := mul_ne_zero_iff.mp some
  obtain ⟨signA, sigA, lsbA, -⟩ := ofInt_fields smallA someA
  obtain ⟨signB, sigB, lsbB, -⟩ := ofInt_fields smallB someB
  have fitsA := bitLen_le smallA
  have fitsB := bitLen_le smallB
  have fits := bitLen_le small
  have pos : (a * b).natAbs ≠ 0 := Int.natAbs_ne_zero.mpr some
  have whole : tSig (ofInt a) * tSig (ofInt b) =
      (a * b).natAbs * 2 ^ ((64 - bitLen a.natAbs) + (64 - bitLen b.natAbs)) := by
    rw [sigA, sigB, Int.natAbs_mul, Nat.pow_add]
    ring
  simp only [mulRes, tIsInf_ofInt smallA, tIsInf_ofInt smallB, Bool.false_and, Bool.and_false, Bool.or_self,
    Bool.false_eq_true, if_false, signA, signB, sign_mul someA someB, lsbA, lsbB]
  rw [roundTemp_exact pos small whole (by omega) (by omega), ofInt]
  congr 2
  omega

theorem divRes_ofInt (small : (a * b).natAbs < 2 ^ 64) (someA : a ≠ 0) (someB : b ≠ 0) :
    divRes cw (Option.some 64) (ofInt (a * b)) (ofInt b) = .exact (ofInt a) := by
  obtain ⟨sign, sig, lsb, -⟩ := ofInt_fields small (mul_ne_zero someA someB)
  obtain ⟨signB, sigB, lsbB, -⟩ := ofInt_fields smallB someB
  have fits := bitLen_le small
  have fitsB := bitLen_le smallB
  have fitsA := bitLen_le smallA
  have pos : a.natAbs ≠ 0 := Int.natAbs_ne_zero.mpr someA
  have divisor : 0 < b.natAbs * 2 ^ (64 - bitLen b.natAbs) :=
    Nat.mul_pos (Int.natAbs_pos.mpr someB) (Nat.two_pow_pos _)
  have shifts : 2 ^ (64 - bitLen (a * b).natAbs) * 2 ^ 130 =
      2 ^ (130 + bitLen b.natAbs - bitLen (a * b).natAbs) * 2 ^ (64 - bitLen b.natAbs) := by
    rw [← Nat.pow_add, ← Nat.pow_add]
    congr 1
    omega
  have product : (a * b).natAbs * 2 ^ (64 - bitLen (a * b).natAbs) * 2 ^ 130 =
      a.natAbs * 2 ^ (130 + bitLen b.natAbs - bitLen (a * b).natAbs) *
        (b.natAbs * 2 ^ (64 - bitLen b.natAbs)) := by
    rw [Nat.mul_assoc, shifts, Int.natAbs_mul]
    ring
  have whole : divMag (tSig (ofInt (a * b))) (tSig (ofInt b)) =
      a.natAbs * 2 ^ (131 + bitLen b.natAbs - bitLen (a * b).natAbs) := by
    rw [divMag, sig, sigB, product, Nat.mul_div_cancel _ divisor, Nat.mul_mod_left, if_pos rfl,
      show 131 + bitLen b.natAbs - bitLen (a * b).natAbs = 130 + bitLen b.natAbs - bitLen (a * b).natAbs + 1 by omega,
      Nat.pow_succ]
    ring
  have signs : (decide (a * b < 0) ^^ decide (b < 0)) = decide (a < 0) := by
    rw [← sign_mul someA someB, Bool.xor_assoc, Bool.xor_self, Bool.xor_false]
  simp only [divRes, tIsInf_ofInt small, tIsInf_ofInt smallB, tIsZero_ofInt smallB, decide_eq_false someB,
    Bool.and_false, Bool.or_self, Bool.false_eq_true, if_false, sign, signB, signs, lsb, lsbB]
  rw [roundTemp_exact pos smallA whole (by omega) (by omega), ofInt]
  congr 2
  omega

/-- The order of integers is that of their temporary reals (R479). -/
theorem cmpValues_ofInt : cmpValues (ofInt a) (ofInt b) =
    if b < a then .greater else if a < b then .less else .equal := by
  have unit (lo : Int) : (0 : Int) < 2 ^ (-lo).toNat := by positivity
  simp only [cmpValues, tIsInf_ofInt smallA, tIsInf_ofInt smallB, Bool.or_self, Bool.false_eq_true, if_false,
    tScaled_ofInt smallA (min_le_left _ _), tScaled_ofInt smallB (min_le_right _ _), mul_lt_mul_iff_left₀ (unit _)]

end

/-! Loads and stores (R483, R488). -/

/-- An integer is no fraction, however RC rounds. -/
theorem roundToInt_ofInt {rc : Rc} (small : n.natAbs < 2 ^ 64) : roundToInt rc (ofInt n) = ⟨n.natAbs, false, false⟩ := by
  refine roundAt_exact (fun finer => ?_) fun coarser => ?_
  · have same : tLsb (ofInt n) = 0 := le_antisymm (tLsb_ofInt_le small) finer
    have scaled := ofInt_scaled small same.ge
    simpa [same] using scaled
  · by_cases zero : n = 0
    · subst zero
      rw [show tSig (ofInt 0) = 0 by decide, Int.natAbs_zero, Nat.zero_mul]
    · obtain ⟨-, sig, lsb, -⟩ := ofInt_fields small zero
      have fits := bitLen_le small
      rw [sig, lsb]
      congr 2
      omega

/-- An integer that was loaded is stored unchanged (R483, R488). -/
theorem storeInt_ofInt {w : Nat} (least : 0 < w) (most : w ≤ 64) (x : BitVec w) :
    storeInt cw w (ofInt x.toInt) = .value x.toNat false false false false := by
  have width : (2 : Int) ^ (w - 1) ≤ 2 ^ 63 := pow_le_pow_right₀ (by decide) (by omega)
  have low := BitVec.le_toInt x
  have high := BitVec.toInt_lt (x := x)
  have small : x.toInt.natAbs < 2 ^ 64 := by omega
  have number := isNumber_ofInt small
  have double : 2 ^ w = 2 * 2 ^ (w - 1) := by rw [← Nat.pow_succ']; congr 1; omega
  have nat := x.isLt
  have cast : ((2 ^ (w - 1) : Nat) : Int) = 2 ^ (w - 1) := by push_cast; rfl
  simp only [storeInt, number.supported, number.nan, tIsInf_ofInt small, Bool.or_self, Bool.false_eq_true, if_false,
    roundToInt_ofInt small, tSign_ofInt small]
  rw [← cast] at low high
  have toInt := BitVec.toInt_eq_toNat_cond x
  by_cases neg : x.toInt < 0
  · rw [decide_eq_true neg, if_pos rfl, if_pos rfl, if_pos (by omega)]
    have value : 2 ^ w - x.toInt.natAbs = x.toNat := by
      split at toInt <;> omega
    rw [value, Nat.mod_eq_of_lt nat]
  · rw [decide_eq_false neg, if_neg Bool.false_ne_true, if_neg Bool.false_ne_true, if_pos (by omega)]
    have value : x.toInt.natAbs = x.toNat := by
      split at toInt <;> omega
    rw [value]

section

variable {f : RealFmt}

/-- The significand of a normal number of a memory format. -/
theorem bitLen_normal {frac : Nat} (least : 1 ≤ f.p) (inside : frac < 2 ^ (f.p - 1)) :
    bitLen (2 ^ (f.p - 1) + frac) = f.p := by
  have pos : 2 ^ (f.p - 1) + frac ≠ 0 := by positivity
  have log : (2 ^ (f.p - 1) + frac).log2 = f.p - 1 := by
    rw [Nat.log2_eq_iff pos, Nat.pow_succ]
    omega
  rw [bitLen_of_ne pos, log]
  omega

/-- A normal number of a memory format: its bits (R471). -/
theorem realBits_normal {neg : Bool} {e frac : Nat} (least : 1 ≤ f.p) (inside : frac < 2 ^ (f.p - 1)) (low : 0 < e) :
    realBits f neg (2 ^ (f.p - 1) + frac) (e - f.bias - (f.p - 1 : Nat)) =
      ((if neg then 2 ^ f.ebits else 0) + e) * 2 ^ (f.p - 1) + frac := by
  have pos : 2 ^ (f.p - 1) + frac ≠ 0 := by positivity
  have normal : ¬ (e : Int) - f.bias - (f.p - 1 : Nat) + f.p - 1 < 1 - f.bias := by omega
  have exp : ((e : Int) - f.bias - (f.p - 1 : Nat) + f.p - 1 + f.bias).toNat = e := by omega
  simp only [realBits, if_neg pos, bitLen_normal least inside, if_neg normal, exp, le_refl, if_true, Nat.sub_self,
    pow_zero, Nat.mul_one, packReal, Nat.add_mod_left, Nat.mod_eq_of_lt inside]

/-- The exponents of a memory format lie within those of a temporary real. -/
theorem RealFmt.bias_range (some : 1 ≤ f.ebits) (exps : f.ebits ≤ 11) : f.top = 2 * f.bias + 1 ∧ f.bias < 1024 := by
  have double : 2 ^ f.ebits = 2 * 2 ^ (f.ebits - 1) := by rw [← Nat.pow_succ']; congr 1; omega
  have pos := Nat.two_pow_pos (f.ebits - 1)
  have most := Nat.pow_le_pow_right (n := 2) (by decide) (show f.ebits - 1 ≤ 10 by omega)
  rw [RealFmt.top, RealFmt.bias]
  omega

/-- A temporary real that is a normal number of a memory format is stored exactly (R488). -/
theorem storeReal_normal {neg : Bool} {e frac : Nat} (least : 1 ≤ f.p) (most : f.p ≤ 64) (some : 1 ≤ f.ebits)
    (exps : f.ebits ≤ 11) (inside : frac < 2 ^ (f.p - 1)) (low : 0 < e) (high : e < f.top) :
    storeReal n287 cw f (packTemp neg (2 ^ (f.p - 1) + frac) (e - f.bias - (f.p - 1 : Nat))) =
      .value (((if neg then 2 ^ f.ebits else 0) + e) * 2 ^ (f.p - 1) + frac) false false false false := by
  have pos : 2 ^ (f.p - 1) + frac ≠ 0 := by positivity
  have len := bitLen_normal least inside
  have bits : 2 ^ (f.p - 1) + frac < 2 ^ 64 := by
    have width := Nat.pow_le_pow_right (n := 2) (by decide) most
    have double : 2 ^ f.p = 2 * 2 ^ (f.p - 1) := by rw [← Nat.pow_succ']; congr 1; omega
    omega
  obtain ⟨top, range⟩ := RealFmt.bias_range some exps
  have lowTemp : -16382 ≤ (e : Int) - f.bias - (f.p - 1 : Nat) + bitLen (2 ^ (f.p - 1) + frac) - 1 := by omega
  have highTemp : (e : Int) - f.bias - (f.p - 1 : Nat) + bitLen (2 ^ (f.p - 1) + frac) - 1 ≤ 16383 := by omega
  have class_ := class_packTemp (neg := neg) pos bits lowTemp highTemp
  have number := isNumber_of_class (.inr class_)
  have sign := packTemp_sign (neg := neg) pos bits lowTemp
  have sig := packTemp_sig (neg := neg) pos bits lowTemp
  have lsb := packTemp_lsb (neg := neg) pos bits lowTemp highTemp
  rw [len] at sig lsb
  have sigLen : bitLen ((2 ^ (f.p - 1) + frac) * 2 ^ (64 - f.p)) = 64 := by rw [bitLen_shift pos, len]; omega
  have narrowed := narrow_exact (f := f.format) (cw := cw) (neg := neg)
    (m := (2 ^ (f.p - 1) + frac) * 2 ^ (64 - f.p)) (j := 64 - f.p)
    (x := (e : Int) - f.bias - (f.p - 1 : Nat) + f.p - 64) pos rfl len.le
    (by rw [len, RealFmt.format]; dsimp only; omega) (by rw [len, RealFmt.format]; dsimp only; omega)
  have unit : (e : Int) - f.bias - (f.p - 1 : Nat) + f.p - 64 + (64 : Nat) - f.p = e - f.bias - (f.p - 1 : Nat) := by
    omega
  rw [sigLen, len, show f.format.p = f.p from rfl, Nat.sub_self, pow_zero, Nat.mul_one, unit] at narrowed
  simp only [storeReal, number.supported, number.nan, tIsInf, tIsZero, class_, sign, sig, lsb, narrowed,
    Bool.false_eq_true, if_false, realBits_normal least inside low]
  rfl

/-- The bits of a real by its fields (R471). -/
theorem real_fields {r : Nat} (least : 1 ≤ f.p) (small : r < 2 ^ (f.p + f.ebits)) :
    ((if decide (r / 2 ^ (f.p - 1 + f.ebits) % 2 = 1) then 2 ^ f.ebits else 0) +
      r / 2 ^ (f.p - 1) % 2 ^ f.ebits) * 2 ^ (f.p - 1) + r % 2 ^ (f.p - 1) = r := by
  have top : r / 2 ^ (f.p - 1 + f.ebits) = r / 2 ^ (f.p - 1) / 2 ^ f.ebits := by
    rw [Nat.pow_add, Nat.div_div_eq_div_mul]
  have below : r / 2 ^ (f.p - 1) / 2 ^ f.ebits < 2 := by
    have width : f.p + f.ebits = f.p - 1 + f.ebits + 1 := by omega
    rw [← top, Nat.div_lt_iff_lt_mul (Nat.two_pow_pos _), ← Nat.pow_succ', Nat.succ_eq_add_one, ← width]
    exact small
  have sign (q : Nat) (less : q < 2) : (if decide (q % 2 = 1) then 2 ^ f.ebits else 0) = 2 ^ f.ebits * q := by
    interval_cases q <;> simp
  rw [top, sign _ below, Nat.div_add_mod, Nat.div_add_mod']

/-- A normal real that was loaded is stored unchanged (R483, R488). -/
theorem storeReal_ofReal {keep : Bool} {r : Nat} (least : 1 ≤ f.p) (most : f.p ≤ 64) (some : 1 ≤ f.ebits)
    (exps : f.ebits ≤ 11) (small : r < 2 ^ (f.p + f.ebits)) (low : 0 < r / 2 ^ (f.p - 1) % 2 ^ f.ebits)
    (high : r / 2 ^ (f.p - 1) % 2 ^ f.ebits < f.top) :
    storeReal n287 cw f (ofReal f keep r).1 = .value r false false false false := by
  have load : (ofReal f keep r).1 = packTemp (decide (r / 2 ^ (f.p - 1 + f.ebits) % 2 = 1))
      (2 ^ (f.p - 1) + r % 2 ^ (f.p - 1))
      ((r / 2 ^ (f.p - 1) % 2 ^ f.ebits : Nat) - f.bias - (f.p - 1 : Nat)) := by
    rw [ofReal, if_neg high.ne, if_neg low.ne']
  rw [load, storeReal_normal least most some exps (Nat.mod_lt _ (Nat.two_pow_pos _)) low high, real_fields least small]

end

/-- Settles O47: the operations on integers are rounded to themselves, and each format stores what it loads. -/
theorem npxExactArithmetic : Obligations.NpxExactArithmetic := by
  intro n287 keep cw a b r exact_
  refine ⟨fun smallA smallB pc => ?_, fun small => ?_, fun small => ?_, fun small => ?_, fun small low high => ?_,
    fun small low high => ?_⟩
  · obtain ⟨add, sub, mul, -⟩ := arith_numbers (n287 := n287) (isNumber_ofInt smallA) (isNumber_ofInt smallB) pc
    refine ⟨fun small some => ?_, fun small some => ?_, fun small some => ?_, fun someB small someA => ?_,
      cmpValues_ofInt smallA smallB⟩
    · exact add.trans (addRes_ofInt smallA smallB small some)
    · exact sub.trans (subRes_ofInt smallA smallB small some)
    · exact mul.trans (mulRes_ofInt smallA smallB small some)
    · obtain ⟨-, -, -, div⟩ := arith_numbers (n287 := n287) (isNumber_ofInt small) (isNumber_ofInt smallB) pc
      exact div.trans (divRes_ofInt smallA smallB small someA someB)
  · have stored := storeInt_ofInt (cw := cw) (w := 64) (by decide) (by decide) (BitVec.ofNat 64 r)
    rwa [BitVec.toNat_ofNat, Nat.mod_eq_of_lt small] at stored
  · have stored := storeInt_ofInt (cw := cw) (w := 32) (by decide) (by decide) (BitVec.ofNat 32 r)
    rwa [BitVec.toNat_ofNat, Nat.mod_eq_of_lt small] at stored
  · have stored := storeInt_ofInt (cw := cw) (w := 16) (by decide) (by decide) (BitVec.ofNat 16 r)
    rwa [BitVec.toNat_ofNat, Nat.mod_eq_of_lt small] at stored
  · exact storeReal_ofReal (f := .long) (by decide) (by decide) (by decide) (by decide) small low high
  · exact storeReal_ofReal (f := .short) (by decide) (by decide) (by decide) (by decide) small low high

end Sys2Proof.Machine
end


section
/-! The comparisons of the coprocessor (R496 to R505): order, exceptions and pops. -/

namespace Sys2Proof.Machine

variable {s : State} {i : Instr} {o : Option MemOp} {m : M Unit}

/-! Pops. -/

/-- The coprocessor after so many pops. -/
def Fpu.popped : Nat → Fpu → Fpu
  | 0, f => f
  | n + 1, f => f.pop.popped n

theorem popTimes_run (n : Nat) (s : State) (f : Fpu) (d : Nat) :
    popTimes n (s.npx f d) = .ok () (s.npx (f.popped n) d) := by
  induction n generalizing f with
  | zero => rfl
  | succ n ih => exact ih f.pop

/-- The tags after so many pops from a TOP. -/
def poppedTags (top : BitVec 3) : Nat → Oct Tag → Oct Tag
  | 0, g => g
  | n + 1, g => poppedTags (top + 1#3) n (g.set top .empty)

theorem Fpu.popped_fields (n : Nat) (f : Fpu) : (f.popped n).cw = f.cw ∧ (f.popped n).regs = f.regs ∧
    (f.popped n).tags = poppedTags f.status.top n f.tags ∧
    (f.popped n).status = { f.status with top := f.status.top + BitVec.ofNat 3 n } := by
  induction n generalizing f with
  | zero => exact ⟨rfl, rfl, rfl, by rw [BitVec.add_zero]; rfl⟩
  | succ n ih =>
    obtain ⟨cw, regs, tags, status⟩ := ih f.pop
    have top : f.pop.status.top = f.status.top + 1#3 := rfl
    have tag : f.pop.tags = f.tags.set f.status.top .empty := by
      show f.tags.set (f.status.top + 0#3) .empty = _
      rw [BitVec.add_zero]
    refine ⟨cw, regs, ?_, ?_⟩
    · rw [Fpu.popped, tags, tag, top]; rfl
    · rw [Fpu.popped, status, top, BitVec.add_assoc, ← BitVec.ofNat_add, Nat.add_comm 1 n]; rfl

/-! The order and the exceptions (R479, R496). -/

/-- C3, C2, C0. -/
def FpuStatus.row (t : FpuStatus) : Bool × Bool × Bool := (t.c3, t.c2, t.c0)

/-- C3, C2, C0 of an order (R479). -/
def Cmp.row : Cmp → Bool × Bool × Bool
  | .greater => (false, false, false)
  | .less => (false, false, true)
  | .equal => (true, false, false)
  | .unordered => (true, true, true)

theorem FpuStatus.Coded.row {t u : FpuStatus} {r : Cmp} {c1 : Code} (h : t.Coded (r.codes c1) u) : t.row = r.row := by
  have c3 := h.c3
  have c2 := h.c2
  have c0 := h.c0
  cases r <;> exact Prod.ext c3 (Prod.ext c2 c0)

/-- An operand of which no comparison is stated on the 80287, or an unsupported one. -/
def wild (u v : Temp) : Bool := tUnsupported u || tUnsupported v

/-- An infinity of the 80287 in projective mode (R474). -/
def projected (n287 : Bool) (cw : BitVec 16) (u v : Temp) : Bool := n287 && !cw.getLsbD 12 && (tIsInf u || tIsInf v)

/-- The order of two operands, or 'unordered' (R496). -/
def orderOf (n287 : Bool) (cw : BitVec 16) (u v : Temp) : Cmp :=
  if wild u v || (tIsNan u || tIsNan v) || projected n287 cw u v then .unordered else cmpValues u v

/-- A comparison is an invalid operation (R496, R501). -/
def badCompare (n287 : Bool) (cw : BitVec 16) (quiet : Bool) (u v : Temp) : Bool :=
  wild u v || tIsSignaling u || tIsSignaling v || ((tIsNan u || tIsNan v) && (!quiet || n287)) ||
    projected n287 cw u v

theorem nan_of_signaling {v : Temp} (h : tIsSignaling v = true) : tIsNan v = true := by
  rw [tIsNan, show (tClass v == .signaling) = true from h, Bool.or_true]

theorem compareRes_eq (n287 : Bool) (cw : BitVec 16) (quiet : Bool) (u v : Temp) :
    compareRes n287 cw quiet u v = (orderOf n287 cw u v, badCompare n287 cw quiet u v) := by
  have isProjective : (projective n287 cw && (tIsInf u || tIsInf v)) = projected n287 cw u v := rfl
  have isWild : (tUnsupported u || tUnsupported v) = wild u v := rfl
  simp only [compareRes, isProjective, isWild, orderOf, badCompare]
  by_cases refused : (wild u v || tIsSignaling u || tIsSignaling v) = true
  · have unordered : (wild u v || (tIsNan u || tIsNan v)) = true := by
      simp only [Bool.or_eq_true] at refused ⊢
      obtain (is | is) | is := refused
      · exact .inl is
      · exact .inr (.inl (nan_of_signaling is))
      · exact .inr (.inr (nan_of_signaling is))
    rw [refused, unordered]
    simp only [if_true, Bool.true_or]
  · rw [Bool.not_eq_true] at refused
    have none : wild u v = false := by simp only [Bool.or_eq_false_iff] at refused; exact refused.1.1
    rw [refused, none]
    cases tIsNan u || tIsNan v
    · cases projected n287 cw u v <;> simp
    · cases old : n287
      · cases quiet <;> simp [projected]
      · simp

/-! What a comparison leaves. -/

/-- The coprocessor after a comparison: the codes of the order, IE, DE and the pops; after an invalid operation that is
not masked IE alone. -/
structure State.Compared (s : State) (r : Cmp) (bad den : Bool) (n : Nat) (f : Fpu) : Prop where
  cw : f.cw = s.fpu.cw
  regs : f.regs = s.fpu.regs
  ie : f.status.ie = (s.fpu.status.ie || bad)
  stops : bad = true → s.npxMask 0 = false → f.status.row = s.fpu.status.row ∧
    f.status.top = s.fpu.status.top ∧ f.tags = s.fpu.tags
  goes : ¬ (bad = true ∧ s.npxMask 0 = false) → f.status.row = r.row ∧
    f.status.top = s.fpu.status.top + BitVec.ofNat 3 n ∧ f.tags = poppedTags s.fpu.status.top n s.fpu.tags ∧
    f.status.de = (s.fpu.status.de || den) ∧ (s.n287 = false → f.status.c1 = false)

/-- The condition code C1 of a comparison (R479). -/
theorem c1_fits {old new : Bool} (fits : (s.c1 false).Fits old new) (new387 : s.n287 = false) : new = false := by
  rw [State.c1, new387] at fits
  exact fits

theorem raiseIe_run {bad : Bool} (s : State) : (if bad then raiseIe else pure ()) s =
    .ok () (s.npx (s.fpu.withStatus { s.fpu.status with ie := s.fpu.status.ie || bad }) s.draws) := by
  cases bad
  · simp only [Bool.or_false]; rfl
  · simp only [Bool.or_true]; rfl

theorem compareWith_ends {quiet dv : Bool} {v : Temp} {n : Nat}
    (standard : s.n287 = true → wild (s.fpu.st 0#3) v = false)
    (calm : s.calm (dv || tIsDenormal (s.fpu.st 0#3)) = true) :
    Becomes (compareWith quiet v dv n) s (s.Compared (orderOf s.n287 s.fpu.cw (s.fpu.st 0#3) v)
      (badCompare s.n287 s.fpu.cw quiet (s.fpu.st 0#3) v) (tIsDenormal (s.fpu.st 0#3) || dv) n) := by
  have known : s.preStandard [s.fpu.st 0#3, v] = false := by
    simp only [State.preStandard, List.any_cons, List.any_nil, Bool.or_false, Bool.and_eq_false_iff]
    cases old : s.n287
    · exact .inl rfl
    · exact .inr (standard old)
  generalize isBad : badCompare s.n287 s.fpu.cw quiet (s.fpu.st 0#3) v = bad
  generalize isOrder : orderOf s.n287 s.fpu.cw (s.fpu.st 0#3) v = r
  have run : compareWith quiet v dv n s = (do
      (if bad then raiseIe else pure ())
      if bad && !s.npxMask 0 then setCodes (keepCodes (s.c1 false))
      else do
        let go ← denormalCheck (dv || tIsDenormal (s.fpu.st 0#3))
        setCodes (if !go && !bad then ⟨.undef, .undef, s.c1 false, .undef⟩ else r.codes (s.c1 false))
        (if go then popTimes n else pure ())) s := by
    simp only [compareWith, M.bind_run, getS_run, known, compareRes_eq, isBad, isOrder, Bool.false_eq_true, if_false,
      M.pure_run, Bool.or_false, Bool.false_or, Bool.and_eq_true]
  refine Ends.congr (.after (raiseIe_run s) ?_) run
  by_cases stops : (bad && !s.npxMask 0) = true
  · rw [if_pos stops]
    simp only [Bool.and_eq_true, Bool.not_eq_true'] at stops
    obtain ⟨t, d, coded, sets⟩ := setCodes_run (keepCodes (s.c1 false))
      (s.npx (s.fpu.withStatus { s.fpu.status with ie := s.fpu.status.ie || bad }) s.draws)
    refine .of_run sets ⟨_, d, rfl, rfl, rfl, coded.ie, fun _ _ => ⟨?_, coded.top, rfl⟩, fun not => absurd stops not⟩
    exact Prod.ext coded.c3 (Prod.ext coded.c2 coded.c0)
  · rw [if_neg stops]
    simp only [Bool.and_eq_true, Bool.not_eq_true'] at stops
    refine .denormal (s := s) (p := s.fpu) (d := s.draws) ?_
    rw [show (s.npx s.fpu s.draws).calm _ = true from calm]
    simp only [Bool.not_true, Bool.false_and, Bool.false_eq_true, if_false, if_true]
    refine .codes _ fun t d coded => .of_run (popTimes_run n s _ d) ⟨_, d, rfl, ?_⟩
    obtain ⟨cw, regs, tags, status⟩ := Fpu.popped_fields n (s.fpu.withStatus t)
    have top : t.top = s.fpu.status.top := coded.top
    refine ⟨cw, regs, ?_, fun is mask => absurd ⟨is, mask⟩ stops, fun _ => ⟨?_, ?_, ?_, ?_, fun new => ?_⟩⟩
    · rw [status]; exact coded.ie
    · rw [status]; exact coded.row
    · rw [status, Fpu.withStatus_status, top]
    · rw [tags, Fpu.withStatus_status, top]; rfl
    · rw [status, Bool.or_comm (tIsDenormal _)]; exact coded.de
    · rw [status]
      have fits : (r.codes (s.c1 false)).c1.Fits _ t.c1 := coded.c1
      cases r <;> exact c1_fits fits new

/-- The instruction completes as a comparison does. -/
def State.Compares (s : State) (i : Instr) (r : Cmp) (bad den : Bool) (n : Nat) : Prop :=
  ∃ (f : Fpu) (l : NpxLink) (d : Nat), exec i s = .next (s.npxDone f l d) ∧ f.regs = s.fpu.regs ∧
    f.status.ie = (s.fpu.status.ie || bad) ∧
    (if bad = true ∧ s.npxMask 0 = false then
      f.status.row = s.fpu.status.row ∧ f.status.top = s.fpu.status.top ∧ f.tags = s.fpu.tags ∧ f.status.es = true
    else f.status.row = r.row ∧ f.status.top = s.fpu.status.top + BitVec.ofNat 3 n ∧
      f.tags = poppedTags s.fpu.status.top n s.fpu.tags ∧ f.status.de = (s.fpu.status.de || den) ∧
      (s.n287 = false → f.status.c1 = false))

theorem State.Runs.compares {r : Cmp} {bad den : Bool} {n : Nat} (runs : s.Runs i o m)
    (h : Becomes m (s.npxAt i o) ((s.npxAt i o).Compared r bad den n)) : s.Compares i r bad den n := by
  obtain ⟨f, ⟨l, d, run⟩, compared⟩ := runs _ h
  refine ⟨f.settled, l, d, run, compared.regs, compared.ie, ?_⟩
  split
  · next stopped =>
    obtain ⟨row, top, tags⟩ := compared.stops stopped.1 stopped.2
    refine ⟨row, top, tags, es_of_unmasked (Fpu.unmasked_of_ie ?_ ?_)⟩
    · rw [compared.ie, stopped.1, Bool.or_true]
    · rw [compared.cw]
      exact stopped.2
  · next goes => exact compared.goes goes

/-- A comparison of ST(0) with a value, of no pre-standard operand on the 80287 and no denormal that is not masked. -/
theorem State.Runs.comparesWith {quiet dv : Bool} {v : Temp} {n : Nat} (runs : s.Runs i o m)
    (run : m (s.npxAt i o) = compareWith quiet v dv n (s.npxAt i o))
    (standard : s.n287 = true → wild (s.fpu.st 0#3) v = false)
    (calm : (tIsDenormal (s.fpu.st 0#3) || dv) = true → s.npxMask 1 = true) :
    s.Compares i (orderOf s.n287 s.fpu.cw (s.fpu.st 0#3) v) (badCompare s.n287 s.fpu.cw quiet (s.fpu.st 0#3) v)
      (tIsDenormal (s.fpu.st 0#3) || dv) n := by
  refine runs.compares (Ends.congr (compareWith_ends (s := s.npxAt i o) standard ?_) run)
  rw [State.npxAt_st, Bool.or_comm]
  exact s.calm_of_imp calm

/-! Where the operands are there. -/

theorem compareSt_there {quiet : Bool} {k : BitVec 3} {n : Nat} (first : s.fpu.isEmpty 0#3 = false)
    (second : s.fpu.isEmpty k = false) :
    compareSt quiet k n s = compareWith quiet (s.fpu.st k) (tIsDenormal (s.fpu.st k)) n s := by
  have none : s.anyEmpty [0#3, k] = false := by simp [State.anyEmpty, first, second]
  simp only [compareSt, M.bind_run, getS_run, none, Bool.false_eq_true, if_false]

theorem testZero_there (there : s.fpu.isEmpty 0#3 = false) : testZero s = compareWith false 0#80 false 0 s := by
  simp only [testZero, M.bind_run, getS_run, there, Bool.false_eq_true, if_false]
  rfl

theorem compareNum_at {f : NumFmt} {q : MemOp} {n : Nat} (reach : s.npxReaches q f.bytes false f.bytes = true) :
    compareNum f q n (s.npxAt i (some q)) =
      (if s.fpu.isEmpty 0#3 then compareEmpty (f.load false (s.bits q f.bytes)).2 n
      else compareWith false (f.load false (s.bits q f.bytes)).1 (f.load false (s.bits q f.bytes)).2 n)
        (s.npxAt i (some q)) := by
  simp only [compareNum, M.bind_run, getS_run, readNum_at i false reach, State.npxAt_isEmpty]
  rfl

/-! Where one is empty (R476, R497). -/

/-- The instruction completes as a comparison with an empty register does, with its exceptions masked. -/
def State.ComparesEmpty (s : State) (i : Instr) (n : Nat) : Prop :=
  ∃ (f : Fpu) (l : NpxLink) (d : Nat), exec i s = .next (s.npxDone f l d) ∧ f.regs = s.fpu.regs ∧
    f.status.row = Cmp.unordered.row ∧ f.status.ie = true ∧ f.status.top = s.fpu.status.top + BitVec.ofNat 3 n

theorem State.Runs.comparesEmpty {den : Bool} {n : Nat} (runs : s.Runs i o m)
    (run : m (s.npxAt i o) = compareEmpty den n (s.npxAt i o)) (invalid : s.npxMask 0 = true)
    (denormal : s.npxMask 1 = true) : s.ComparesEmpty i n := by
  have calm : s.calm den = true := by rw [State.calm, denormal, Bool.or_true]
  have fault : compareEmpty den n (s.npxAt i o) = (do
      setCodes (Cmp.unordered.codes (s.c1 false))
      afterInvalid den (popTimes n))
        ((s.npxAt i o).npx ((s.npxAt i o).fpu.withStatus (s.fpu.status.faulted s.n287)) s.draws) := by
    simp only [compareEmpty, stackFault, M.bind_run, getS_run, updStatus_run,
      show (s.npxAt i o).npxMask 0 = true from invalid, if_true]
    rfl
  obtain ⟨f, ⟨l, d, ends⟩, regs, row, ie, top⟩ := runs (fun f => f.regs = s.fpu.regs ∧
      f.status.row = Cmp.unordered.row ∧ f.status.ie = true ∧
      f.status.top = s.fpu.status.top + BitVec.ofNat 3 n) <| by
    refine Ends.congr (Ends.codesAfterInvalid
      (s := (s.npxAt i o).npx ((s.npxAt i o).fpu.withStatus (s.fpu.status.faulted s.n287)) s.draws) _
      (fun _ _ t d coded => ?_)
      (fun unmasked => absurd (invalid.symm.trans unmasked) Bool.noConfusion)
      (fun _ agitated => absurd (calm.symm.trans agitated) Bool.noConfusion)) (run.trans fault)
    obtain ⟨-, regs, -, status⟩ := Fpu.popped_fields n ((s.npxAt i o).fpu.withStatus t)
    have isTop : t.top = s.fpu.status.top := coded.top
    refine .of_run (popTimes_run n (s.npxAt i o) _ d)
      ⟨Fpu.popped n ((s.npxAt i o).fpu.withStatus t), d, rfl, regs, ?_, ?_, ?_⟩
    · rw [status]; exact coded.row
    · rw [status]; exact coded.ie
    · rw [status, Fpu.withStatus_status, isTop]
  exact ⟨f.settled, l, d, ends, regs, row, ie, top⟩

theorem compareSt_empty {quiet : Bool} {k : BitVec 3} {n : Nat}
    (empty : s.fpu.isEmpty 0#3 = true ∨ s.fpu.isEmpty k = true) :
    compareSt quiet k n s = compareEmpty ((s.operands [0#3, k]).any tIsDenormal) n s := by
  simp only [compareSt, M.bind_run, getS_run, anyEmpty_pair empty, if_true]

theorem testZero_empty (empty : s.fpu.isEmpty 0#3 = true) : testZero s = compareEmpty false 0 s := by
  simp only [testZero, M.bind_run, getS_run, empty, if_true]

/-! FXAM (R505). -/

/-- The codes of FXAM. -/
def examineCodes (s : State) : Codes :=
  if s.fpu.isEmpty 0#3 then
    ⟨.val true, if s.n287 then .undef else .val false, .val (tSign (s.fpu.st 0#3)), .val true⟩
  else if s.n287 && tClass (s.fpu.st 0#3) == .pseudo then ⟨.undef, .undef, .val (tSign (s.fpu.st 0#3)), .undef⟩
  else ⟨.val (classCodes (tClass (s.fpu.st 0#3))).1, .val (classCodes (tClass (s.fpu.st 0#3))).2.1,
    .val (tSign (s.fpu.st 0#3)), .val (classCodes (tClass (s.fpu.st 0#3))).2.2⟩

theorem examine_run (s : State) : examine s = setCodes (examineCodes s) s := by
  simp only [examine, M.bind_run, getS_run, examineCodes]
  split
  · rfl
  · split <;> rfl

/-- C3, C2, C0 of a class as the rules list them (R505). -/
theorem classCodes_listed (c : Class) : classCodes c =
    if c == .quiet || c == .signaling then (false, false, true)
    else if c == .unnormal || c == .pseudo then (false, false, false)
    else if c == .infinity then (false, true, true)
    else if c == .zero then (true, false, false)
    else if c == .denormal then (true, true, false)
    else (false, true, false) := by
  cases c <;> rfl

theorem fxam_codes (ready : s.npxReady = true) : ∃ (f : Fpu) (l : NpxLink) (d : Nat),
    exec .fxam s = .next (s.npxDone f l d) ∧ f.regs = s.fpu.regs ∧ f.tags = s.fpu.tags ∧
      f.status.top = s.fpu.status.top ∧ f.status.c1 = (s.fpu.st 0#3).getLsbD 79 ∧
      (s.fpu.isEmpty 0#3 = true → f.status.c3 = true ∧ f.status.c0 = true ∧
        (s.n287 = false → f.status.c2 = false)) ∧
      (s.fpu.isEmpty 0#3 = false → (s.n287 = true → tUnsupported (s.fpu.st 0#3) = false) →
        f.status.row = classCodes (tClass (s.fpu.st 0#3))) := by
  have runs : s.Runs .fxam none examine := .reg ready rfl
  obtain ⟨t, coded, f, l, d, run, -, regs, top, tags, is⟩ := runs.codes (examine_run _)
  have c3 := coded.c3
  have c2 := coded.c2
  have c1 := coded.c1
  have c0 := coded.c0
  refine ⟨f, l, d, run, regs, tags, top, ?_, fun empty => ?_, fun there known => ?_⟩
  · have sign : (examineCodes (s.npxAt .fxam none)).c1 = .val (tSign (s.fpu.st 0#3)) := by
      rw [examineCodes]
      split
      · rfl
      · split <;> rfl
    rw [sign] at c1
    rw [is]
    exact c1
  · rw [examineCodes, State.npxAt_isEmpty, if_pos empty] at c3 c2 c0
    rw [is]
    refine ⟨c3, c0, fun new => ?_⟩
    rw [State.npxAt_n287, new] at c2
    exact c2
  · have stated : (s.n287 && tClass (s.fpu.st 0#3) == .pseudo) = false := by
      cases old : s.n287
      · rfl
      · have supported := known old
        rw [tUnsupported, Bool.or_eq_false_iff] at supported
        exact supported.2
    rw [examineCodes, State.npxAt_isEmpty, there, if_neg Bool.false_ne_true, State.npxAt_n287, State.npxAt_st, stated,
      if_neg Bool.false_ne_true] at c3 c2 c0
    rw [is]
    exact Prod.ext c3 (Prod.ext c2 c0)

end Sys2Proof.Machine
end


section
/-! FSQRT, FSCALE, FPREM, FPREM1, FRNDINT and FXTRACT on integers (R522 to R527). -/

namespace Sys2Proof.Machine

variable {a b n : Int} {v : Temp} {cw : BitVec 16} {n287 : Bool}

/-- An integer by sign and magnitude; a zero keeps the sign. -/
def signedTemp (neg : Bool) (n : Int) : Temp := if n = 0 then tZero neg else ofInt n

/-- A magnitude with a sign. -/
def withSign (neg : Bool) (r : Nat) : Int := if neg then -(r : Int) else r

theorem signedTemp_withSign (neg : Bool) (r : Nat) : signedTemp neg (withSign neg r) = packTemp neg r 0 := by
  by_cases zero : r = 0
  · subst zero
    cases neg <;> rfl
  · cases neg
    · have sign : ¬ (r : Int) < 0 := by omega
      rw [signedTemp, withSign, if_neg Bool.false_ne_true, if_neg (by omega), ofInt, decide_eq_false sign,
        Int.natAbs_natCast]
    · have sign : -(r : Int) < 0 := by omega
      rw [signedTemp, withSign, if_pos rfl, if_neg (by omega), ofInt, decide_eq_true sign, Int.natAbs_neg,
        Int.natAbs_natCast]

theorem withSign_natAbs (a : Int) : withSign (decide (a < 0)) a.natAbs = a := by
  rw [withSign]
  by_cases neg : a < 0
  · rw [decide_eq_true neg, if_pos rfl]; omega
  · rw [decide_eq_false neg, if_neg Bool.false_ne_true]; omega

/-- A magnitude with the sign of a number turned or not. -/
theorem signedTemp_turned (a : Int) (turned : Bool) (r : Nat) :
    signedTemp (decide (a < 0)) (if a < 0 then -withSign turned r else withSign turned r) =
      packTemp (if r = 0 then decide (a < 0) else (decide (a < 0) ^^ turned)) r 0 := by
  have signed : (if a < 0 then -withSign turned r else withSign turned r) =
      withSign (decide (a < 0) ^^ turned) r := by
    by_cases neg : a < 0
    · rw [if_pos neg, decide_eq_true neg]
      cases turned <;> simp [withSign]
    · rw [if_neg neg, decide_eq_false neg, Bool.false_xor]
  rw [signed]
  by_cases zero : r = 0
  · rw [if_pos zero, zero]
    have none (neg : Bool) : withSign neg 0 = 0 := by cases neg <;> rfl
    rw [none, signedTemp, if_pos rfl, packTemp, if_pos rfl]
  · have some (neg : Bool) : withSign neg r ≠ 0 := by cases neg <;> simp [withSign, zero]
    rw [if_neg zero, ← signedTemp_withSign, signedTemp, signedTemp, if_neg (some _), if_neg (some _)]

/-- A number over a unit is rounded to itself, a zero too. -/
theorem roundTemp_unit {neg : Bool} {r k : Nat} (small : r < 2 ^ 64) :
    roundTemp cw (some 64) neg (r * 2 ^ k) (-(k : Int)) = .exact (packTemp neg r 0) := by
  by_cases zero : r = 0
  · subst zero
    rw [Nat.zero_mul, roundTemp, if_pos rfl, packTemp, if_pos rfl]
  · have fits := bitLen_le small
    rw [roundTemp_exact zero small rfl (by omega) (by omega)]
    congr 2
    omega

/-! FSQRT (R522). -/

/-- The digits of the root of a number. -/
theorem isqrt_bounds (k n : Nat) (small : n < 4 ^ k) :
    isqrt k n * isqrt k n ≤ n ∧ n < (isqrt k n + 1) * (isqrt k n + 1) := by
  induction k generalizing n with
  | zero =>
    rw [pow_zero] at small
    rw [isqrt]
    omega
  | succ k ih =>
    obtain ⟨low, high⟩ := ih (n / 4) (by rw [Nat.pow_succ] at small; omega)
    rw [isqrt]
    generalize isqrt k (n / 4) = q at low high
    have least : 4 * (q * q) ≤ n := by omega
    have most : n < 4 * ((q + 1) * (q + 1)) := by omega
    split
    · next up => exact ⟨up, lt_of_lt_of_eq most (by ring)⟩
    · next up => exact ⟨le_of_eq_of_le (by ring) least, not_le.mp up⟩

theorem isqrt_square {k r : Nat} (small : r * r < 4 ^ k) : isqrt k (r * r) = r := by
  obtain ⟨low, high⟩ := isqrt_bounds k (r * r) small
  have le : isqrt k (r * r) ≤ r := Nat.mul_self_le_mul_self_iff.mp low
  have lt : r < isqrt k (r * r) + 1 := Nat.mul_self_lt_mul_self_iff.mp high
  omega

theorem sqrtRes_square {c : Nat} (pc : cwPc cw = some 64) (small : c * c < 2 ^ 64) :
    sqrtRes n287 cw (ofInt (c * c)) = .exact (ofInt c) := by
  have nat : ((c : Int) * c).natAbs = c * c := by rw [Int.natAbs_mul, Int.natAbs_natCast]
  have fitsInt : ((c : Int) * c).natAbs < 2 ^ 64 := nat.trans_lt small
  have number := isNumber_ofInt fitsInt
  by_cases zero : c = 0
  · subst zero
    have isZero : tIsZero (ofInt ((0 : Nat) * (0 : Nat))) = true := tIsZero_ofInt fitsInt
    simp only [sqrtRes, nanCase_numbers number number, isZero, if_true]
    rfl
  · have someInt : (c : Int) * c ≠ 0 := by positivity
    have root : c < 2 ^ 64 := lt_of_le_of_lt (Nat.le_mul_self c) small
    have fits := bitLen_le small
    have sign : ¬ (c : Int) * c < 0 := not_lt.mpr (by positivity)
    obtain ⟨-, sig, lsb, -⟩ := ofInt_fields fitsInt someInt
    rw [nat] at sig lsb
    have aligned := aligned_sig (Nat.mul_ne_zero zero zero) small
    simp only [sqrtRes, nanCase_numbers number number, tIsZero_ofInt fitsInt, tIsInf_ofInt fitsInt,
      tSign_ofInt fitsInt, decide_eq_false someInt, decide_eq_false sign, Bool.false_eq_true, if_false, sig, pc]
    -- the shift of the significand makes its exponent even
    obtain ⟨h, shift, even⟩ : ∃ h : Nat,
        (if tLsb (ofInt (c * c)) % 2 = 0 then 140 else 141) + 64 = h + h + bitLen (c * c) ∧ h ≤ 102 := by
      rw [lsb]
      split
      · exact ⟨(204 - bitLen (c * c)) / 2, by omega, by omega⟩
      · exact ⟨(205 - bitLen (c * c)) / 2, by omega, by omega⟩
    have most : (if tLsb (ofInt (c * c)) % 2 = 0 then 140 else 141) ≤ 141 := by split <;> decide
    generalize (if tLsb (ofInt (c * c)) % 2 = 0 then 140 else 141) = s at shift most ⊢
    have square : c * c * 2 ^ (64 - bitLen (c * c)) * 2 ^ s = c * 2 ^ h * (c * 2 ^ h) := by
      rw [Nat.mul_assoc, ← Nat.pow_add, show 64 - bitLen (c * c) + s = h + h by omega, Nat.pow_add]
      ring
    have bound : c * 2 ^ h * (c * 2 ^ h) < 4 ^ 110 := by
      rw [← square]
      calc c * c * 2 ^ (64 - bitLen (c * c)) * 2 ^ s
          < 2 ^ 64 * 2 ^ s := Nat.mul_lt_mul_of_pos_right aligned.2.2 (Nat.two_pow_pos s)
        _ ≤ 2 ^ 64 * 2 ^ 141 := Nat.mul_le_mul_left _ (Nat.pow_le_pow_right (by decide) most)
        _ ≤ 4 ^ 110 := by decide
    have unit : (tLsb (ofInt (c * c)) - s) / 2 - 1 = -((h + 1 : Nat) : Int) := by omega
    have double : 2 * (c * 2 ^ h) + 0 = c * 2 ^ (h + 1) := by ring
    have positive : ¬ (c : Int) < 0 := by omega
    rw [square, isqrt_square bound, if_pos rfl, double, unit, roundTemp_unit root, ofInt, decide_eq_false positive,
      Int.natAbs_natCast]

/-! FRNDINT of halves (R526). -/

/-- Half of an integer, rounded. -/
def halfRounded (rc : Rc) (a : Int) : Int :=
  match rc with
  | .nearest => if a % 2 = 0 then a / 2 else if a / 2 % 2 = 0 then a / 2 else a / 2 + 1
  | .down => a / 2
  | .up => -((-a) / 2)
  | .chop => a.tdiv 2

/-- The same by sign and magnitude: a half that is left is rounded up or off. -/
theorem halfRounded_eq (rc : Rc) (a : Int) : halfRounded rc a = withSign (decide (a < 0)) (a.natAbs / 2 +
    (if roundsUp rc (decide (a < 0)) (a.natAbs / 2 % 2 == 1) (a.natAbs % 2) 2 then 1 else 0)) := by
  have chop : a.tdiv 2 = withSign (decide (a < 0)) (a.natAbs / 2) := by
    rw [withSign]
    by_cases neg : a < 0
    · have magnitude : (-a).tdiv 2 = -a / 2 := Int.tdiv_eq_ediv_of_nonneg (by omega)
      rw [Int.neg_tdiv] at magnitude
      rw [decide_eq_true neg, if_pos rfl]
      omega
    · rw [decide_eq_false neg, if_neg Bool.false_ne_true, Int.tdiv_eq_ediv_of_nonneg (by omega)]
      omega
  cases rc with
  | chop => rw [halfRounded, chop]; rfl
  | nearest =>
    by_cases neg : a < 0
    · simp only [halfRounded, roundsUp, withSign, decide_eq_true neg, if_true, Bool.or_eq_true, Bool.and_eq_true,
        decide_eq_true_eq, beq_iff_eq]
      split_ifs <;> omega
    · simp only [halfRounded, roundsUp, withSign, decide_eq_false neg, Bool.false_eq_true, if_false, Bool.or_eq_true,
        Bool.and_eq_true, decide_eq_true_eq, beq_iff_eq]
      split_ifs <;> omega
  | down =>
    by_cases neg : a < 0
    · simp only [halfRounded, roundsUp, withSign, decide_eq_true neg, if_true, Bool.true_and, decide_eq_true_eq]
      split_ifs <;> omega
    · simp only [halfRounded, roundsUp, withSign, decide_eq_false neg, Bool.false_eq_true, if_false, Bool.false_and]
      omega
  | up =>
    by_cases neg : a < 0
    · simp only [halfRounded, roundsUp, withSign, decide_eq_true neg, if_true, Bool.not_true, Bool.false_and,
        Bool.false_eq_true, if_false]
      omega
    · simp only [halfRounded, roundsUp, withSign, decide_eq_false neg, Bool.false_eq_true, if_false, Bool.not_false,
        Bool.true_and, decide_eq_true_eq]
      split_ifs <;> omega

/-- A rest and a whole that are both scaled are rounded as they were. -/
theorem roundsUp_scale {rc : Rc} {neg odd : Bool} {r whole k : Nat} (pos : 0 < k) :
    roundsUp rc neg odd (r * k) (whole * k) = roundsUp rc neg odd r whole := by
  have some : r * k ≠ 0 ↔ r ≠ 0 := by rw [Nat.mul_ne_zero_iff]; exact ⟨And.left, fun h => ⟨h, pos.ne'⟩⟩
  have less : whole * k < 2 * (r * k) ↔ whole < 2 * r := by
    rw [← Nat.mul_assoc]; exact Nat.mul_lt_mul_right pos
  have same : 2 * (r * k) = whole * k ↔ 2 * r = whole := by
    rw [← Nat.mul_assoc]; exact Nat.mul_left_inj pos.ne'
  cases rc <;> simp only [roundsUp, some, less, same]

theorem rndintRes_half (small : a.natAbs < 2 ^ 64) : ∃ pe up : Bool,
    rndintRes n287 cw (packTemp (decide (a < 0)) a.natAbs (-1)) =
      .value (signedTemp (decide (a < 0)) (halfRounded (cwRc cw) a)) false false pe up := by
  by_cases zero : a = 0
  · subst zero
    refine ⟨false, false, ?_⟩
    have number : IsNumber (tZero false) := isNumber_of_class (.inl (class_tZero _))
    have isZero : tIsZero (tZero false) = true := by decide
    have value : signedTemp (decide ((0 : Int) < 0)) (halfRounded (cwRc cw) 0) = tZero false := by
      rw [halfRounded_eq, signedTemp_withSign]
      cases cwRc cw <;> rfl
    rw [value, show packTemp (decide ((0 : Int) < 0)) (0 : Int).natAbs (-1) = tZero false from rfl, rndintRes,
      nanCase_numbers number number]
    simp only [isZero, Bool.or_true, Bool.true_or, if_true]
    rfl
  · have pos : a.natAbs ≠ 0 := Int.natAbs_ne_zero.mpr zero
    have fits := bitLen_le small
    have len := bitLen_of_ne pos
    have low : -16382 ≤ (-1 : Int) + bitLen a.natAbs - 1 := by omega
    have high : (-1 : Int) + bitLen a.natAbs - 1 ≤ 16383 := by omega
    have class_ := class_packTemp (neg := decide (a < 0)) pos small low high
    have number := isNumber_of_class (.inr class_)
    have exp := packTemp_exp (neg := decide (a < 0)) pos small low high
    have fraction : ¬ 16383 + 63 ≤ tExp (packTemp (decide (a < 0)) a.natAbs (-1)) := by omega
    have unit : (2 : Nat) ^ (0 - ((-1 : Int) + bitLen a.natAbs - 64)).toNat = 2 * 2 ^ (64 - bitLen a.natAbs) := by
      rw [← Nat.pow_succ']
      congr 1
      omega
    have finer : ¬ (0 : Int) ≤ -1 + bitLen a.natAbs - 64 := by omega
    have scale := Nat.two_pow_pos (64 - bitLen a.natAbs)
    simp only [rndintRes, nanCase_numbers number number, tIsInf, tIsZero, class_, decide_eq_false fraction, roundToInt,
      roundAt, packTemp_sign pos small low, packTemp_sig pos small low, packTemp_lsb pos small low high, if_neg finer,
      unit, Nat.mul_mod_mul_right, Nat.mul_div_mul_right _ _ scale, roundsUp_scale scale]
    rw [halfRounded_eq, signedTemp_withSign]
    exact ⟨_, _, rfl⟩

/-! FXTRACT (R527). -/

theorem extractRes_ofInt (small : a.natAbs < 2 ^ 64) (some : a ≠ 0) : extractRes n287 (ofInt a) =
    (.exact (ofInt a.natAbs.log2), packTemp (decide (a < 0)) a.natAbs (-(a.natAbs.log2 : Int))) := by
  have pos : a.natAbs ≠ 0 := Int.natAbs_ne_zero.mpr some
  have number := isNumber_ofInt small
  have fits := bitLen_le small
  have len := bitLen_of_ne pos
  obtain ⟨sign, sig, lsb, -⟩ := ofInt_fields small some
  have sigLen : bitLen (a.natAbs * 2 ^ (64 - bitLen a.natAbs)) = 64 := by rw [bitLen_shift pos]; omega
  have exponent : (bitLen a.natAbs : Int) - 64 + (64 : Nat) - 1 = a.natAbs.log2 := by omega
  have significand : packTemp (decide (a < 0)) (a.natAbs * 2 ^ (64 - bitLen a.natAbs)) (1 - ((64 : Nat) : Int)) =
      packTemp (decide (a < 0)) a.natAbs (-(a.natAbs.log2 : Int)) := by
    rw [packTemp_shift pos _ (by omega) (by omega)]
    congr 1
    omega
  simp only [extractRes, nanCase_numbers number number, tIsZero_ofInt small, decide_eq_false some, tIsInf_ofInt small,
    Bool.false_eq_true, if_false, extractParts, sign, sig, lsb, sigLen, exponent, significand]

/-! FSCALE (R523). -/

theorem scaleRes_ofInt (smallA : a.natAbs < 2 ^ 64) (scale : b.natAbs ≤ 16000) :
    scaleRes n287 cw (ofInt a) (ofInt b) =
      .exact (if a = 0 then ofInt 0 else packTemp (decide (a < 0)) a.natAbs b) := by
  have smallB : b.natAbs < 2 ^ 64 := by omega
  have numberA := isNumber_ofInt smallA
  have numberB := isNumber_ofInt smallB
  have lenB : bitLen b.natAbs ≤ 14 := bitLen_le (by omega)
  have exp : ¬ 16383 + 20 ≤ tExp (ofInt b) := by
    by_cases zero : b = 0
    · subst zero; decide
    · have posB : b.natAbs ≠ 0 := Int.natAbs_ne_zero.mpr zero
      have field := packTemp_exp (neg := decide (b < 0)) (x := 0) posB smallB (by omega) (by omega)
      rw [← ofInt] at field
      omega
  have trunc : truncSmall (ofInt b) = b := by
    rw [truncSmall, if_neg exp, roundToInt_ofInt smallB, tSign_ofInt smallB]
    exact withSign_natAbs b
  have ok : scaleOk287 (ofInt b) = true := by
    simp only [scaleOk287, numberB.nan, tIsInf_ofInt smallB, tIsInteger, roundToInt_ofInt smallB, trunc,
      show b.natAbs < 32768 by omega]
    rfl
  simp only [scaleRes, nanCase_numbers numberA numberB, ok, Bool.not_true, Bool.and_false, Bool.false_eq_true, if_false,
    tIsInf_ofInt smallA, tIsInf_ofInt smallB, tIsZero_ofInt smallA, Bool.false_or, trunc]
  by_cases zero : a = 0
  · rw [decide_eq_true zero, if_pos rfl, if_pos zero, zero]
  · have pos : a.natAbs ≠ 0 := Int.natAbs_ne_zero.mpr zero
    have fits := bitLen_le smallA
    obtain ⟨sign, sig, lsb, -⟩ := ofInt_fields smallA zero
    rw [decide_eq_false zero, if_neg Bool.false_ne_true, if_neg zero, sign, lsb,
      roundTemp_exact pos smallA sig (by omega) (by omega)]
    congr 2
    omega

/-! FPREM and FPREM1 (R524, R525). -/

/-- The quotient of two magnitudes is nearer above: more than half is left, or half and the quotient is odd. -/
def nearerAbove (x y : Nat) : Bool := decide (y < 2 * (x % y) ∨ (2 * (x % y) = y ∧ x / y % 2 = 1))

/-- The quotient of two magnitudes rounded to the nearest integer. -/
def nearQuotient (x y : Nat) : Nat := x / y + (if nearerAbove x y then 1 else 0)

theorem nearestRem_eq (x y : Nat) : nearestRem x y =
    (if nearerAbove x y then y - x % y else x % y, nearerAbove x y, nearQuotient x y) := by
  rw [nearestRem, nearQuotient, nearerAbove]
  split
  · next up => rw [decide_eq_true up]; rfl
  · next up => rw [decide_eq_false up]; rfl

theorem nearestRem_scale {x y k : Nat} (pos : 0 < k) : nearestRem (x * k) (y * k) =
    ((if nearerAbove x y then y - x % y else x % y) * k, nearerAbove x y, nearQuotient x y) := by
  have less : y * k < 2 * (x % y * k) ↔ y < 2 * (x % y) := by
    rw [← Nat.mul_assoc]; exact Nat.mul_lt_mul_right pos
  have same : 2 * (x % y * k) = y * k ↔ 2 * (x % y) = y := by
    rw [← Nat.mul_assoc]; exact Nat.mul_left_inj pos.ne'
  have up : nearerAbove (x * k) (y * k) = nearerAbove x y := by
    simp only [nearerAbove, Nat.mul_mod_mul_right, Nat.mul_div_mul_right _ _ pos, less, same]
  rw [nearestRem_eq, nearQuotient, up, Nat.mul_mod_mul_right, Nat.mul_div_mul_right _ _ pos, ← nearQuotient]
  cases nearerAbove x y
  · rfl
  · rw [if_pos rfl, if_pos rfl, Nat.sub_mul]

/-- The remainder that is left after the nearest quotient. -/
theorem nearest_rest {x y : Nat} (pos : 0 < y) : (x : Int) - nearQuotient x y * y =
    withSign (nearerAbove x y) (if nearerAbove x y then y - x % y else x % y) := by
  have less := Nat.mod_lt x pos
  have whole : ((x / y : Nat) : Int) * y + (x % y : Nat) = x := by exact_mod_cast Nat.div_add_mod' x y
  rw [nearQuotient]
  cases nearerAbove x y
  · simp only [withSign, Bool.false_eq_true, if_false, Nat.add_zero]
    omega
  · simp only [withSign, if_true, Nat.cast_add, Nat.cast_one, add_mul, one_mul]
    omega

theorem tmod_eq (a b : Int) : a.tmod b = withSign (decide (a < 0)) (a.natAbs % b.natAbs) := by
  have magnitude : (a.tmod b).natAbs = a.natAbs % b.natAbs := Int.natAbs_tmod ..
  rw [withSign]
  by_cases neg : a < 0
  · have sign : 0 ≤ (-a).tmod b := Int.tmod_nonneg b (by omega)
    rw [Int.neg_tmod] at sign
    rw [decide_eq_true neg, if_pos rfl]
    omega
  · have sign : 0 ≤ a.tmod b := Int.tmod_nonneg b (by omega)
    rw [decide_eq_false neg, if_neg Bool.false_ne_true]
    omega

section

variable (smallA : a.natAbs < 2 ^ 64) (smallB : b.natAbs < 2 ^ 64) (some : b ≠ 0)
include smallA smallB some

/-- Integers are reduced in one step (R524). -/
theorem premD_ofInt (someA : a ≠ 0) : premD (ofInt a) (ofInt b) < 64 := by
  have posA : a.natAbs ≠ 0 := Int.natAbs_ne_zero.mpr someA
  have posB : b.natAbs ≠ 0 := Int.natAbs_ne_zero.mpr some
  obtain ⟨-, sigA, lsbA, -⟩ := ofInt_fields smallA someA
  obtain ⟨-, sigB, lsbB, -⟩ := ofInt_fields smallB some
  have fitsA := bitLen_le smallA
  have fitsB := bitLen_le smallB
  have lenB := bitLen_of_ne posB
  rw [premD, sigA, sigB, lsbA, lsbB, bitLen_shift posA, bitLen_shift posB]
  omega

omit some in
/-- The magnitudes of two integers over their common unit. -/
theorem premMags_ofInt : ∃ k : Nat,
    premMags (ofInt a) (ofInt b) = (a.natAbs * 2 ^ k, b.natAbs * 2 ^ k, -(k : Int)) := by
  have below := tLsb_ofInt_le smallA
  refine ⟨(-min (tLsb (ofInt a)) (tLsb (ofInt b))).toNat, ?_⟩
  rw [premMags]
  refine Prod.ext (ofInt_scaled smallA (min_le_left _ _)) (Prod.ext (ofInt_scaled smallB (min_le_right _ _)) ?_)
  show min (tLsb (ofInt a)) (tLsb (ofInt b)) = -((-min (tLsb (ofInt a)) (tLsb (ofInt b))).toNat : Int)
  omega

theorem premRes_ofInt (ieee : Bool) (step : Nat) :
    premRes n287 cw ieee step (ofInt a) (ofInt b) = premFinite cw ieee step (ofInt a) (ofInt b) := by
  simp only [premRes, nanCase_numbers (isNumber_ofInt smallA) (isNumber_ofInt smallB), tIsInf_ofInt smallA,
    tIsInf_ofInt smallB, tIsZero_ofInt smallB, decide_eq_false some, Bool.or_self, Bool.false_eq_true, if_false]

theorem prem_ofInt (step : Nat) : premRes n287 cw false step (ofInt a) (ofInt b) =
    ⟨.exact (signedTemp (decide (a < 0)) (a.tmod b)), Option.some (a.natAbs / b.natAbs)⟩ := by
  rw [premRes_ofInt smallA smallB some, tmod_eq, signedTemp_withSign]
  obtain ⟨k, mags⟩ := premMags_ofInt smallA smallB
  rw [premFinite, mags]
  by_cases zero : a = 0
  · subst zero
    simp only [tIsZero_ofInt smallA, decide_true, if_true, Int.natAbs_zero, Nat.zero_mod, Nat.zero_div]
    rfl
  · have rest : a.natAbs % b.natAbs < 2 ^ 64 := lt_of_le_of_lt (Nat.mod_le _ _) smallA
    simp only [tIsZero_ofInt smallA, decide_eq_false zero, premD_ofInt smallA smallB some zero, Bool.false_eq_true,
      if_false, if_true, Nat.mul_mod_mul_right, Nat.mul_div_mul_right _ _ (Nat.two_pow_pos k), roundTemp_unit rest,
      tSign_ofInt smallA]

theorem prem1_ofInt (step : Nat) : premRes n287 cw true step (ofInt a) (ofInt b) =
    ⟨.exact (signedTemp (decide (a < 0)) (if a < 0 then -((a.natAbs : Int) - nearQuotient a.natAbs b.natAbs * b.natAbs)
      else (a.natAbs : Int) - nearQuotient a.natAbs b.natAbs * b.natAbs)),
      Option.some (nearQuotient a.natAbs b.natAbs)⟩ := by
  have posB : 0 < b.natAbs := Int.natAbs_pos.mpr some
  rw [premRes_ofInt smallA smallB some, nearest_rest posB, signedTemp_turned]
  obtain ⟨k, mags⟩ := premMags_ofInt smallA smallB
  rw [premFinite, mags]
  by_cases zero : a = 0
  · have none : nearerAbove 0 b.natAbs = false := by
      rw [nearerAbove, Nat.zero_mod]
      exact decide_eq_false (by omega)
    simp only [zero, tIsZero_ofInt (n := 0) (by decide), decide_true, if_true, Int.natAbs_zero, nearQuotient, none,
      Nat.zero_mod, Nat.zero_div, Bool.false_eq_true, if_false, Nat.add_zero]
    rfl
  · have rest : (if nearerAbove a.natAbs b.natAbs then b.natAbs - a.natAbs % b.natAbs else a.natAbs % b.natAbs) <
        2 ^ 64 := by
      split
      · omega
      · exact lt_of_le_of_lt (Nat.mod_le _ _) smallA
    have unit (r : Nat) : r * 2 ^ k = 0 ↔ r = 0 := by
      rw [Nat.mul_eq_zero, or_iff_left (Nat.two_pow_pos k).ne']
    simp only [tIsZero_ofInt smallA, decide_eq_false zero, premD_ofInt smallA smallB some zero, Bool.false_eq_true,
      if_false, if_true, nearestRem_scale (Nat.two_pow_pos k), roundTemp_unit rest, tSign_ofInt smallA, unit]

end

end Sys2Proof.Machine
end


section
/-! The comparisons as rows, the functions of the coprocessor on integers, and the statement about both (R496 to R505,
R522 to R527). -/

namespace Sys2Proof.Machine

variable {s : State} {i : Instr} {m : M Unit} {a b : Int} {v : Temp}

/-! The functions where their operands are there. -/

theorem unary_there {f : State → Temp → Res} (there : s.fpu.isEmpty 0#3 = false) :
    unary f s = deliverRes (tIsDenormal (s.fpu.st 0#3)) (f s (s.fpu.st 0#3)) onlyC1 (putSt 0#3 false) s := by
  simp only [unary, M.bind_run, getS_run, there, Bool.false_eq_true, if_false]

theorem unary_moves {f : State → Temp → Res} {pe up : Bool} (runs : s.Runs i none (unary f))
    (there : s.fpu.isEmpty 0#3 = false) (normal : tIsDenormal (s.fpu.st 0#3) = false)
    (result : f (s.npxAt i none) (s.fpu.st 0#3) = .value v false false pe up) :
    s.Moves i s.fpu.status.top (s.fpu.regs.set s.fpu.status.top v) (s.fpu.tags.set s.fpu.status.top (tTag v)) := by
  have run := unary_there (s := s.npxAt i none) (f := f) there
  rw [State.npxAt_st, result, normal] at run
  simpa only [BitVec.add_zero, Bool.false_eq_true, if_false] using runs.resultMoves run s.calm_false

section

variable (first : s.fpu.isEmpty 0#3 = false) (second : s.fpu.isEmpty 1#3 = false)
include first second

theorem noneEmpty : s.anyEmpty [0#3, 1#3] = false := by simp [State.anyEmpty, first, second]

theorem scaleOp_there : scaleOp s =
    deliverRes (tIsDenormal (s.fpu.st 0#3) || tIsDenormal (s.fpu.st 1#3))
      (scaleRes s.n287 s.fpu.cw (s.fpu.st 0#3) (s.fpu.st 1#3)) onlyC1 (putSt 0#3 false) s := by
  simp only [scaleOp, M.bind_run, getS_run, noneEmpty first second, Bool.false_eq_true, if_false]

/-- The result of a partial remainder of the two registers on top (R524). -/
def State.prem (s : State) (ieee : Bool) : Prem := premRes s.n287 s.fpu.cw ieee
  (32 + Config.npxPremStep (s.fpu.st 0#3) (s.fpu.st 1#3) % 32) (s.fpu.st 0#3) (s.fpu.st 1#3)

theorem premOp_there (ieee : Bool) : premOp ieee s =
    deliverRes (tIsDenormal (s.fpu.st 0#3) || tIsDenormal (s.fpu.st 1#3)) (s.prem ieee).r
      (premCodes (s.prem ieee).quotient (s.preStandard [s.fpu.st 0#3, s.fpu.st 1#3])
        (tIsNan (s.fpu.st 0#3) || tIsNan (s.fpu.st 1#3))) (putSt 0#3 false) s := by
  simp only [premOp, M.bind_run, getS_run, noneEmpty first second, Bool.false_eq_true, if_false]
  rfl

end

/-! A value with all its condition codes. -/

/-- The codes are those that an instruction sets. -/
def Codes.Set (c : Codes) (t : FpuStatus) : Prop :=
  ∃ u : FpuStatus, c.c3.Fits u.c3 t.c3 ∧ c.c2.Fits u.c2 t.c2 ∧ c.c1.Fits u.c1 t.c1 ∧ c.c0.Fits u.c0 t.c0

theorem FpuStatus.Coded.set {t u : FpuStatus} {c : Codes} (h : t.Coded c u) : c.Set t := ⟨u, h.c3, h.c2, h.c1, h.c0⟩

theorem deliverRes_exact {c : Code → Codes} {g : Temp → Fpu → Fpu} :
    Becomes (deliverRes false (.exact v) c fun v => updFpu (g v)) s fun f => ∃ (t : FpuStatus) (c1 : Code),
      (c c1).Set t ∧ t.top = s.fpu.status.top ∧ f = g v (s.fpu.withStatus t) := by
  refine .after (denormalCheck_run false s) ?_
  refine .after (getS_run _) (.after (M.pure_run _ _) (.status (s := s) (p := s.fpu) (d := s.draws)
    (.codes _ fun t d coded => .of_run rfl ⟨_, d, rfl, t, _, coded.set, coded.top, rfl⟩)))

/-- A value without exception that is delivered to ST(0), with the codes of the instruction. -/
theorem State.Runs.replacesCoded {c : Code → Codes} (runs : s.Runs i none m)
    (run : m (s.npxAt i none) = Machine.deliverRes false (.exact v) c (putSt 0#3 false) (s.npxAt i none)) :
    s.Replaces i v fun t => ∃ c1, (c c1).Set t := by
  obtain ⟨_, leaves, t, c1, set, top, rfl⟩ :=
    runs _ (Ends.congr (deliverRes_exact (g := fun v f => f.put 0#3 false v)) run)
  refine leaves.endsWith (by simp) (by simp [top]) (by simp [top]) (by simp [top]) ⟨c1, ?_⟩
  exact set

/-! The functions on integers. -/

section

variable (ready : s.npxReady = true) (there : s.fpu.isEmpty 0#3 = false)
include ready there

theorem fsqrt_square {c : Nat} (pc : cwPc s.fpu.cw = some 64) (small : c * c < 2 ^ 64)
    (is : s.fpu.st 0#3 = ofInt (c * c)) : s.Moves .fsqrt s.fpu.status.top
      (s.fpu.regs.set s.fpu.status.top (ofInt c)) (s.fpu.tags.set s.fpu.status.top (tTag (ofInt c))) := by
  have fits : ((c : Int) * c).natAbs < 2 ^ 64 := by rwa [Int.natAbs_mul, Int.natAbs_natCast]
  refine unary_moves (f := fun t a => sqrtRes t.n287 t.fpu.cw a) (pe := false) (up := false)
    (.reg ready rfl) there ?_ ?_
  · rw [is, tIsDenormal_ofInt fits]
  · rw [is]
    exact sqrtRes_square pc small

theorem frndint_half (small : a.natAbs < 2 ^ 64) (is : s.fpu.st 0#3 = packTemp (decide (a < 0)) a.natAbs (-1)) :
    s.Moves .frndint s.fpu.status.top
      (s.fpu.regs.set s.fpu.status.top (signedTemp (decide (a < 0)) (halfRounded (cwRc s.fpu.cw) a)))
      (s.fpu.tags.set s.fpu.status.top (tTag (signedTemp (decide (a < 0)) (halfRounded (cwRc s.fpu.cw) a)))) := by
  obtain ⟨pe, up, result⟩ := rndintRes_half (n287 := s.n287) (cw := s.fpu.cw) small
  refine unary_moves (f := fun t a => rndintRes t.n287 t.fpu.cw a) (pe := pe) (up := up)
    (.reg ready rfl) there ?_ ?_
  · rw [is]
    by_cases zero : a.natAbs = 0
    · rw [zero, packTemp, if_pos rfl, tIsDenormal, class_tZero]
      rfl
    · have fits := bitLen_le small
      have len := bitLen_of_ne zero
      rw [tIsDenormal, class_packTemp zero small (by omega) (by omega)]
      rfl
  · rw [is]
    exact result

theorem fxtract_ofInt (small : a.natAbs < 2 ^ 64) (some : a ≠ 0) (is : s.fpu.st 0#3 = ofInt a)
    (room : s.fpu.isEmpty 7#3 = true) : s.Pushes .fxtract (ofInt a.natAbs.log2)
      (packTemp (decide (a < 0)) a.natAbs (-(a.natAbs.log2 : Int))) fun _ => True := by
  have number := isNumber_ofInt small
  have known : (s.npxAt .fxtract none).preStandard [ofInt a] = false := by
    simp [State.preStandard, number.supported]
  have run : extractOp (s.npxAt .fxtract none) = withPush (ofInt a) (.exact (ofInt a.natAbs.log2))
      (packTemp (decide (a < 0)) a.natAbs (-(a.natAbs.log2 : Int))) onlyC1 (s.npxAt .fxtract none) := by
    simp only [extractOp, M.bind_run, getS_run, State.npxAt_isEmpty, there, State.npxAt_st, is, known,
      extractRes_ofInt small some, Bool.false_eq_true, if_false, M.pure_run]
  have runs : s.Runs .fxtract none extractOp := .reg ready rfl
  have ends := runs.pushes_exact rfl (by rw [tIsDenormal_ofInt small]; rfl) (run.trans (withPush_room room))
  rw [second_exact number.nan] at ends
  exact ends.any

section

variable (second : s.fpu.isEmpty 1#3 = false) (smallA : a.natAbs < 2 ^ 64) (smallB : b.natAbs < 2 ^ 64)
  (isA : s.fpu.st 0#3 = ofInt a) (isB : s.fpu.st 1#3 = ofInt b)
include second smallA smallB isA isB

theorem fscale_ofInt (scale : b.natAbs ≤ 16000) : s.Moves .fscale s.fpu.status.top
    (s.fpu.regs.set s.fpu.status.top (if a = 0 then ofInt 0 else packTemp (decide (a < 0)) a.natAbs b))
    (s.fpu.tags.set s.fpu.status.top (tTag (if a = 0 then ofInt 0 else packTemp (decide (a < 0)) a.natAbs b))) := by
  have run := scaleOp_there (s := s.npxAt .fscale none) there second
  rw [State.npxAt_st, State.npxAt_st, isA, isB, scaleRes_ofInt smallA scale, tIsDenormal_ofInt smallA,
    tIsDenormal_ofInt smallB] at run
  have runs : s.Runs .fscale none scaleOp := .reg ready rfl
  simpa only [BitVec.add_zero, Bool.false_eq_true, if_false] using runs.resultMoves run s.calm_false

omit ready in
/-- A partial remainder of integers: the value, and the low bits of the quotient in C0, C3 and C1. -/
theorem prem_delivers {ieee : Bool} {q : Nat} (runs : s.Runs i none (premOp ieee))
    (result : ∀ step, premRes s.n287 s.fpu.cw ieee step (ofInt a) (ofInt b) = ⟨.exact v, some q⟩) :
    s.Replaces i v fun t => t.c2 = false ∧ t.c0 = q.testBit 2 ∧ t.c3 = q.testBit 1 ∧ t.c1 = q.testBit 0 := by
  have known : (s.npxAt i none).preStandard [ofInt a, ofInt b] = false := by
    simp [State.preStandard, (isNumber_ofInt smallA).supported, (isNumber_ofInt smallB).supported]
  have prem : (s.npxAt i none).prem ieee = ⟨.exact v, some q⟩ := by
    rw [State.prem, State.npxAt_st, State.npxAt_st, isA, isB]
    exact result _
  have run := premOp_there (s := s.npxAt i none) there second ieee
  rw [prem, State.npxAt_st, State.npxAt_st, isA, isB, known, tIsDenormal_ofInt smallA, tIsDenormal_ofInt smallB] at run
  refine (runs.replacesCoded run).mono fun t ⟨c1, u, c3, c2, c1', c0⟩ => ⟨c2, c0, c3, c1'⟩

end

end

/-! The comparisons as rows. -/

/-- The row of a comparison with a number in memory. -/
def cmpRow (int pop x : Bool) (o : MemOp) : Instr :=
  match int, pop with
  | false, false => .fcomMem x o
  | false, true => .fcompMem x o
  | true, false => .ficom x o
  | true, true => .ficomp x o

theorem exec_cmpRow (int pop x : Bool) (o : MemOp) (s : State) : exec (cmpRow int pop x o) s =
    npxMem (cmpRow int pop x o) o (arFmt int x).bytes (arFmt int x).bytes false
      (compareNum (arFmt int x) o (if pop then 1 else 0)) s := by
  cases int <;> cases pop <;> rfl

/-- A comparison of ST(0) with a value, as the rules state it (R496 to R504). -/
def State.ComparesWith (s : State) (i : Instr) (quiet : Bool) (v : Temp) (dv : Bool) (n : Nat) : Prop :=
  (s.n287 = true → wild (s.fpu.st 0#3) v = false) → ((tIsDenormal (s.fpu.st 0#3) || dv) = true → s.npxMask 1 = true) →
    s.Compares i (orderOf s.n287 s.fpu.cw (s.fpu.st 0#3) v) (badCompare s.n287 s.fpu.cw quiet (s.fpu.st 0#3) v)
      (tIsDenormal (s.fpu.st 0#3) || dv) n

section

variable {k : BitVec 3} {quiet : Bool} {n : Nat}

theorem compareSt_compares (runs : s.Runs i none (compareSt quiet k n)) (first : s.fpu.isEmpty 0#3 = false)
    (second : s.fpu.isEmpty k = false) :
    s.ComparesWith i quiet (s.fpu.st k) (tIsDenormal (s.fpu.st k)) n :=
  fun standard calm => runs.comparesWith (compareSt_there (s := s.npxAt i none) first second) standard calm

theorem compareSt_comparesEmpty (runs : s.Runs i none (compareSt quiet k n))
    (empty : s.fpu.isEmpty 0#3 = true ∨ s.fpu.isEmpty k = true) (invalid : s.npxMask 0 = true)
    (denormal : s.npxMask 1 = true) : s.ComparesEmpty i n :=
  runs.comparesEmpty (compareSt_empty (s := s.npxAt i none) empty) invalid denormal

end

section

variable {int pop x : Bool} {o : MemOp} (ready : s.npxReady = true)
  (reach : s.npxReaches o (arFmt int x).bytes false (arFmt int x).bytes = true)
include ready reach

theorem cmpRow_compares (there : s.fpu.isEmpty 0#3 = false) : s.ComparesWith (cmpRow int pop x o) false
    ((arFmt int x).load false (s.bits o (arFmt int x).bytes)).1
    ((arFmt int x).load false (s.bits o (arFmt int x).bytes)).2 (if pop then 1 else 0) := fun standard calm => by
  refine (State.Runs.mem ready reach (exec_cmpRow int pop x o s)).comparesWith ?_ standard calm
  rw [compareNum_at reach, there]
  rfl

theorem cmpRow_comparesEmpty (empty : s.fpu.isEmpty 0#3 = true) (invalid : s.npxMask 0 = true)
    (denormal : s.npxMask 1 = true) : s.ComparesEmpty (cmpRow int pop x o) (if pop then 1 else 0) := by
  refine (State.Runs.mem ready reach (exec_cmpRow int pop x o s)).comparesEmpty
    (den := ((arFmt int x).load false (s.bits o (arFmt int x).bytes)).2) ?_ invalid denormal
  rw [compareNum_at reach, empty]
  rfl

end

/-! Both. -/

/-- The instruction puts a value in ST(0), and of its condition codes `codes` holds. -/
def State.GivesTop (s : State) (i : Instr) (v : Temp) (codes : FpuStatus → Prop) : Prop :=
  ∃ (f : Fpu) (l : NpxLink) (d : Nat), exec i s = .next (s.npxDone f l d) ∧
    f.regs = s.fpu.regs.set s.fpu.status.top v ∧ f.tags = s.fpu.tags.set s.fpu.status.top (tTag v) ∧
    f.status.top = s.fpu.status.top ∧ codes f.status

theorem State.Replaces.givesTop {c : FpuStatus → Prop} (h : s.Replaces i v c) : s.GivesTop i v c := by
  obtain ⟨f, l, d, run, -, regs, top, tags, codes⟩ := h
  exact ⟨f, l, d, run, regs, tags, top, codes⟩

theorem State.Moves.givesTop (h : s.Moves i s.fpu.status.top (s.fpu.regs.set s.fpu.status.top v)
    (s.fpu.tags.set s.fpu.status.top (tTag v))) : s.GivesTop i v fun _ => True := by
  obtain ⟨f, l, d, run, top, regs, tags, -⟩ := h
  exact ⟨f, l, d, run, regs, tags, top, trivial⟩

/-- Half of an integer, rounded by the field RC (R42, R526). -/
def halfByField (field : Nat) (a : Int) : Int :=
  match field with
  | 0 => if a % 2 = 0 then a / 2 else if a / 2 % 2 = 0 then a / 2 else a / 2 + 1
  | 1 => a / 2
  | 2 => -((-a) / 2)
  | _ => a.tdiv 2

theorem halfRounded_cw (cw : BitVec 16) (a : Int) :
    halfRounded (cwRc cw) a = halfByField (cw.extractLsb' 10 2).toNat a := by
  rw [cwRc]
  generalize (cw.extractLsb' 10 2).toNat = field
  match field with
  | 0 | 1 | 2 | _ + 3 => rfl

/-- Settles O16: the comparisons by the order and the exceptions of their operands, the functions by exact results on
integers. -/
theorem npxComparisonsAndFunctions : Obligations.NpxComparisonsAndFunctions := by
  intro s k x int pop o a b c p top st tags order row compares empties fmt number memIns pops gives small signed up q1
    rest ints ready
  have compared {i : Instr} {quiet dv : Bool} {v : Temp} {n : Nat} (few : n ≤ 2)
      (h : s.ComparesWith i quiet v dv n) : compares i quiet v dv n := by
    interval_cases n <;> exact h
  have pair (quiet : Bool) (n : Nat) (few : n ≤ 2) {i : Instr} {j : BitVec 3} (first : p.isEmpty 0#3 = false)
      (second : p.isEmpty j = false) (runs : s.Runs i none (compareSt quiet j n)) :
      compares i quiet (st j) (tIsDenormal (st j)) n := compared few (compareSt_compares runs first second)
  have pairEmpty (quiet : Bool) (n : Nat) {i : Instr} {j : BitVec 3}
      (empty : p.isEmpty 0#3 = true ∨ p.isEmpty j = true) (runs : s.Runs i none (compareSt quiet j n)) :
      empties i n := fun invalid denormal => compareSt_comparesEmpty runs empty invalid denormal
  have zero : s.Runs .ftst none testZero := .reg ready rfl
  refine ⟨fun there => ⟨?_, fun reach => ?_⟩, fun empty => ⟨?_, fun reach => ?_⟩, fun first second => ?_,
    fun empty => ?_, ?_, fun there => ⟨fun pc bound is => ?_, fun bound is => ?_, fun bound some is room => ?_⟩,
    fun first second boundA boundB isA isB => ⟨fun scale => ?_, fun some => ⟨?_, ?_⟩⟩⟩
  · exact compared (by decide) fun standard calm => zero.comparesWith (testZero_there there) standard calm
  · exact compared (by cases pop <;> decide) (cmpRow_compares ready reach there)
  · exact fun invalid denormal => zero.comparesEmpty (testZero_empty empty) invalid denormal
  · exact fun invalid denormal => cmpRow_comparesEmpty ready reach empty invalid denormal
  · refine ⟨pair false 0 (by decide) first second (.reg ready rfl),
      pair false 1 (by decide) first second (.reg ready rfl),
      pair true 0 (by decide) first second (.reg ready rfl), pair true 1 (by decide) first second (.reg ready rfl), ?_⟩
    rintro rfl
    exact ⟨pair false 2 (by decide) first second (.reg ready rfl),
      pair true 2 (by decide) first second (.reg ready rfl)⟩
  · refine ⟨pairEmpty false 0 empty (.reg ready rfl), pairEmpty false 1 empty (.reg ready rfl),
      pairEmpty true 0 empty (.reg ready rfl), pairEmpty true 1 empty (.reg ready rfl), ?_⟩
    rintro rfl
    exact ⟨pairEmpty false 2 empty (.reg ready rfl), pairEmpty true 2 empty (.reg ready rfl)⟩
  · obtain ⟨f, l, d, run, regs, isTags, isTop, c1, isEmpty, isThere⟩ := fxam_codes ready
    exact ⟨f, l, d, run, regs, isTags, isTop, c1, isEmpty, fun there known =>
      (isThere there known).trans (classCodes_listed _)⟩
  · exact (fsqrt_square ready there pc bound is).givesTop
  · have half := frndint_half ready there bound is
    rw [halfRounded_cw] at half
    exact half.givesTop
  · obtain ⟨f, l, d, run, -, regs, isTop, isTags, -⟩ := fxtract_ofInt ready there bound some is room
    have pos : a.natAbs ≠ 0 := Int.natAbs_ne_zero.mpr some
    have fits := bitLen_le bound
    have len := bitLen_of_ne pos
    have normal : tTag (packTemp (decide (a < 0)) a.natAbs (-(a.natAbs.log2 : Int))) = .valid := by
      rw [tTag, class_packTemp pos bound (by omega) (by omega)]
    rw [normal] at isTags
    exact ⟨f, l, d, run, isTop, regs, isTags⟩
  · exact (fscale_ofInt ready first second boundA boundB isA isB scale).givesTop
  · exact (prem_delivers first second boundA boundB isA isB (.reg ready rfl)
      (prem_ofInt boundA boundB some)).givesTop
  · exact (prem_delivers first second boundA boundB isA isB (.reg ready rfl)
      (prem1_ofInt boundA boundB some)).givesTop

end Sys2Proof.Machine
end
